-- ==== Sys2Proof/Word.lean ====
section
/-! DEFINITION. The word and byte types of the SV9144 (spec/00_scope.md R3, R4, R11). -/

namespace Sys2Proof

/-- A register, a bus datum or an address: 32 bits (R39, R44). -/
abbrev Word := BitVec 32

/-- The smallest addressable unit (R11). -/
abbrev Byte := BitVec 8

end Sys2Proof
end

