-- ==== Sys2Proof/Syntax.lean ====
section
/-! DEFINITION. The commands of the SV9144: one constructor of `Instr` per row of spec/opcode_table.json, with the row's
operands. A register write carries its bus master and the value written; an event of a pin, a lane or a sensor carries
what the outside supplies; an Accord instruction carries its core, its predicate field and the operands of its format. -/

namespace Sys2Proof

/-- Bus masters, numbered as SCRUB_BERR_INFO.MASTER (R57). -/
inductive Master where
  | supv | debug | mover | meter | bridge | scrub
  deriving DecidableEq, Repr

/-- Who issues an Accord instruction: engine AE0 to AE7, or the supervisor (R222). -/
inductive Core where
  | eng (n : Fin 8)
  | supv
  deriving DecidableEq, Repr

/-- The predicate field of an instruction word: PRED in [31:30], PNEG in [29] (R224). -/
structure Pred where
  num : Fin 4
  neg : Bool
  deriving DecidableEq, Repr

/-- Operands of the formats R and I, bits [22:0] (R227). -/
inductive RI where
  | r (rd rs rt : Fin 16) (md : BitVec 10)
  | i (rd rs : Fin 16) (imm : BitVec 14)
  deriving DecidableEq, Repr

/-- Format M: [22:19] rd or rv, [18:15] rb, [14:13] ix, [12:0] off13 (R227). -/
structure MOp where
  rd : Fin 16
  rb : Fin 16
  ix : Fin 4
  off : BitVec 13
  deriving DecidableEq, Repr

/-- Format T: as M, with the special instruction's own fields in [12:0] (R227, R245). -/
structure TOp where
  rd : Fin 16
  rb : Fin 16
  ix : Fin 4
  low : BitVec 13
  deriving DecidableEq, Repr

/-- Format U: [22:19] rd, [18:15] rs, [14:0] own fields (R227, R245). -/
structure UOp where
  rd : Fin 16
  rs : Fin 16
  low : BitVec 15
  deriving DecidableEq, Repr

/-- Format L (R241): the immediate form (C, COUNT, LEN of 9 bits) and the register form (C, rs, bits [17:13], LEN of 13 bits). -/
inductive LOp where
  | imm (c : Fin 2) (count : BitVec 16) (len : BitVec 9)
  | reg (c : Fin 2) (rs : Fin 16) (zero : BitVec 5) (len : BitVec 13)
  deriving DecidableEq, Repr

/-- The size of a bus access in bits (R41). -/
inductive AccSize where
  | b8 | b16 | b32
  deriving DecidableEq, Repr

/-- What a bus access does. -/
inductive BusOp where
  | read
  | write (v : Word)
  deriving DecidableEq, Repr

/-- A frame as it stands on a lane (R137 to R139): SOF bytes 1 to 7, the data bytes, FCRC and NBLK of TERM, and whether a
block was lost inside it (R140). -/
structure Frame where
  sof  : List Byte
  data : List Byte
  fcrc : Word
  nblk : Byte
  lost : Bool
  deriving DecidableEq, Repr

/-- The four registers of a carrier that ATM_CL_CTL_WRITE writes (R219). -/
inductive ClReg where
  | ctl | cper | anch | minp
  deriving DecidableEq, Repr

/-- A half of a comparator (R315). -/
inductive Half where
  | main | shadow
  deriving DecidableEq, Repr

/-- What the input of a comparator half has been at, and for how many ns (R314). -/
structure HalfInput where
  half      : Half
  microvolt : Int
  held      : Nat
  deriving DecidableEq, Repr

/-- A STATUS frame of the twin link, with the level that TWIN_ARB_IN has as it comes (R410, R421). -/
structure StatusIn where
  frame : Frame
  arbIn : Bool
  deriving DecidableEq, Repr

/-- The bands of a pulse input, coded as PCNT_STAT (R359, R370). -/
inductive PBand where
  | short | closed | opened | broken
  deriving DecidableEq, Repr

/-- The bands of a read-back input, coded as SAFE_STAT.SRB (R391, R404). -/
inductive SBand where
  | offOpen | offIntact | energised | invalid
  deriving DecidableEq, Repr

/-- The CRC data registers (R477): 8, 16 or 32 bits. -/
inductive DinW where
  | d8 | d16 | d32
  deriving DecidableEq, Repr

/-- What the boot ROM reads at one slot, or receives in recovery (R495, R498): the bytes of the 256-byte header, then those of the
payload. -/
structure Image where
  bytes : List Byte
  deriving DecidableEq, Repr

/-- How a PMBus transaction ended (R508). -/
inductive PmbEnd where
  | ok (bytes : List Byte)
  | nack
  | pecErr
  | timeout
  deriving DecidableEq, Repr

/-- What a test pulse shows of one enabled pair (R395, R396): whether the pair demands at the evaluation instant, the level
of the pulsed and of the other input there, and whether a low other input returned high within 2 W of the pulse end. -/
structure PairSample where
  pulsedLow : Bool
  otherLow  : Bool
  otherBack : Bool
  deriving DecidableEq, Repr

/-- The commands (spec/opcode_table.json). -/
inductive Instr where
  -- 01 control period
  | periodBoundary
  | engStart
  | outPhase
  | commandFrameLaunch
  -- 02 address space
  | memoryAccess (m : Master) (addr : Word) (size : AccSize) (op : BusOp)
  | registerWrite (m : Master) (addr : Word) (v : Word)
  | lowWordRead (m : Master) (addr : Word)
  | rcRead (m : Master) (addr : Word)
  | scrubRead (cls : Fin 7)
  -- 03 power, start, reset
  | mainSuppliesGood
  | heartNoteEntry
  | mainSupplyLoss
  | sysPwrCtlWrite (m : Master) (v : Word)
  | domainSwitchOnDone
  | domainSwitchOffDone
  | pgTimeout (i : Fin 6)
  | pgFall (i : Fin 6)
  | supplyWindowExit (i : Fin 6) (out : Bool)
  | goBase (m : Master) (v : Word)
  | metWaive (m : Master) (v : Word)
  | resetNAssert
  | resetNRelease
  | softwareReset (m : Master) (v : Word)
  | resetStuck
  | amberSourceSwitch (toVbat : Bool)
  | vbatBrownOut
  | amberPowerOn (onVbat : Bool)
  | x32Fail
  | x32Recovered
  | ambWriteApply
  | batMeasure (millivolt : Nat)
  -- 04 ring lanes (lanes 0 to 23 are RP0 to RP23, 24 and 25 are TWL0 and TWL1)
  | blockReceived (lane : Fin 26) (hdr : BitVec 2) (payload : BitVec 64) (ebErr : Bool)
  | blockLock (lane : Fin 26)
  | lossOfLock (lane : Fin 26)
  | slipStep (m : Master) (lane : Fin 26) (v : Word)
  | signalLoss (lane : Fin 26)
  | ringCtlWrite (m : Master) (lane : Fin 26) (v : Word)
  | trainBlockReceived (lane : Fin 26) (payload : BitVec 64)
  | trainStart (m : Master) (lane : Fin 26) (v : Word)
  | quickEyeDone (lane : Fin 26) (w h : Nat)
  | trainTimeout (lane : Fin 26) (silent : Bool)
  | ringTapsWrite (m : Master) (lane : Fin 26) (v : Word)
  | eyeScanDone (lane : Fin 26) (w h : Nat)
  | berWindowEnd (lane : Fin 26)
  -- 05 cell link
  | linkRunStart (port : Fin 24)
  | timeBlockReceived (port : Fin 24) (payload : BitVec 64) (stamp16 : Nat) (wrapped : Bool)
  | probeReplyReceived (port : Fin 24) (payload : BitVec 64) (rt16 : Nat)
  | collectFrameReceived (port : Fin 24) (f : Frame)
  | repollFrameReceived (port : Fin 24) (f : Frame)
  | missingDecision (port : Fin 24) (sinceBoundary16 : Nat)
  | serviceFrameReceived (port : Fin 24) (f : Frame)
  | serviceLaunch (port : Fin 24) (gapBlocks : Nat)
  | ringCalibration (port : Fin 24)
  | calStart (m : Master) (port : Fin 24) (v : Word)
  | discoverLaunch (port : Fin 24)
  | discoverResult (port : Fin 24) (f : Frame)
  | ringTripWrite (m : Master) (port : Fin 24) (v : Word)
  | ringLinkCtlWrite (m : Master) (port : Fin 24) (v : Word)
  | cellReq (m : Master) (c : Fin 144) (v : Word)
  | cellMapWrite (m : Master) (c : Fin 144) (v : Word)
  -- 06 atomizer and gates
  | atmStart (m : Master) (v : Word)
  | atmStop (m : Master) (v : Word)
  | atmClCtlWrite (m : Master) (n : Fin 7) (r : ClReg) (v : Word)
  | carrierReload (leg : Fin 296) (peak : Bool)
  | syncOutPulse
  | syncInEdge (stamp : Nat)
  | syncLost
  | scheduledEdge (k : Fin 8)
  | deadTimeExpiry (k : Fin 8)
  | cutPeriodEnd (k : Fin 8)
  | rearm (m : Master) (v : Word)
  | gateEnWrite (m : Master) (v : Word)
  | gateModeWrite (m : Master) (k : Fin 8) (v : Word)
  | gateCal
  -- 07 Accord instructions
  | halt (c : Core) (p : Pred) (z : BitVec 23)
  | add (c : Core) (p : Pred) (x : RI)
  | sub (c : Core) (p : Pred) (x : RI)
  | and (c : Core) (p : Pred) (x : RI)
  | or (c : Core) (p : Pred) (x : RI)
  | xor (c : Core) (p : Pred) (x : RI)
  | shl (c : Core) (p : Pred) (x : RI)
  | shr (c : Core) (p : Pred) (x : RI)
  | sar (c : Core) (p : Pred) (x : RI)
  | min (c : Core) (p : Pred) (x : RI)
  | max (c : Core) (p : Pred) (x : RI)
  | abs (c : Core) (p : Pred) (x : RI)
  | neg (c : Core) (p : Pred) (x : RI)
  | sat (c : Core) (p : Pred) (x : RI)
  | cmpeq (c : Core) (p : Pred) (x : RI)
  | cmplt (c : Core) (p : Pred) (x : RI)
  | cmple (c : Core) (p : Pred) (x : RI)
  | mov (c : Core) (p : Pred) (x : RI)
  | movi (c : Core) (p : Pred) (rd : Fin 16) (imm : BitVec 19)
  | movh (c : Core) (p : Pred) (rd : Fin 16) (imm : BitVec 19)
  | mul (c : Core) (p : Pred) (x : RI)
  | mulq (c : Core) (p : Pred) (x : RI)
  | mac (c : Core) (p : Pred) (x : RI)
  | msu (c : Core) (p : Pred) (x : RI)
  | ld (c : Core) (p : Pred) (x : MOp)
  | st (c : Core) (p : Pred) (x : MOp)
  | ldh (c : Core) (p : Pred) (x : MOp)
  | sth (c : Core) (p : Pred) (x : MOp)
  | ldx (c : Core) (p : Pred) (x : MOp)
  | stx (c : Core) (p : Pred) (x : MOp)
  | smp (c : Core) (p : Pred) (x : MOp)
  | lutg (c : Core) (p : Pred) (x : UOp)
  | biq (c : Core) (p : Pred) (x : UOp)
  | ramp (c : Core) (p : Pred) (x : UOp)
  | sorts (c : Core) (p : Pred) (x : TOp)
  | sortg (c : Core) (p : Pred) (x : TOp)
  | ref (c : Core) (p : Pred) (x : TOp)
  | edge (c : Core) (p : Pred) (x : TOp)
  | trc (c : Core) (p : Pred) (x : UOp)
  | xput (c : Core) (p : Pred) (x : TOp)
  | xget (c : Core) (p : Pred) (x : TOp)
  | blend (c : Core) (p : Pred) (x : RI)
  | b (c : Core) (p : Pred) (off : BitVec 23)
  | bl (c : Core) (p : Pred) (off : BitVec 23)
  | bx (c : Core) (p : Pred) (rs : Fin 16) (zero : BitVec 19)
  | bc (c : Core) (p : Pred) (rs : Fin 16) (cond : Fin 4) (off : BitVec 17)
  | eret (c : Core) (p : Pred) (z : BitVec 23)
  | sysc (c : Core) (p : Pred) (low : BitVec 23)
  | loop (c : Core) (p : Pred) (x : LOp)
  | mfs (c : Core) (p : Pred) (rd : Fin 16) (zero : BitVec 7) (num : BitVec 12)
  | mts (c : Core) (p : Pred) (rs : Fin 16) (zero : BitVec 7) (num : BitVec 12)
  | illegalInstruction (c : Core) (w : Word)
  -- 08 engines
  | sortRankingDone (u : Fin 2)
  | aectlEnWrite (m : Master) (n : Fin 8) (v : Word)
  | swapArm (m : Master) (n : Fin 8) (v : Word)
  | swapCancel (m : Master) (n : Fin 8) (v : Word)
  | tickArm (m : Master) (n : Fin 8) (v : Word)
  | lutMapWrite (m : Master) (n : Fin 8) (v : Word)
  | biqLoad (m : Master) (n : Fin 8) (v : Word)
  | biqZclr (m : Master) (n : Fin 8) (v : Word)
  | blendArm (m : Master) (n : Fin 8) (ch : Fin 8) (v : Word)
  | blendCancel (m : Master) (n : Fin 8) (ch : Fin 8) (v : Word)
  | sortWindowWrite (m : Master) (u : Fin 2) (j : Fin 8) (range : Bool) (v : Word)
  | silCtlWrite (m : Master) (bf : Fin 8) (v : Word)
  | silArm (m : Master) (bf : Fin 8) (v : Word)
  | silForce (m : Master) (bf : Fin 8) (v : Word)
  | silStop (m : Master) (bf : Fin 8) (v : Word)
  -- 09 measurement
  | conversionComplete (g : Fin 2) (microvolt : Int) (stamp : Nat)
  | plausStale
  | sequenceRestart (g : Fin 2)
  | commit (m : Master) (g : Fin 2) (v : Word)
  | adcCtlWrite (m : Master) (g : Fin 2) (v : Word)
  | adcMetMaskWrite (m : Master) (g : Fin 2) (v : Word)
  | adcAccLatch (m : Master) (g : Fin 2) (v : Word)
  | adcInj (m : Master) (g : Fin 2) (v : Word)
  | injTrigger (g : Fin 2) (peak : Bool)
  | bgCorrection (g : Fin 2) (slice : Fin 4) (dOfs dGain dSkew : Int) (slope : Bool)
  | adcCalStart (m : Master) (g : Fin 2) (v : Word)
  | adcCalDone (g : Fin 2) (ofs gain skew : List Int)
  | comparatorAssert (n : Fin 8) (x : HalfInput)
  | comparatorRelease (n : Fin 8) (x : HalfInput)
  | cmpThWrite (m : Master) (n : Fin 8) (v : Word)
  | cmpThMainApply (n : Fin 8)
  | cmpMaskEnd (n : Fin 8) (h : Half)
  | cmpDisagree (n : Fin 8)
  | cmpTest (m : Master) (v : Word)
  | cmpSelftestDone (n : Fin 8) (mainOk shadowOk : Bool)
  | tmonSample (sixteenths : Int) (broken : Bool)
  | tmonRateWindow
  | tmonLimWrite (m : Master) (v : Word)
  -- 10 metering
  | metBinEnd
  | lineCycleEnd (t : Nat)
  | freqNomTimeout
  | mirrorWrite (t : Nat)
  | metRecordWritten
  | forcedLatch (m : Master) (v : Word)
  | latchArm (m : Master) (v : Word)
  | latchDisarm (m : Master) (v : Word)
  | irst (m : Master) (v : Word)
  | metIRead (m : Master) (q : Fin 130)
  | emergencyLatch (t : Nat)
  | pfwNReturn
  | meteringStart
  | flaconVerify
  | pcinChange (n : Fin 8) (toClosed : Bool)
  | pcinBandFault (n : Fin 8) (band : PBand)
  | pcntPreset (m : Master) (n : Fin 8) (v : Word)
  | poutPulse (n : Fin 4)
  | bwWake (inputs : BitVec 3)
  | bwSecond (rms : List Nat)
  | bwEnd
  | metUnlock (m : Master) (v : Word)
  | metConfigWrite (m : Master) (addr : Word) (v : Word)
  | flcFormat (m : Master) (v : Word)
  -- 11 protection and safety
  | faultRaise (i : Fin 128)
  | faultEvent
  | fcPendAck (m : Master) (w : Fin 4) (v : Word)
  | release (m : Master) (v : Word)
  | errnRelease (m : Master) (v : Word)
  | errnWidthEnd
  | fcLock (m : Master) (v : Word)
  | gfltNAssert (j : Fin 16) (sinceOn : Nat) (low : Bool)
  | blankEnd (j : Fin 16)
  | grdyLow (j : Fin 16) (low : Bool)
  | predriverUvlo (low : Bool)
  | safeChannelDisagree (differ : Bool)
  | srbMismatch (n : Fin 4) (band : SBand)
  | offPulse (n : Fin 4) (first second : SBand) (backOk cut : Bool)
  | sinDemand (i : Fin 8)
  | sinDiscrepancy (p : Fin 4)
  | testPulse (chB : Bool) (pairs : List PairSample)
  | testPulseStarved
  | safeRstNPulse (ms : Nat)
  | safeRstNLong
  | key1 (m : Master) (v : Word)
  | key2 (m : Master) (v : Word)
  | armedTimeout
  | safeOutReqWrite (m : Master) (v : Word)
  -- 12 twin
  | twinCtlWrite (m : Master) (v : Word)
  | twinCommandReceived (f : Frame)
  | twinCopyReceived (f : Frame)
  | twinSnapReceived (f : Frame)
  | twinStatusReceived (x : StatusIn)
  | twinMissReceived (f : Frame)
  | twinServiceReceived (f : Frame)
  | liveRunStart
  | contextCaptureDone (n : Fin 8)
  | takeover
  | claim
  | claimConfirm (arbInHigh : Bool)
  | yield
  | swap (m : Master) (v : Word)
  | cancel (m : Master) (v : Word)
  | returnHoldExpiry
  | twinStatusTimeout
  | twinCtxWrite (m : Master) (n : Fin 8) (v : Word)
  -- 13 clocks and time
  | refLost
  | refBack
  | synLock (syn : Fin 3)
  | synUnlock (syn : Fin 3)
  | relock (syn : Fin 3)
  | relockDone
  | clkRelockGo (m : Master) (v : Word)
  | clkTrimWrite (m : Master) (v : Word)
  | lockfClear
  | step (m : Master) (v : Word)
  | set (m : Master) (v : Word)
  | servoSample (m : Master) (sv : Fin 2) (v : Word)
  | servoHoldover (sv : Fin 2)
  | timeSelWrite (m : Master) (v : Word)
  | timePhasesWrite (m : Master) (v : Word)
  | timePeriodWrite (m : Master) (anchor : Bool) (v : Word)
  | ppsOut
  | ppsInEdge (stamp : Nat)
  | ppsLost
  -- 14 ports, queues, check values
  | ethLinkChange (n : Fin 4) (up : Bool) (speed : Fin 4) (anDone : Bool)
  | ethFrameReceived (n : Fin 4) (bytes : List Byte) (fcsOk : Bool) (stamp : Nat)
  | ethFrameTransmit (n : Fin 5) (stamp : Nat)
  | addressAgeOut (vid : BitVec 12) (mac : BitVec 48)
  | mdioGo (m : Master) (v : Word)
  | mdioDone (data : BitVec 16)
  | ethTxtsRead (m : Master) (n : Fin 4)
  | qmQOpen (m : Master) (q : Fin 64) (v : Word)
  | qmCommit (m : Master) (q : Fin 64) (v : Word)
  | qmAbort (m : Master) (q : Fin 64) (v : Word)
  | qmDone (m : Master) (q : Fin 64) (v : Word)
  | qmDrop (m : Master) (q : Fin 64) (v : Word)
  | crcStart (m : Master) (n : Fin 4) (v : Word)
  | crcDin (m : Master) (n : Fin 4) (w : DinW) (v : Word)
  | crcValWrite (m : Master) (n : Fin 4) (v : Word)
  | crcCfgWrite (m : Master) (n : Fin 4) (v : Word)
  -- 15 supervisor and boot
  | lockstepMismatch
  | interruptTaken
  | timerExpiry (t : Fin 2)
  | wdKick (v : Word)
  | wdExpiry
  | wdWarn
  | bootImageStart (sfdp : Bool) (slotA slotB : Option Image) (tImgUs : Word)
  | recoveryImageReceived (img : Image)
  | confirmed (m : Master) (v : Word)
  | raiseSvnMin (m : Master) (v : Word)
  | revokeKey (m : Master) (v : Word)
  | fuseProgramDone
  | grant (m : Master) (v : Word)
  | revoke (m : Master) (v : Word)
  | tapInstructionLoad (ir : BitVec 5)
  | debugReset
  | uartByteReceived (byte : Byte) (frameErr : Bool)
  | uartDataWrite (m : Master) (v : Word)
  | uartDataRead (m : Master)
  | gpioEdge (n : Fin 16) (rising : Bool)
  | gpioSet (m : Master) (v : Word)
  | gpioClr (m : Master) (v : Word)
  | pmicCtlWrite (m : Master) (v : Word)
  | pmicRailStep
  | sendByte (m : Master) (v : Word)
  | writeByte (m : Master) (v : Word)
  | writeWord (m : Master) (v : Word)
  | readByte (m : Master) (v : Word)
  | readWord (m : Master) (v : Word)
  | blockWrite (m : Master) (v : Word)
  | blockRead (m : Master) (v : Word)
  | pmbDone (e : PmbEnd)
  | qspiCmd (m : Master) (v : Word)
  | qspiDone (data : List Byte)
  -- rows added at the end of the table
  | holdoverTick
  | bandEdge
  | outputMonitorInterlock (k : Fin 8)
  | sinDemandRelease (i : Fin 8)
  | pcinCountResume (n : Fin 8) (toClosed : Bool)
  | uartByteSent
  | coreHalt
  deriving DecidableEq, Repr

end Sys2Proof
end

