-- ==== Sys2Proof/Decode.lean ====
section
/-! DEFINITION. The command that a word of the opcode table spells: spec/opcode_table.json gives bits to no row, so no word spells a
command. Beside it, the Accord instruction word, decoded and encoded (spec/07_accord_isa.md, R224 to R227, R241). -/

namespace Sys2Proof

/-- No row of the table gives bits. -/
def decodeTableWord (_nbits _w : Nat) : Option Instr := none

/-! ### Fields of the instruction word -/

/-- A field of four bits that names a register. -/
def reg4 (w : Word) (lo : Nat) : Fin 16 := (w.extractLsb' lo 4).toFin

/-- PRED and PNEG (R224). -/
def predOf (w : Word) : Pred := ⟨(w.extractLsb' 30 2).toFin, w.getLsbD 29⟩

/-- Formats R and I, told apart by bit 22 (R227). -/
def riOf (w : Word) : RI :=
  if w.getLsbD 22 then .i (reg4 w 18) (reg4 w 14) (w.extractLsb' 0 14)
  else .r (reg4 w 18) (reg4 w 14) (reg4 w 10) (w.extractLsb' 0 10)

/-- Formats M, T and U (R227). -/
def mOf (w : Word) : MOp := ⟨reg4 w 19, reg4 w 15, (w.extractLsb' 13 2).toFin, w.extractLsb' 0 13⟩
def tOf (w : Word) : TOp := ⟨reg4 w 19, reg4 w 15, (w.extractLsb' 13 2).toFin, w.extractLsb' 0 13⟩
def uOf (w : Word) : UOp := ⟨reg4 w 19, reg4 w 15, w.extractLsb' 0 15⟩

/-- The immediate form of LOOP: LEN[8:6] stands in OPC[2:0] (R241). -/
def loopImmOf (w : Word) : LOp := .imm (w.extractLsb' 22 1).toFin (w.extractLsb' 6 16) (w.extractLsb' 23 3 ++ w.extractLsb' 0 6)

/-- The register form of LOOP (R241). -/
def loopRegOf (w : Word) : LOp := .reg (w.extractLsb' 22 1).toFin (reg4 w 18) (w.extractLsb' 13 5) (w.extractLsb' 0 13)

/-! ### The opcode map (R226) -/

/-- Opcodes 0x00 to 0x17. -/
def decodeAlu (c : Core) (w : Word) (o : Nat) : Option Instr :=
  let p := predOf w; let x := riOf w
  match o with
  | 0x00 => some (.halt c p (w.extractLsb' 0 23)) | 0x01 => some (.add c p x) | 0x02 => some (.sub c p x) | 0x03 => some (.and c p x)
  | 0x04 => some (.or c p x) | 0x05 => some (.xor c p x) | 0x06 => some (.shl c p x) | 0x07 => some (.shr c p x)
  | 0x08 => some (.sar c p x) | 0x09 => some (.min c p x) | 0x0A => some (.max c p x) | 0x0B => some (.abs c p x)
  | 0x0C => some (.neg c p x) | 0x0D => some (.sat c p x) | 0x0E => some (.cmpeq c p x) | 0x0F => some (.cmplt c p x)
  | 0x10 => some (.cmple c p x) | 0x11 => some (.mov c p x) | 0x12 => some (.movi c p (reg4 w 19) (w.extractLsb' 0 19))
  | 0x13 => some (.movh c p (reg4 w 19) (w.extractLsb' 0 19)) | 0x14 => some (.mul c p x) | 0x15 => some (.mulq c p x)
  | 0x16 => some (.mac c p x) | 0x17 => some (.msu c p x)
  | _ => none

/-- Opcodes 0x18 to 0x29. -/
def decodeMem (c : Core) (w : Word) (o : Nat) : Option Instr :=
  let p := predOf w
  match o with
  | 0x18 => some (.ld c p (mOf w)) | 0x19 => some (.st c p (mOf w)) | 0x1A => some (.ldh c p (mOf w)) | 0x1B => some (.sth c p (mOf w))
  | 0x1C => some (.ldx c p (mOf w)) | 0x1D => some (.stx c p (mOf w)) | 0x1E => some (.smp c p (mOf w)) | 0x1F => some (.lutg c p (uOf w))
  | 0x20 => some (.biq c p (uOf w)) | 0x21 => some (.ramp c p (uOf w)) | 0x22 => some (.sorts c p (tOf w)) | 0x23 => some (.sortg c p (tOf w))
  | 0x24 => some (.ref c p (tOf w)) | 0x25 => some (.edge c p (tOf w)) | 0x26 => some (.trc c p (uOf w)) | 0x27 => some (.xput c p (tOf w))
  | 0x28 => some (.xget c p (tOf w)) | 0x29 => some (.blend c p (riOf w))
  | _ => none

/-- Opcodes 0x2A to 0x3F; 0x3B to 0x3F are reserved. -/
def decodeSys (c : Core) (w : Word) (o : Nat) : Option Instr :=
  let p := predOf w
  match o with
  | 0x2A => some (.b c p (w.extractLsb' 0 23)) | 0x2B => some (.bl c p (w.extractLsb' 0 23))
  | 0x2C => some (.bx c p (reg4 w 19) (w.extractLsb' 0 19))
  | 0x2D => some (.bc c p (reg4 w 19) (w.extractLsb' 17 2).toFin (w.extractLsb' 0 17))
  | 0x2E => some (.eret c p (w.extractLsb' 0 23)) | 0x2F => some (.sysc c p (w.extractLsb' 0 23))
  | 0x38 => some (.mfs c p (reg4 w 19) (w.extractLsb' 12 7) (w.extractLsb' 0 12))
  | 0x39 => some (.mts c p (reg4 w 19) (w.extractLsb' 12 7) (w.extractLsb' 0 12))
  | 0x3A => some (.loop c p (loopRegOf w))
  | o => if 0x30 ≤ o && o < 0x38 then some (.loop c p (loopImmOf w)) else none

/-- The instruction a word spells for a core; none for a reserved opcode. -/
def decodeAccord (c : Core) (w : Word) : Option Instr :=
  let o := (w.extractLsb' 23 6).toNat
  if o < 0x18 then decodeAlu c w o else if o < 0x2A then decodeMem c w o else decodeSys c w o

/-! ### The encoder -/

/-- A register number as bits. -/
def bits4 (r : Fin 16) : BitVec 4 := BitVec.ofNat 4 r

/-- A word of predicate, opcode and operands (R224). -/
def encWord (p : Pred) (o : BitVec 6) (low : BitVec 23) : Word :=
  BitVec.ofNat 2 p.num ++ BitVec.ofBool p.neg ++ o ++ low

/-- The operands of the formats R and I, M, T and U. -/
def encRI : RI → BitVec 23
  | .r rd rs rt md => 0#1 ++ bits4 rd ++ bits4 rs ++ bits4 rt ++ md
  | .i rd rs imm => 1#1 ++ bits4 rd ++ bits4 rs ++ imm
def encM (x : MOp) : BitVec 23 := bits4 x.rd ++ bits4 x.rb ++ BitVec.ofNat 2 x.ix ++ x.off
def encT (x : TOp) : BitVec 23 := bits4 x.rd ++ bits4 x.rb ++ BitVec.ofNat 2 x.ix ++ x.low
def encU (x : UOp) : BitVec 23 := bits4 x.rd ++ bits4 x.rs ++ x.low

/-- The word of an Accord instruction; none for the other commands. -/
def encodeAccord : Instr → Option Word
  | .halt _ p z => some (encWord p 0x00 z)
  | .add _ p x => some (encWord p 0x01 (encRI x)) | .sub _ p x => some (encWord p 0x02 (encRI x))
  | .and _ p x => some (encWord p 0x03 (encRI x)) | .or _ p x => some (encWord p 0x04 (encRI x))
  | .xor _ p x => some (encWord p 0x05 (encRI x)) | .shl _ p x => some (encWord p 0x06 (encRI x))
  | .shr _ p x => some (encWord p 0x07 (encRI x)) | .sar _ p x => some (encWord p 0x08 (encRI x))
  | .min _ p x => some (encWord p 0x09 (encRI x)) | .max _ p x => some (encWord p 0x0A (encRI x))
  | .abs _ p x => some (encWord p 0x0B (encRI x)) | .neg _ p x => some (encWord p 0x0C (encRI x))
  | .sat _ p x => some (encWord p 0x0D (encRI x)) | .cmpeq _ p x => some (encWord p 0x0E (encRI x))
  | .cmplt _ p x => some (encWord p 0x0F (encRI x)) | .cmple _ p x => some (encWord p 0x10 (encRI x))
  | .mov _ p x => some (encWord p 0x11 (encRI x))
  | .movi _ p rd imm => some (encWord p 0x12 (bits4 rd ++ imm)) | .movh _ p rd imm => some (encWord p 0x13 (bits4 rd ++ imm))
  | .mul _ p x => some (encWord p 0x14 (encRI x)) | .mulq _ p x => some (encWord p 0x15 (encRI x))
  | .mac _ p x => some (encWord p 0x16 (encRI x)) | .msu _ p x => some (encWord p 0x17 (encRI x))
  | .ld _ p x => some (encWord p 0x18 (encM x)) | .st _ p x => some (encWord p 0x19 (encM x))
  | .ldh _ p x => some (encWord p 0x1A (encM x)) | .sth _ p x => some (encWord p 0x1B (encM x))
  | .ldx _ p x => some (encWord p 0x1C (encM x)) | .stx _ p x => some (encWord p 0x1D (encM x))
  | .smp _ p x => some (encWord p 0x1E (encM x)) | .lutg _ p x => some (encWord p 0x1F (encU x))
  | .biq _ p x => some (encWord p 0x20 (encU x)) | .ramp _ p x => some (encWord p 0x21 (encU x))
  | .sorts _ p x => some (encWord p 0x22 (encT x)) | .sortg _ p x => some (encWord p 0x23 (encT x))
  | .ref _ p x => some (encWord p 0x24 (encT x)) | .edge _ p x => some (encWord p 0x25 (encT x))
  | .trc _ p x => some (encWord p 0x26 (encU x)) | .xput _ p x => some (encWord p 0x27 (encT x))
  | .xget _ p x => some (encWord p 0x28 (encT x)) | .blend _ p x => some (encWord p 0x29 (encRI x))
  | .b _ p off => some (encWord p 0x2A off) | .bl _ p off => some (encWord p 0x2B off)
  | .bx _ p rs z => some (encWord p 0x2C (bits4 rs ++ z))
  | .bc _ p rs cond off => some (encWord p 0x2D (bits4 rs ++ BitVec.ofNat 2 cond ++ off))
  | .eret _ p z => some (encWord p 0x2E z) | .sysc _ p low => some (encWord p 0x2F low)
  | .loop _ p (.imm c count len) => some (encWord p (6#3 ++ len.extractLsb' 6 3) (BitVec.ofNat 1 c ++ count ++ len.extractLsb' 0 6))
  | .loop _ p (.reg c rs z len) => some (encWord p 0x3A (BitVec.ofNat 1 c ++ bits4 rs ++ z ++ len))
  | .mfs _ p rd z num => some (encWord p 0x38 (bits4 rd ++ z ++ num))
  | .mts _ p rs z num => some (encWord p 0x39 (bits4 rs ++ z ++ num))
  | _ => none

end Sys2Proof
end

