-- ==== Sys2Proof/Config.lean ====
section
/-! DEFINITION. What the spec leaves open and the machine goes on with: free values, opaque constants that nothing can evaluate
(DESIGN CHOICE, safe; notes/assumptions/3). None has a body. -/

namespace Sys2Proof.Config

/-- A byte of the boot ROM (R39 index 39): the spec gives no contents (notes/assumptions/24). -/
opaque romByte : Nat → Byte

/-- A byte of the external flash (R39 index 38), a device outside the part, after so many transactions that write it (notes/assumptions/24). -/
opaque flashByte : Nat → Nat → Byte

/-- The output cells of the boundary register, loaded from outside through the TAP, as words (R504; notes/assumptions/75). -/
opaque scanCells : Nat → Nat → Word

/-- A fresh value that the spec leaves open, applied to `Dev.freeCtr`. -/
opaque freeWord : Nat → Word

/-- A fresh natural number that the spec leaves open (lengths of transport, arbitration orders), applied to `Dev.freeCtr`. -/
opaque freeNat : Nat → Nat

/-- The hash of a VID and an address that chooses a set of the address table (R462; notes/assumptions/67). -/
opaque addrHash : Nat → Nat → Nat

/-- What the metering engine's own cosine of a 256th turn differs by from the exact one, in 2^-30; clamped to one unit where it is used (R337;
notes/assumptions/54). -/
opaque cosError : Nat → Int

/-- A harmonic group of order `h` over the resampled points of a window, after IEC 61000-4-7 and with the engine's corrections: a function of
the points whose arithmetic the spec does not give (R340; notes/assumptions/54). -/
opaque harmGroup : List Int → Nat → Word

/-- The minor silicon revision, SI_REV[3:0] of the descriptor header (R49; notes/assumptions/24). -/
opaque siMinor : BitVec 4

end Sys2Proof.Config
end

