-- ==== Sys2Proof/Machine/RegMap.lean ====
section
/-! DEFINITION. The register map: every register of the chapters' tables with its offset, its instances, its reset value and
its access (R6, R39, R42). The address of a register is `Reg.<NAME>`, applied to its indices. -/

namespace Sys2Proof.Machine

/-- One kind of register of a block. `dims` lists (instances, bytes between them), outer index first; the masks say which bits
software stores (`rw`), clears by a 1 (`w1c`), sets by a 1 (`w1s`), and whether a read clears (`rc`, R6). Bits in no mask
ignore writes; a WO bit reads as zero and its action is the special meaning of the register. -/
structure RegKind where
  off   : Nat
  dims  : List (Nat × Nat)
  reset : Word
  rw    : Word
  w1c   : Word
  w1s   : Word
  rc    : Word
  deriving DecidableEq, Repr

/-- Whether the distance `d` from the first instance is that of an instance. -/
def RegKind.inDims : List (Nat × Nat) → Nat → Bool
  | [], d => d == 0
  | (n, st) :: rest, d => decide (d / st < n) && RegKind.inDims rest (d % st)

/-- Whether the kind has a register at the block offset `o`. -/
def RegKind.at (k : RegKind) (o : Nat) : Bool := decide (k.off ≤ o) && RegKind.inDims k.dims (o - k.off)

/-- Registers of SYS (03_power_start_reset.md, R92). -/
def RegMap.sys : List RegKind := [
  ⟨0x0, [], 0x1#32, 0x0#32, 0x0#32, 0x0#32, 0x0#32⟩,  -- SYS_STAGE
  ⟨0x4, [], 0x0#32, 0x0#32, 0x0#32, 0x0#32, 0x0#32⟩,  -- SYS_READY
  ⟨0x8, [], 0x0#32, 0x0#32, 0x3FFFF#32, 0x0#32, 0x0#32⟩,  -- SYS_READY_EVT
  ⟨0xC, [], 0x0#32, 0x3FFFF#32, 0x0#32, 0x0#32, 0x0#32⟩,  -- SYS_READY_IEN
  ⟨0x10, [], 0x0#32, 0x0#32, 0x0#32, 0x2#32, 0x0#32⟩,  -- SYS_CTL
  ⟨0x20, [], 0x3#32, 0xFC#32, 0x0#32, 0x0#32, 0x0#32⟩,  -- SYS_PWR_CTL
  ⟨0x24, [], 0x3#32, 0x0#32, 0x0#32, 0x0#32, 0x0#32⟩,  -- SYS_PWR_STAT
  ⟨0x28, [], 0x0#32, 0x0#32, 0x3F#32, 0x0#32, 0x0#32⟩,  -- SYS_PWR_ERR
  ⟨0x30, [], 0x0#32, 0x0#32, 0x0#32, 0x0#32, 0x0#32⟩,  -- SYS_RST_CTL
  ⟨0x34, [], 0x1#32, 0x0#32, 0x3F#32, 0x0#32, 0x0#32⟩,  -- SYS_RST_CAUSE
  ⟨0x40, [], 0x0#32, 0x0#32, 0x3F00#32, 0x0#32, 0x0#32⟩,  -- SYS_SUPMON
  ⟨0x50, [], 0x0#32, 0x3#32, 0x0#32, 0x20#32, 0x0#32⟩,  -- SYS_BOOT
  ⟨0x54, [], 0x0#32, 0x0#32, 0x0#32, 0x0#32, 0x0#32⟩]  -- SYS_SUPV_CAUSE

/-- Registers of CLK (13_clocks_time.md, R457). -/
def RegMap.clk : List RegKind := [
  ⟨0x0, [], 0x0#32, 0x1F#32, 0x0#32, 0x0#32, 0x0#32⟩,  -- CLK_CTL
  ⟨0x4, [], 0x0#32, 0x0#32, 0x0#32, 0x0#32, 0x0#32⟩,  -- CLK_STAT
  ⟨0x8, [], 0x0#32, 0x0#32, 0xFF#32, 0x0#32, 0x0#32⟩,  -- CLK_EVT
  ⟨0xC, [], 0x0#32, 0xFF#32, 0x0#32, 0x0#32, 0x0#32⟩,  -- CLK_IEN
  ⟨0x10, [], 0x0#32, 0x7#32, 0x0#32, 0x0#32, 0x0#32⟩,  -- CLK_SYN0
  ⟨0x14, [], 0x0#32, 0xFFFFF#32, 0x0#32, 0x0#32, 0x0#32⟩,  -- CLK_TRIM
  ⟨0x18, [], 0x0#32, 0x0#32, 0x0#32, 0x0#32, 0x0#32⟩,  -- CLK_RELOCK
  ⟨0x1C, [], 0x0#32, 0x0#32, 0x0#32, 0x0#32, 0xFFFFFF#32⟩,  -- CLK_CNT_UNLOCK
  ⟨0x80, [(32, 4)], 0x0#32, 0xFFFFFFBF#32, 0x0#32, 0x0#32, 0x0#32⟩]  -- CLK_BAND

/-- Registers of TIME (13_clocks_time.md, R458), part 1. -/
def RegMap.time0 : List RegKind := [
  ⟨0x0, [], 0x0#32, 0xF#32, 0x0#32, 0x0#32, 0x0#32⟩,  -- TIME_CTL
  ⟨0x4, [], 0x0#32, 0x0#32, 0x700#32, 0x0#32, 0x0#32⟩,  -- TIME_STATUS
  ⟨0x8, [], 0x0#32, 0x0#32, 0x7F#32, 0x0#32, 0x0#32⟩,  -- TIME_EVT
  ⟨0xC, [], 0x0#32, 0x7F#32, 0x0#32, 0x0#32, 0x0#32⟩,  -- TIME_IEN
  ⟨0x10, [], 0x0#32, 0x0#32, 0x0#32, 0x0#32, 0x0#32⟩,  -- TIME_NOW_LO
  ⟨0x14, [], 0x0#32, 0x0#32, 0x0#32, 0x0#32, 0x0#32⟩,  -- TIME_NOW_HI
  ⟨0x18, [], 0x0#32, 0x0#32, 0x0#32, 0x0#32, 0x0#32⟩,  -- TIME_NOW_FRAC
  ⟨0x20, [], 0x4E20#32, 0x3FFFF#32, 0x0#32, 0x0#32, 0x0#32⟩,  -- TIME_PERIOD
  ⟨0x24, [], 0x0#32, 0x3FFFF#32, 0x0#32, 0x0#32, 0x0#32⟩,  -- TIME_ANCHOR
  ⟨0x28, [], 0x6400190#32, 0xFFFFFFFF#32, 0x0#32, 0x0#32, 0x0#32⟩,  -- TIME_PHASES
  ⟨0x2C, [], 0x0#32, 0x0#32, 0x0#32, 0x0#32, 0x0#32⟩,  -- TIME_PNUM
  ⟨0x30, [], 0x0#32, 0x0#32, 0x0#32, 0x0#32, 0x0#32⟩,  -- TIME_RATE
  ⟨0x34, [], 0xA0064#32, 0xFFFF03FF#32, 0x0#32, 0x0#32, 0x0#32⟩,  -- TIME_SLEW
  ⟨0x40, [], 0x0#32, 0xFFFFFFFF#32, 0x0#32, 0x0#32, 0x0#32⟩,  -- TIME_STEP_LO
  ⟨0x44, [], 0x0#32, 0xFFFFFFFF#32, 0x0#32, 0x0#32, 0x0#32⟩,  -- TIME_STEP_HI
  ⟨0x48, [], 0x0#32, 0x0#32, 0x0#32, 0x0#32, 0x0#32⟩,  -- TIME_CMD
  ⟨0x50, [], 0x6400#32, 0xFF07#32, 0x0#32, 0x0#32, 0x0#32⟩,  -- TIME_PPS_CTL
  ⟨0x54, [], 0x0#32, 0x3FFFFFFF#32, 0x0#32, 0x0#32, 0x0#32⟩,  -- TIME_PPS_OFS
  ⟨0x58, [], 0x0#32, 0xFFFFFFFF#32, 0x0#32, 0x0#32, 0x0#32⟩,  -- TIME_PPS_INOFS
  ⟨0x60, [], 0x0#32, 0x0#32, 0x0#32, 0x0#32, 0x0#32⟩,  -- TIME_PPSIN_LO
  ⟨0x64, [], 0x0#32, 0x0#32, 0x0#32, 0x0#32, 0x0#32⟩,  -- TIME_PPSIN_HI
  ⟨0x68, [], 0x0#32, 0x0#32, 0x0#32, 0x0#32, 0x0#32⟩,  -- TIME_PPSIN_ERR
  ⟨0x100, [(2, 64)], 0x43000000#32, 0xFF0FFF01#32, 0x0#32, 0x0#32, 0x0#32⟩,  -- SRV_CTL
  ⟨0x104, [(2, 64)], 0x2002000#32, 0xFFFFFFFF#32, 0x0#32, 0x0#32, 0x0#32⟩,  -- SRV_GAIN
  ⟨0x108, [(2, 64)], 0x401F4#32, 0xFFFFF#32, 0x0#32, 0x0#32, 0x0#32⟩]  -- SRV_OUTL

/-- Registers of TIME (13_clocks_time.md, R458), part 2. -/
def RegMap.time1 : List RegKind := [
  ⟨0x110, [(2, 64)], 0x0#32, 0x0#32, 0x0#32, 0x0#32, 0x0#32⟩,  -- SRV_SMP_LO
  ⟨0x114, [(2, 64)], 0x0#32, 0x0#32, 0x0#32, 0x0#32, 0x0#32⟩,  -- SRV_SMP_HI
  ⟨0x118, [(2, 64)], 0x0#32, 0x0#32, 0x0#32, 0x0#32, 0x0#32⟩,  -- SRV_STAT
  ⟨0x11C, [(2, 64)], 0x0#32, 0x0#32, 0x0#32, 0x0#32, 0x0#32⟩,  -- SRV_OFS
  ⟨0x120, [(2, 64)], 0x0#32, 0x0#32, 0x0#32, 0x0#32, 0x0#32⟩,  -- SRV_FREQ
  ⟨0x124, [(2, 64)], 0x0#32, 0x0#32, 0x0#32, 0x0#32, 0xFFFFFFFF#32⟩]  -- SRV_CNT_REJ

/-- Registers of AMB (03_power_start_reset.md, R94). -/
def RegMap.amb : List RegKind := [
  ⟨0x0, [], 0x8#32, 0x0#32, 0x38#32, 0x0#32, 0x0#32⟩,  -- AMB_STATUS
  ⟨0x4, [], 0x3#32, 0x3#32, 0x0#32, 0x0#32, 0x0#32⟩,  -- AMB_CTL
  ⟨0x8, [], 0x0#32, 0xFFFFF#32, 0x0#32, 0x0#32, 0x0#32⟩,  -- AMB_TRIM
  ⟨0x10, [], 0x0#32, 0x0#32, 0x0#32, 0x0#32, 0x0#32⟩,  -- AMB_HOLD_LO
  ⟨0x14, [], 0x0#32, 0x0#32, 0x0#32, 0x0#32, 0x0#32⟩,  -- AMB_HOLD_HI
  ⟨0x18, [], 0x0#32, 0x0#32, 0x0#32, 0x0#32, 0x0#32⟩,  -- AMB_OFF_LO
  ⟨0x1C, [], 0x0#32, 0x0#32, 0x0#32, 0x0#32, 0x0#32⟩,  -- AMB_OFF_HI
  ⟨0x20, [], 0x0#32, 0x0#32, 0x0#32, 0x0#32, 0x0#32⟩,  -- AMB_RSTK_LO
  ⟨0x24, [], 0x0#32, 0x0#32, 0x0#32, 0x0#32, 0x0#32⟩,  -- AMB_RSTK_HI
  ⟨0x28, [], 0x0#32, 0x0#32, 0x0#32, 0x0#32, 0xFF#32⟩,  -- AMB_RSTK_CNT
  ⟨0x2C, [], 0x0#32, 0x0#32, 0x0#32, 0x0#32, 0x0#32⟩,  -- AMB_LAST_RST
  ⟨0x40, [(8, 4)], 0x0#32, 0xFFFFFFFF#32, 0x0#32, 0x0#32, 0x0#32⟩,  -- AMB_SCRATCH
  ⟨0x100, [(2, 128), (32, 4)], 0x0#32, 0x0#32, 0x0#32, 0x0#32, 0x0#32⟩,  -- AMB_MIRROR
  ⟨0x200, [], 0xA00#32, 0xFF0F#32, 0x0#32, 0x0#32, 0x0#32⟩,  -- AMB_BW_CTL
  ⟨0x204, [], 0x0#32, 0x0#32, 0x0#32, 0x0#32, 0x0#32⟩,  -- AMB_BW_STAT
  ⟨0x208, [], 0x520005#32, 0xFFF003F#32, 0x0#32, 0x0#32, 0x0#32⟩,  -- AMB_BW_TH
  ⟨0x210, [(3, 4)], 0x0#32, 0xFFFFFF#32, 0x0#32, 0x0#32, 0x0#32⟩,  -- AMB_BW_K
  ⟨0x220, [(3, 4)], 0x0#32, 0x0#32, 0x0#32, 0x0#32, 0x0#32⟩,  -- AMB_BW_AH
  ⟨0x240, [(8, 16), (4, 4)], 0x0#32, 0x0#32, 0x0#32, 0x0#32, 0x0#32⟩]  -- AMB_BW_EV

/-- Registers of FC (11_protection_safety.md, R402). -/
def RegMap.fc : List RegKind := [
  ⟨0x0, [], 0x1#32, 0x1F#32, 0x0#32, 0x100#32, 0x0#32⟩,  -- FC_CTL
  ⟨0x4, [], 0x0#32, 0x0#32, 0x0#32, 0x0#32, 0x0#32⟩,  -- FC_STAT
  ⟨0x8, [], 0x0#32, 0x0#32, 0x1FF#32, 0x0#32, 0x0#32⟩,  -- FC_EVT
  ⟨0xC, [], 0x0#32, 0x1FF#32, 0x0#32, 0x0#32, 0x0#32⟩,  -- FC_IEN
  ⟨0x10, [], 0x1064#32, 0x33FF#32, 0x0#32, 0x0#32, 0x0#32⟩,  -- FC_ERRN
  ⟨0x14, [], 0x0#32, 0x0#32, 0x0#32, 0x0#32, 0x0#32⟩,  -- FC_CMD
  ⟨0x18, [], 0x0#32, 0xF#32, 0x0#32, 0x0#32, 0x0#32⟩,  -- FC_SOFT
  ⟨0x20, [], 0x0#32, 0x0#32, 0x0#32, 0x0#32, 0xFFFFFFFF#32⟩,  -- FC_CNT_CLRREF
  ⟨0x24, [], 0x0#32, 0x0#32, 0x0#32, 0x0#32, 0xFFFFFFFF#32⟩,  -- FC_CNT_REPEAT
  ⟨0x40, [(4, 4)], 0x0#32, 0x0#32, 0x0#32, 0x0#32, 0x0#32⟩,  -- FC_ACTIVE
  ⟨0x50, [(4, 4)], 0x0#32, 0x0#32, 0xFFFFFFFF#32, 0x0#32, 0x0#32⟩,  -- FC_PEND
  ⟨0x60, [(2, 4)], 0xFFFFFFFF#32, 0xFFFFFFFF#32, 0x0#32, 0x0#32, 0x0#32⟩,  -- FC_EN
  ⟨0x68, [], 0xFFFFFFFF#32, 0xE7FFFFFF#32, 0x0#32, 0x0#32, 0x0#32⟩,  -- FC_EN_2
  ⟨0x6C, [], 0x3F#32, 0x3F#32, 0x0#32, 0x0#32, 0x0#32⟩,  -- FC_EN_3
  ⟨0x80, [(8, 4)], 0x0#32, 0x0#32, 0x0#32, 0x0#32, 0x0#32⟩,  -- FC_PCLS
  ⟨0x100, [], 0xAAAAAAAA#32, 0xFFFFFFFF#32, 0x0#32, 0x0#32, 0x0#32⟩,  -- FC_CLASS_0
  ⟨0x104, [], 0xAAAAAAAA#32, 0xFFFFFFFF#32, 0x0#32, 0x0#32, 0x0#32⟩,  -- FC_CLASS_1
  ⟨0x108, [], 0xAAAAAAAA#32, 0xFFFFFFFF#32, 0x0#32, 0x0#32, 0x0#32⟩,  -- FC_CLASS_2
  ⟨0x10C, [], 0x55555555#32, 0xFFFFFFFF#32, 0x0#32, 0x0#32, 0x0#32⟩,  -- FC_CLASS_3
  ⟨0x110, [], 0xAAAA5555#32, 0xFFFFFFFF#32, 0x0#32, 0x0#32, 0x0#32⟩,  -- FC_CLASS_4
  ⟨0x114, [], 0x5BD69665#32, 0xFC3FFFFF#32, 0x0#32, 0x0#32, 0x0#32⟩,  -- FC_CLASS_5
  ⟨0x118, [], 0x5#32, 0xFFF#32, 0x0#32, 0x0#32, 0x0#32⟩,  -- FC_CLASS_6
  ⟨0x11C, [], 0x0#32, 0x0#32, 0x0#32, 0x0#32, 0x0#32⟩,  -- FC_CLASS_7
  ⟨0x1000, [(64, 32), (8, 4)], 0x0#32, 0x0#32, 0x0#32, 0x0#32, 0x0#32⟩]  -- FC_LOG

/-- Registers of GATE (06_atomizer_gates.md, R221). -/
def RegMap.gate : List RegKind := [
  ⟨0x0, [], 0x0#32, 0xFF#32, 0x0#32, 0x0#32, 0x0#32⟩,  -- GATE_CTL
  ⟨0x4, [], 0x0#32, 0x0#32, 0x0#32, 0x0#32, 0x0#32⟩,  -- GATE_STAT
  ⟨0x8, [], 0x0#32, 0x0#32, 0x3FFFFFF#32, 0x0#32, 0x0#32⟩,  -- GATE_EVT
  ⟨0xC, [], 0x0#32, 0x3FFFFFF#32, 0x0#32, 0x0#32, 0x0#32⟩,  -- GATE_IEN
  ⟨0x10, [], 0x0#32, 0x0#32, 0x0#32, 0x0#32, 0x0#32⟩,  -- GATE_PINS
  ⟨0x20, [(8, 4)], 0x3E803E8#32, 0xFFF0FFF#32, 0x0#32, 0x0#32, 0x0#32⟩,  -- GATE_DT
  ⟨0x40, [(8, 4)], 0x0#32, 0x1#32, 0x0#32, 0x0#32, 0x0#32⟩,  -- GATE_MODE
  ⟨0x60, [], 0x1#32, 0x1FF#32, 0x0#32, 0x0#32, 0x0#32⟩,  -- GATE_CUT_0
  ⟨0x64, [], 0x2#32, 0x1FF#32, 0x0#32, 0x0#32, 0x0#32⟩,  -- GATE_CUT_1
  ⟨0x68, [], 0x4#32, 0x1FF#32, 0x0#32, 0x0#32, 0x0#32⟩,  -- GATE_CUT_2
  ⟨0x6C, [], 0x8#32, 0x1FF#32, 0x0#32, 0x0#32, 0x0#32⟩,  -- GATE_CUT_3
  ⟨0x70, [], 0x10#32, 0x1FF#32, 0x0#32, 0x0#32, 0x0#32⟩,  -- GATE_CUT_4
  ⟨0x74, [], 0x20#32, 0x1FF#32, 0x0#32, 0x0#32, 0x0#32⟩,  -- GATE_CUT_5
  ⟨0x78, [], 0x40#32, 0x1FF#32, 0x0#32, 0x0#32, 0x0#32⟩,  -- GATE_CUT_6
  ⟨0x7C, [], 0x80#32, 0x1FF#32, 0x0#32, 0x0#32, 0x0#32⟩,  -- GATE_CUT_7
  ⟨0x80, [(8, 4)], 0x0#32, 0x0#32, 0x0#32, 0x0#32, 0xFFFFFFFF#32⟩,  -- GATE_CNT_CUT
  ⟨0xA0, [], 0x0#32, 0x0#32, 0x0#32, 0x0#32, 0x0#32⟩,  -- GATE_CAL
  ⟨0x400, [], 0xFFFF#32, 0xFFFFFFFF#32, 0x0#32, 0x0#32, 0x0#32⟩,  -- GATE_SUP_CTL
  ⟨0x404, [], 0x0#32, 0x0#32, 0x0#32, 0x0#32, 0x0#32⟩,  -- GATE_SUP_STAT
  ⟨0x408, [], 0x0#32, 0x0#32, 0x1FFFF#32, 0x0#32, 0x0#32⟩,  -- GATE_SUP_EVT
  ⟨0x40C, [], 0x0#32, 0x1FFFF#32, 0x0#32, 0x0#32, 0x0#32⟩,  -- GATE_SUP_IEN
  ⟨0x410, [], 0x7#32, 0xF#32, 0x0#32, 0x0#32, 0x0#32⟩,  -- GATE_SUP_CELL
  ⟨0x440, [(16, 4)], 0xA0003E8#32, 0xFFFF0FFF#32, 0x0#32, 0x0#32, 0x0#32⟩,  -- GATE_SUP_CH
  ⟨0x480, [(16, 4)], 0x0#32, 0x0#32, 0x0#32, 0x0#32, 0xFFFFFFFF#32⟩]  -- GATE_SUP_CNT

/-- Registers of SAFE (11_protection_safety.md, R404). -/
def RegMap.safe : List RegKind := [
  ⟨0x0, [], 0x0#32, 0x0#32, 0x0#32, 0x0#32, 0x0#32⟩,  -- SAFE_STAT
  ⟨0x4, [], 0x0#32, 0x0#32, 0x1FF#32, 0x0#32, 0x0#32⟩,  -- SAFE_EVT
  ⟨0x8, [], 0x0#32, 0x1FF#32, 0x0#32, 0x0#32, 0x0#32⟩,  -- SAFE_IEN
  ⟨0xC, [], 0x0#32, 0x0#32, 0x0#32, 0x0#32, 0x0#32⟩,  -- SAFE_DIAG
  ⟨0x10, [], 0x0#32, 0xF#32, 0x0#32, 0x0#32, 0x0#32⟩,  -- SAFE_OUT_REQ
  ⟨0x14, [], 0x0#32, 0x0#32, 0x0#32, 0x0#32, 0x0#32⟩,  -- SAFE_KEY
  ⟨0x18, [], 0x642801#32, 0xFFFFFF01#32, 0x0#32, 0x0#32, 0x0#32⟩,  -- SAFE_TP
  ⟨0x20, [(4, 4)], 0x3C1400#32, 0xFFFFFFF3#32, 0x0#32, 0x0#32, 0x0#32⟩,  -- SAFE_OUT
  ⟨0x40, [(4, 4)], 0x641E02#32, 0xFFFFFF03#32, 0x0#32, 0x0#32, 0x0#32⟩,  -- SAFE_PAIR
  ⟨0x50, [], 0x0#32, 0x0#32, 0x0#32, 0x0#32, 0xFFFFFFFF#32⟩,  -- SAFE_CNT_RST
  ⟨0x54, [], 0x0#32, 0x0#32, 0x0#32, 0x0#32, 0xFFFFFFFF#32⟩]  -- SAFE_CNT_SKIP

/-- Registers of ATM (06_atomizer_gates.md, R219). -/
def RegMap.atm : List RegKind := [
  ⟨0x0, [], 0x0#32, 0x1#32, 0x0#32, 0x0#32, 0x0#32⟩,  -- ATM_CTL
  ⟨0x4, [], 0x0#32, 0x0#32, 0x0#32, 0x0#32, 0x0#32⟩,  -- ATM_STAT
  ⟨0x8, [], 0x0#32, 0x0#32, 0x7F#32, 0x0#32, 0x0#32⟩,  -- ATM_EVT
  ⟨0xC, [], 0x0#32, 0x7F#32, 0x0#32, 0x0#32, 0x0#32⟩,  -- ATM_IEN
  ⟨0x10, [], 0xA00#32, 0xFFFFFF01#32, 0x0#32, 0x0#32, 0x0#32⟩,  -- ATM_SYNC_OUT
  ⟨0x14, [], 0x0#32, 0xFF3F01#32, 0x0#32, 0x0#32, 0x0#32⟩,  -- ATM_SYNC_IN
  ⟨0x18, [], 0x0#32, 0xFFFFFF#32, 0x0#32, 0x0#32, 0x0#32⟩,  -- ATM_SYNC_OFS
  ⟨0x1C, [], 0x0#32, 0x0#32, 0x0#32, 0x0#32, 0x0#32⟩,  -- ATM_SYNC_ERR
  ⟨0x20, [], 0x0#32, 0x0#32, 0x0#32, 0x0#32, 0xFFFFFFFF#32⟩,  -- ATM_CNT_BADEV
  ⟨0x24, [], 0x0#32, 0x0#32, 0x0#32, 0x0#32, 0xFFFFFFFF#32⟩,  -- ATM_CNT_OVF
  ⟨0x28, [], 0x0#32, 0x0#32, 0x0#32, 0x0#32, 0xFFFFFFFF#32⟩,  -- ATM_CNT_TIE
  ⟨0x2C, [], 0x0#32, 0x0#32, 0x0#32, 0x0#32, 0xFFFFFFFF#32⟩,  -- ATM_CNT_SYNC
  ⟨0x30, [], 0x0#32, 0x0#32, 0x0#32, 0x0#32, 0x0#32⟩,  -- ATM_CSEQ
  ⟨0x100, [(7, 32)], 0x100#32, 0x3F0F#32, 0x0#32, 0x0#32, 0x0#32⟩,  -- ATM_CL_CTL
  ⟨0x104, [(7, 32)], 0x9C40#32, 0xFFFFFF#32, 0x0#32, 0x0#32, 0x0#32⟩,  -- ATM_CL_CPER
  ⟨0x108, [(7, 32)], 0x0#32, 0xFFFFFF#32, 0x0#32, 0x0#32, 0x0#32⟩,  -- ATM_CL_ANCH
  ⟨0x10C, [(7, 32)], 0x0#32, 0x0#32, 0x0#32, 0x0#32, 0x0#32⟩,  -- ATM_CL_ANCH_ACT
  ⟨0x110, [(7, 32)], 0x64#32, 0xFFFF#32, 0x0#32, 0x0#32, 0x0#32⟩,  -- ATM_CL_MINP
  ⟨0x200, [(144, 4)], 0x0#32, 0x3F#32, 0x0#32, 0x0#32, 0x0#32⟩,  -- ATM_CELL
  ⟨0x480, [(8, 4)], 0x0#32, 0xFFFFFF01#32, 0x0#32, 0x0#32, 0x0#32⟩,  -- ATM_LL
  ⟨0x8000, [(144, 16), (4, 4)], 0x0#32, 0x0#32, 0x0#32, 0x0#32, 0x0#32⟩,  -- ATM_REC
  ⟨0x9000, [(8, 64), (16, 4)], 0x0#32, 0x0#32, 0x0#32, 0x0#32, 0x0#32⟩]  -- ATM_LEV

/-- Registers of SORT (08_accord_engines.md, R290). -/
def RegMap.sort : List RegKind := [
  ⟨0x0, [], 0x3#32, 0x3#32, 0x0#32, 0x0#32, 0x0#32⟩,  -- SORT_CTL
  ⟨0x4, [], 0x0#32, 0x0#32, 0x7#32, 0x0#32, 0x0#32⟩,  -- SORT_EVT
  ⟨0x10, [(2, 4)], 0x0#32, 0x0#32, 0x0#32, 0x0#32, 0xFFFFFFFF#32⟩,  -- SORT_CNT
  ⟨0x100, [(2, 64), (8, 8)], 0x0#32, 0xF#32, 0x0#32, 0x0#32, 0x0#32⟩,  -- SORT_WCTL
  ⟨0x104, [(2, 64), (8, 8)], 0x0#32, 0xFFFFFFFF#32, 0x0#32, 0x0#32, 0x0#32⟩,  -- SORT_WRNG
  ⟨0x200, [(2, 256), (48, 4)], 0x0#32, 0x0#32, 0x0#32, 0x0#32, 0x0#32⟩]  -- SORT_RANK

/-- Registers of SIL (08_accord_engines.md, R291). -/
def RegMap.sil : List RegKind := [
  ⟨0x0, [], 0x0#32, 0x0#32, 0x1FFFF#32, 0x0#32, 0x0#32⟩,  -- SIL_EVT
  ⟨0x4, [], 0x0#32, 0x1FFFF#32, 0x0#32, 0x0#32, 0x0#32⟩,  -- SIL_IEN
  ⟨0x100, [(8, 64)], 0x0#32, 0xFFFF#32, 0x0#32, 0x0#32, 0x0#32⟩,  -- SIL_CTL
  ⟨0x104, [(8, 64)], 0x0#32, 0x3FF0777#32, 0x0#32, 0x0#32, 0x0#32⟩,  -- SIL_TRIG
  ⟨0x108, [(8, 64)], 0x0#32, 0xFFFFFFFF#32, 0x0#32, 0x0#32, 0x0#32⟩,  -- SIL_TH
  ⟨0x10C, [(8, 64)], 0x0#32, 0x3FFF#32, 0x0#32, 0x0#32, 0x0#32⟩,  -- SIL_PRE
  ⟨0x110, [(8, 64)], 0x0#32, 0x0#32, 0x0#32, 0x0#32, 0x0#32⟩,  -- SIL_CMD
  ⟨0x114, [(8, 64)], 0x0#32, 0x0#32, 0x0#32, 0x0#32, 0x0#32⟩,  -- SIL_STAT
  ⟨0x118, [(8, 64)], 0x0#32, 0x0#32, 0x0#32, 0x0#32, 0x0#32⟩,  -- SIL_TIDX
  ⟨0x11C, [(8, 64)], 0x0#32, 0x0#32, 0x0#32, 0x0#32, 0x0#32⟩,  -- SIL_TPER
  ⟨0x120, [(8, 64)], 0x0#32, 0x0#32, 0x0#32, 0x0#32, 0x0#32⟩,  -- SIL_TCYC
  ⟨0x124, [(8, 64)], 0x100#32, 0xFF3F#32, 0x0#32, 0x0#32, 0x0#32⟩,  -- SIL_STREAM
  ⟨0x128, [(8, 64)], 0x0#32, 0x0#32, 0x0#32, 0x0#32, 0xFFFFFFFF#32⟩]  -- SIL_CNT_LOST

/-- Registers of AECTL (08_accord_engines.md, R289). -/
def RegMap.aectl : List RegKind := [
  ⟨0x0, [], 0x0#32, 0x3#32, 0x0#32, 0x0#32, 0x0#32⟩,  -- AECTL_CTL
  ⟨0x4, [], 0x0#32, 0x0#32, 0x0#32, 0x0#32, 0x0#32⟩,  -- AECTL_STAT
  ⟨0x8, [], 0x0#32, 0x0#32, 0x3FF#32, 0x0#32, 0x0#32⟩,  -- AECTL_EVT
  ⟨0xC, [], 0x0#32, 0x3FF#32, 0x0#32, 0x0#32, 0x0#32⟩,  -- AECTL_IEN
  ⟨0x10, [], 0x0#32, 0xFFFFFFFF#32, 0x0#32, 0x0#32, 0x0#32⟩,  -- AECTL_SWAP_AT
  ⟨0x14, [], 0x0#32, 0x0#32, 0x0#32, 0x0#32, 0x0#32⟩,  -- AECTL_SWAP
  ⟨0x20, [], 0x1000001#32, 0xFF#32, 0x0#32, 0x0#32, 0x0#32⟩,  -- AECTL_TICK
  ⟨0x24, [], 0x0#32, 0xFFFFFFFF#32, 0x0#32, 0x0#32, 0x0#32⟩,  -- AECTL_TICK_AT
  ⟨0x28, [], 0x0#32, 0x0#32, 0x0#32, 0x0#32, 0x0#32⟩,  -- AECTL_TICK_LAST
  ⟨0x30, [], 0xE4E4#32, 0xFF#32, 0x0#32, 0x0#32, 0x0#32⟩,  -- AECTL_LUT_MAP
  ⟨0x34, [], 0x0#32, 0x0#32, 0x0#32, 0xFFFF#32, 0x0#32⟩,  -- AECTL_BIQ_LOAD
  ⟨0x38, [], 0x0#32, 0x0#32, 0x0#32, 0xFFFF#32, 0x0#32⟩,  -- AECTL_BIQ_ZCLR
  ⟨0x40, [(8, 8)], 0x1#32, 0xFFFF#32, 0x0#32, 0x0#32, 0x0#32⟩,  -- AECTL_BLEND
  ⟨0x44, [(8, 8)], 0x0#32, 0xFFFFFFFF#32, 0x0#32, 0x0#32, 0x0#32⟩,  -- AECTL_BLEND_AT
  ⟨0x80, [], 0x0#32, 0x0#32, 0x0#32, 0x0#32, 0x0#32⟩,  -- AECTL_BUDGET
  ⟨0x84, [], 0x0#32, 0x0#32, 0x0#32, 0x0#32, 0x0#32⟩,  -- AECTL_OUTLIM
  ⟨0x88, [], 0x0#32, 0x0#32, 0x0#32, 0x0#32, 0x0#32⟩,  -- AECTL_CYC
  ⟨0x8C, [], 0x80000000#32, 0x0#32, 0x0#32, 0x0#32, 0x0#32⟩,  -- AECTL_OUT_LAST
  ⟨0x90, [], 0x0#32, 0x0#32, 0x0#32, 0x0#32, 0x0#32⟩,  -- AECTL_OVR
  ⟨0x94, [], 0x0#32, 0x0#32, 0x0#32, 0x0#32, 0x0#32⟩,  -- AECTL_OVR_PER
  ⟨0x98, [], 0x0#32, 0x0#32, 0x0#32, 0x0#32, 0xFFFFFFFF#32⟩,  -- AECTL_CNT_OVR
  ⟨0x9C, [], 0x0#32, 0x0#32, 0x0#32, 0x0#32, 0xFFFFFFFF#32⟩,  -- AECTL_CNT_LATE
  ⟨0x400, [(256, 4)], 0x0#32, 0x0#32, 0x0#32, 0x0#32, 0x0#32⟩]  -- AECTL_MBOX

/-- Registers of CELL (05_cell_link.md, R181). -/
def RegMap.cell : List RegKind := [
  ⟨0x0, [], 0x3#32, 0x3F#32, 0x0#32, 0x0#32, 0x0#32⟩,  -- CELL_CTL
  ⟨0x4, [], 0x0#32, 0x0#32, 0x3F#32, 0x0#32, 0x0#32⟩,  -- CELL_ERR
  ⟨0x10, [(4, 4)], 0x0#32, 0x0#32, 0xFFFFFFFF#32, 0x0#32, 0x0#32⟩,  -- CELL_EVT
  ⟨0x20, [], 0x0#32, 0x0#32, 0xFFFF#32, 0x0#32, 0x0#32⟩,  -- CELL_EVT_4
  ⟨0x30, [(4, 4)], 0x0#32, 0xFFFFFFFF#32, 0x0#32, 0x0#32, 0x0#32⟩,  -- CELL_IEN
  ⟨0x40, [], 0x0#32, 0xFFFF#32, 0x0#32, 0x0#32, 0x0#32⟩,  -- CELL_IEN_4
  ⟨0x1000, [(144, 16)], 0x0#32, 0x70F1F#32, 0x0#32, 0x0#32, 0x0#32⟩,  -- CELL_MAP
  ⟨0x1004, [(144, 16)], 0x0#32, 0x0#32, 0x0#32, 0x0#32, 0x0#32⟩,  -- CELL_REQ
  ⟨0x1008, [(144, 16)], 0x0#32, 0x0#32, 0x0#32, 0x0#32, 0x0#32⟩,  -- CELL_STAT
  ⟨0x100C, [(144, 16)], 0x0#32, 0x0#32, 0x0#32, 0x0#32, 0x0#32⟩,  -- CELL_SEEN
  ⟨0x2000, [(144, 64), (16, 4)], 0x0#32, 0x0#32, 0x0#32, 0x0#32, 0x0#32⟩]  -- CELL_DESC

/-- Registers of RING (04_ring_lanes.md, R125), part 1. -/
def RegMap.ring0 : List RegKind := [
  ⟨0x0, [], 0x0#32, 0x3F#32, 0x0#32, 0x0#32, 0x0#32⟩,  -- RING_CTL
  ⟨0x4, [], 0x0#32, 0x0#32, 0x0#32, 0x0#32, 0x0#32⟩,  -- RING_STAT
  ⟨0x8, [], 0x0#32, 0x0#32, 0xFF#32, 0x0#32, 0x0#32⟩,  -- RING_EVT
  ⟨0xC, [], 0x93#32, 0x9F#32, 0x0#32, 0x0#32, 0x0#32⟩,  -- RING_FLT_EN
  ⟨0x10, [], 0x0#32, 0x1#32, 0x0#32, 0x0#32, 0x0#32⟩,  -- RING_SLIP
  ⟨0x20, [], 0x83202#32, 0x1F3F0F#32, 0x0#32, 0x0#32, 0x0#32⟩,  -- RING_TAPS
  ⟨0x24, [], 0x2403200#32, 0xFFFFF00#32, 0x0#32, 0x0#32, 0x0#32⟩,  -- RING_TRAIN
  ⟨0x28, [], 0x0#32, 0x0#32, 0x0#32, 0x0#32, 0x0#32⟩,  -- RING_TRAIN_STAT
  ⟨0x30, [], 0xF14#32, 0x7F3F#32, 0x0#32, 0x0#32, 0x0#32⟩,  -- RING_EYE_LIM
  ⟨0x34, [], 0x0#32, 0x0#32, 0x0#32, 0x0#32, 0x0#32⟩,  -- RING_EYE
  ⟨0x38, [], 0x10#32, 0xFFFF#32, 0x0#32, 0x0#32, 0x0#32⟩,  -- RING_BER
  ⟨0x3C, [], 0x0#32, 0x0#32, 0x0#32, 0x0#32, 0xFFFFFFFF#32⟩,  -- RING_CNT_HDR
  ⟨0x40, [], 0x0#32, 0x0#32, 0x0#32, 0x0#32, 0xFFFFFFFF#32⟩,  -- RING_CNT_TYPE
  ⟨0x44, [], 0x0#32, 0x0#32, 0x0#32, 0x0#32, 0xFFFFFFFF#32⟩,  -- RING_CNT_LOL
  ⟨0x100, [], 0x0#32, 0x9F0F1F03#32, 0x0#32, 0x0#32, 0x0#32⟩,  -- RING_LINK_CTL
  ⟨0x104, [], 0x0#32, 0x0#32, 0x0#32, 0x0#32, 0x0#32⟩,  -- RING_LINK_STAT
  ⟨0x108, [], 0x0#32, 0x0#32, 0x7FF#32, 0x0#32, 0x0#32⟩,  -- RING_LINK_EVT
  ⟨0x10C, [], 0x0#32, 0x7FF#32, 0x0#32, 0x0#32, 0x0#32⟩,  -- RING_LINK_IEN
  ⟨0x110, [], 0x400400#32, 0xF0FFFF#32, 0x0#32, 0x0#32, 0x0#32⟩,  -- RING_CAL
  ⟨0x114, [], 0x0#32, 0x0#32, 0x0#32, 0x0#32, 0x0#32⟩,  -- RING_HR
  ⟨0x118, [], 0x0#32, 0x0#32, 0x0#32, 0x0#32, 0x0#32⟩,  -- RING_SLACK_C
  ⟨0x11C, [], 0x0#32, 0x0#32, 0x0#32, 0x0#32, 0x0#32⟩,  -- RING_SLACK_M
  ⟨0x120, [], 0x0#32, 0x0#32, 0x0#32, 0x0#32, 0x0#32⟩,  -- RING_SLACK_W
  ⟨0x124, [], 0x2#32, 0x3#32, 0x0#32, 0x0#32, 0x0#32⟩,  -- RING_REPOLL
  ⟨0x128, [], 0x13880000#32, 0xFFFF7F7F#32, 0x0#32, 0x0#32, 0x0#32⟩]  -- RING_SVC

/-- Registers of RING (04_ring_lanes.md, R125), part 2. -/
def RegMap.ring1 : List RegKind := [
  ⟨0x12C, [], 0x0#32, 0x0#32, 0x0#32, 0x0#32, 0x0#32⟩,  -- RING_TRIP
  ⟨0x130, [], 0x0#32, 0x0#32, 0x0#32, 0x0#32, 0x0#32⟩,  -- RING_REC_EARLY
  ⟨0x140, [(12, 4)], 0x0#32, 0x0#32, 0x0#32, 0x0#32, 0x0#32⟩,  -- RING_OFS
  ⟨0x180, [], 0x0#32, 0x0#32, 0x0#32, 0x0#32, 0xFFFFFFFF#32⟩,  -- RING_CNT_LATE
  ⟨0x184, [], 0x0#32, 0x0#32, 0x0#32, 0x0#32, 0xFFFFFFFF#32⟩,  -- RING_CNT_RCRC
  ⟨0x188, [], 0x0#32, 0x0#32, 0x0#32, 0x0#32, 0xFFFFFFFF#32⟩,  -- RING_CNT_FCRC
  ⟨0x18C, [], 0x0#32, 0x0#32, 0x0#32, 0x0#32, 0xFFFFFFFF#32⟩,  -- RING_CNT_RLEN
  ⟨0x190, [], 0x0#32, 0x0#32, 0x0#32, 0x0#32, 0xFFFFFFFF#32⟩,  -- RING_CNT_MISM
  ⟨0x194, [], 0x0#32, 0x0#32, 0x0#32, 0x0#32, 0xFFFFFFFF#32⟩,  -- RING_CNT_RPSENT
  ⟨0x198, [], 0x0#32, 0x0#32, 0x0#32, 0x0#32, 0xFFFFFFFF#32⟩,  -- RING_CNT_RPOK
  ⟨0x19C, [], 0x0#32, 0x0#32, 0x0#32, 0x0#32, 0xFFFFFFFF#32⟩,  -- RING_CNT_MISS
  ⟨0x1A0, [], 0x0#32, 0x0#32, 0x0#32, 0x0#32, 0xFFFFFFFF#32⟩,  -- RING_CNT_SVC
  ⟨0x1A4, [], 0x0#32, 0x0#32, 0x0#32, 0x0#32, 0xFFFFFFFF#32⟩]  -- RING_CNT_TRIP

/-- Registers of TWIN (12_twin.md, R429). -/
def RegMap.twin : List RegKind := [
  ⟨0x200, [], 0x110#32, 0xF0F3F#32, 0x0#32, 0x0#32, 0x0#32⟩,  -- TWIN_CTL
  ⟨0x204, [], 0x0#32, 0x0#32, 0x0#32, 0x0#32, 0x0#32⟩,  -- TWIN_STAT
  ⟨0x208, [], 0x0#32, 0x0#32, 0x3FFF#32, 0x0#32, 0x0#32⟩,  -- TWIN_EVT
  ⟨0x20C, [], 0x0#32, 0x3FFF#32, 0x0#32, 0x0#32, 0x0#32⟩,  -- TWIN_IEN
  ⟨0x210, [], 0x0#32, 0x0#32, 0x0#32, 0x0#32, 0x0#32⟩,  -- TWIN_CMD
  ⟨0x214, [], 0x0#32, 0xFFFFFFFF#32, 0x0#32, 0x0#32, 0x0#32⟩,  -- TWIN_SWAP_AT
  ⟨0x218, [], 0xA#32, 0xFFFF#32, 0x0#32, 0x0#32, 0x0#32⟩,  -- TWIN_HOLD
  ⟨0x21C, [], 0x0#32, 0x1FFFF#32, 0x0#32, 0x0#32, 0x0#32⟩,  -- TWIN_LIVE
  ⟨0x220, [], 0x0#32, 0x0#32, 0x0#32, 0x0#32, 0x0#32⟩,  -- TWIN_TL
  ⟨0x224, [], 0x0#32, 0x0#32, 0x0#32, 0x0#32, 0x0#32⟩,  -- TWIN_CHK
  ⟨0x228, [], 0x0#32, 0x0#32, 0x0#32, 0x0#32, 0x0#32⟩,  -- TWIN_LOAD
  ⟨0x240, [(8, 4)], 0x0#32, 0x3FF01F1#32, 0x0#32, 0x0#32, 0x0#32⟩,  -- TWIN_CTX
  ⟨0x280, [], 0x0#32, 0x0#32, 0x0#32, 0x0#32, 0xFFFFFFFF#32⟩,  -- TWIN_CNT_DIV
  ⟨0x284, [], 0x0#32, 0x0#32, 0x0#32, 0x0#32, 0xFFFFFFFF#32⟩,  -- TWIN_CNT_VOID
  ⟨0x288, [], 0x0#32, 0x0#32, 0x0#32, 0x0#32, 0xFFFFFFFF#32⟩]  -- TWIN_CNT_TAKE

/-- Registers of ADC (09_measurement.md, R325), part 1. -/
def RegMap.adc0 : List RegKind := [
  ⟨0x0, [], 0x8#32, 0xF#32, 0x0#32, 0x0#32, 0x0#32⟩,  -- ADC_CTL
  ⟨0x4, [], 0x0#32, 0x0#32, 0x0#32, 0x0#32, 0x0#32⟩,  -- ADC_STAT
  ⟨0x8, [], 0x0#32, 0x0#32, 0x7FF#32, 0x0#32, 0x0#32⟩,  -- ADC_EVT
  ⟨0xC, [], 0x0#32, 0x7FF#32, 0x0#32, 0x0#32, 0x0#32⟩,  -- ADC_IEN
  ⟨0x10, [], 0x0#32, 0xFFFF001F#32, 0x0#32, 0x0#32, 0x0#32⟩,  -- ADC_SEQ_CTL
  ⟨0x14, [], 0x0#32, 0xFFFFFF#32, 0x0#32, 0x0#32, 0x0#32⟩,  -- ADC_MET_MASK
  ⟨0x18, [], 0x0#32, 0x0#32, 0x0#32, 0x0#32, 0x0#32⟩,  -- ADC_CAL
  ⟨0x1C, [], 0x0#32, 0x0#32, 0x0#32, 0x0#32, 0x0#32⟩,  -- ADC_INJ
  ⟨0x20, [], 0x0#32, 0x31F3F#32, 0x0#32, 0x0#32, 0x0#32⟩,  -- ADC_INJ_TRIG
  ⟨0x24, [], 0x0#32, 0x0#32, 0x0#32, 0x0#32, 0x0#32⟩,  -- ADC_ACC_LATCH
  ⟨0x30, [], 0x0#32, 0x0#32, 0x0#32, 0x0#32, 0xFFFFFFFF#32⟩,  -- ADC_CNT_CUT
  ⟨0x34, [], 0x0#32, 0x0#32, 0x0#32, 0x0#32, 0xFFFFFFFF#32⟩,  -- ADC_CNT_INJREF
  ⟨0x40, [], 0x10100#32, 0xFFFF0F9F#32, 0x0#32, 0x0#32, 0x0#32⟩,  -- ADC_PLAUS
  ⟨0x44, [], 0x3E8#32, 0xFFFF#32, 0x0#32, 0x0#32, 0x0#32⟩,  -- ADC_PLAUS_WIN
  ⟨0x48, [], 0x0#32, 0x0#32, 0x0#32, 0x0#32, 0x0#32⟩,  -- ADC_PLAUS_DIFF
  ⟨0x4C, [], 0x0#32, 0x0#32, 0x0#32, 0x0#32, 0xFFFFFFFF#32⟩,  -- ADC_CNT_PLAUS
  ⟨0x80, [(4, 16)], 0x0#32, 0x0#32, 0x0#32, 0x0#32, 0x0#32⟩,  -- ADC_SLICE_OFS
  ⟨0x84, [(4, 16)], 0x0#32, 0x0#32, 0x0#32, 0x0#32, 0x0#32⟩,  -- ADC_SLICE_GAIN
  ⟨0x88, [(4, 16)], 0x0#32, 0x0#32, 0x0#32, 0x0#32, 0x0#32⟩,  -- ADC_SLICE_SKEW
  ⟨0x100, [(32, 4)], 0x0#32, 0x3FFFF7F#32, 0x0#32, 0x0#32, 0x0#32⟩,  -- ADC_SEQ
  ⟨0x200, [(32, 8)], 0x0#32, 0x0#32, 0x0#32, 0x0#32, 0x0#32⟩,  -- ADC_RES
  ⟨0x204, [(32, 8)], 0x0#32, 0x0#32, 0x0#32, 0x0#32, 0x0#32⟩,  -- ADC_TS
  ⟨0x300, [(4, 8)], 0x0#32, 0x0#32, 0x0#32, 0x0#32, 0x0#32⟩,  -- ADC_INJ_RES
  ⟨0x304, [(4, 8)], 0x0#32, 0x0#32, 0x0#32, 0x0#32, 0x0#32⟩,  -- ADC_INJ_TS
  ⟨0x400, [(32, 16)], 0x0#32, 0x0#32, 0x0#32, 0x0#32, 0x0#32⟩]  -- ADC_ACC_LO

/-- Registers of ADC (09_measurement.md, R325), part 2. -/
def RegMap.adc1 : List RegKind := [
  ⟨0x404, [(32, 16)], 0x0#32, 0x0#32, 0x0#32, 0x0#32, 0x0#32⟩,  -- ADC_ACC_HI
  ⟨0x408, [(32, 16)], 0x0#32, 0x0#32, 0x0#32, 0x0#32, 0x0#32⟩,  -- ADC_ACC_CNT
  ⟨0x40C, [(32, 16)], 0x0#32, 0x0#32, 0x0#32, 0x0#32, 0x0#32⟩]  -- ADC_ACC_MM

/-- Registers of CMP (09_measurement.md, R326). -/
def RegMap.cmp : List RegKind := [
  ⟨0x0, [], 0x1FFFF#32, 0x1FFFF#32, 0x0#32, 0x0#32, 0x0#32⟩,  -- CMP_CTL
  ⟨0x4, [], 0x0#32, 0x0#32, 0x0#32, 0x0#32, 0x0#32⟩,  -- CMP_STAT
  ⟨0x8, [], 0x0#32, 0x0#32, 0xFFFFFFFF#32, 0x0#32, 0x0#32⟩,  -- CMP_EVT
  ⟨0xC, [], 0x0#32, 0x0#32, 0x3#32, 0x0#32, 0x0#32⟩,  -- CMP_ERR
  ⟨0x10, [], 0x0#32, 0xFFFFFFFF#32, 0x0#32, 0x0#32, 0x0#32⟩,  -- CMP_IEN
  ⟨0x14, [], 0x0#32, 0x0#32, 0x0#32, 0x0#32, 0x0#32⟩,  -- CMP_TEST
  ⟨0x20, [(8, 4)], 0x3C00040#32, 0x3FF03FF#32, 0x0#32, 0x0#32, 0x0#32⟩,  -- CMP_TH
  ⟨0x40, [(8, 4)], 0x0#32, 0xFF03#32, 0x0#32, 0x0#32, 0x0#32⟩,  -- CMP_CFG
  ⟨0x60, [(8, 4)], 0x0#32, 0x0#32, 0x0#32, 0x0#32, 0xFFFFFFFF#32⟩,  -- CMP_CNT
  ⟨0x80, [(8, 4)], 0x0#32, 0x0#32, 0x0#32, 0x0#32, 0x0#32⟩]  -- CMP_ST_RES

/-- Registers of TMON (09_measurement.md, R327). -/
def RegMap.tmon : List RegKind := [
  ⟨0x0, [], 0x1#32, 0x1#32, 0x0#32, 0x0#32, 0x0#32⟩,  -- TMON_CTL
  ⟨0x4, [], 0x0#32, 0x0#32, 0x0#32, 0x0#32, 0x0#32⟩,  -- TMON_STAT
  ⟨0x8, [], 0x0#32, 0x0#32, 0x1F#32, 0x0#32, 0x0#32⟩,  -- TMON_EVT
  ⟨0xC, [], 0x0#32, 0x1F#32, 0x0#32, 0x0#32, 0x0#32⟩,  -- TMON_IEN
  ⟨0x10, [], 0x0#32, 0x0#32, 0x0#32, 0x0#32, 0x0#32⟩,  -- TMON_TEMP
  ⟨0x14, [], 0x6E00780#32, 0xFFFFFFFF#32, 0x0#32, 0x0#32, 0x0#32⟩,  -- TMON_LIM
  ⟨0x18, [], 0x140#32, 0xFFFF#32, 0x0#32, 0x0#32, 0x0#32⟩,  -- TMON_RISE
  ⟨0x1C, [], 0x0#32, 0x0#32, 0x0#32, 0x0#32, 0x0#32⟩,  -- TMON_RATE
  ⟨0x20, [], 0x8000#32, 0x0#32, 0x0#32, 0x0#32, 0xFFFF#32⟩]  -- TMON_MAX

/-- Registers of MET (10_metering.md, R368), part 1. -/
def RegMap.met0 : List RegKind := [
  ⟨0x0, [], 0x1#32, 0x7F#32, 0x0#32, 0x0#32, 0x0#32⟩,  -- MET_CTL
  ⟨0x4, [], 0x0#32, 0x0#32, 0x0#32, 0x0#32, 0x0#32⟩,  -- MET_STAT
  ⟨0x8, [], 0x0#32, 0x0#32, 0x1FF#32, 0x0#32, 0x0#32⟩,  -- MET_EVT
  ⟨0xC, [], 0x0#32, 0x1FF#32, 0x0#32, 0x0#32, 0x0#32⟩,  -- MET_IEN
  ⟨0x10, [], 0xBB8#32, 0xFFFF#32, 0x0#32, 0x0#32, 0x0#32⟩,  -- MET_LATCH
  ⟨0x14, [], 0x0#32, 0x0#32, 0x0#32, 0x0#32, 0x0#32⟩,  -- MET_CMD
  ⟨0x18, [], 0x0#32, 0xFFFFFFFF#32, 0x0#32, 0x0#32, 0x0#32⟩,  -- MET_LATCH_AT_LO
  ⟨0x1C, [], 0x0#32, 0xFFFFFFFF#32, 0x0#32, 0x0#32, 0x0#32⟩,  -- MET_LATCH_AT_HI
  ⟨0x20, [], 0x0#32, 0x0#32, 0x0#32, 0x0#32, 0x0#32⟩,  -- MET_FREQ
  ⟨0x24, [], 0x0#32, 0x0#32, 0x0#32, 0x0#32, 0x0#32⟩,  -- MET_LCYC
  ⟨0x28, [], 0x0#32, 0x0#32, 0x0#32, 0x0#32, 0x0#32⟩,  -- MET_UNLOCK
  ⟨0x2C, [], 0x0#32, 0x0#32, 0x0#32, 0x0#32, 0x0#32⟩,  -- MET_WSEQ
  ⟨0x30, [], 0x33323130#32, 0xFFFFFFFF#32, 0x0#32, 0x0#32, 0x0#32⟩,  -- MET_SEL_0
  ⟨0x34, [], 0x37363534#32, 0xFFFFFFFF#32, 0x0#32, 0x0#32, 0x0#32⟩,  -- MET_SEL_1
  ⟨0x38, [], 0x73727170#32, 0xFFFFFFFF#32, 0x0#32, 0x0#32, 0x0#32⟩,  -- MET_SEL_2
  ⟨0x3C, [], 0x77767574#32, 0xFFFFFFFF#32, 0x0#32, 0x0#32, 0x0#32⟩,  -- MET_SEL_3
  ⟨0x40, [], 0x39388180#32, 0xFFFFFFFF#32, 0x0#32, 0x0#32, 0x0#32⟩,  -- MET_SEL_4
  ⟨0x44, [], 0x3F3E7978#32, 0xFFFFFFFF#32, 0x0#32, 0x0#32, 0x0#32⟩,  -- MET_SEL_5
  ⟨0xA0, [(17, 4)], 0x0#32, 0x7F#32, 0x0#32, 0x0#32, 0x0#32⟩,  -- MET_CH
  ⟨0x100, [(17, 16)], 0x0#32, 0xFFFFFFFF#32, 0x0#32, 0x0#32, 0x0#32⟩,  -- MET_K
  ⟨0x104, [(17, 16)], 0x0#32, 0x3FFF#32, 0x0#32, 0x0#32, 0x0#32⟩,  -- MET_DLY
  ⟨0x108, [(17, 16)], 0x0#32, 0xFFFF#32, 0x0#32, 0x0#32, 0x0#32⟩,  -- MET_DCAL_OFS
  ⟨0x10C, [(17, 16)], 0x0#32, 0xFFFFFF#32, 0x0#32, 0x0#32, 0x0#32⟩,  -- MET_DCAL_GAIN
  ⟨0x240, [(3, 4)], 0x0#32, 0x80FFFFFF#32, 0x0#32, 0x0#32, 0x0#32⟩,  -- MET_IN
  ⟨0x800, [(17, 64), (8, 8)], 0x0#32, 0xFFFFFF#32, 0x0#32, 0x0#32, 0x0#32⟩]  -- MET_SEG_G

/-- Registers of MET (10_metering.md, R368), part 2. -/
def RegMap.met1 : List RegKind := [
  ⟨0x804, [(17, 64), (8, 8)], 0x0#32, 0xFFF#32, 0x0#32, 0x0#32, 0x0#32⟩,  -- MET_SEG_P
  ⟨0x1000, [(130, 8)], 0x0#32, 0x0#32, 0x0#32, 0x0#32, 0x0#32⟩,  -- MET_E_LO
  ⟨0x1004, [(130, 8)], 0x0#32, 0x0#32, 0x0#32, 0x0#32, 0x0#32⟩,  -- MET_E_HI
  ⟨0x1800, [(130, 4)], 0x0#32, 0x0#32, 0x0#32, 0x0#32, 0x0#32⟩,  -- MET_I
  ⟨0x1C00, [(130, 4)], 0x0#32, 0x0#32, 0x0#32, 0x0#32, 0x0#32⟩,  -- MET_IW
  ⟨0x2000, [(17, 4)], 0x0#32, 0x0#32, 0x0#32, 0x0#32, 0x0#32⟩,  -- MET_RMS
  ⟨0x2080, [(17, 4)], 0x0#32, 0x0#32, 0x0#32, 0x0#32, 0x0#32⟩,  -- MET_RMSH
  ⟨0x4000, [(17, 256), (63, 4)], 0x0#32, 0x0#32, 0x0#32, 0x0#32, 0x0#32⟩,  -- MET_HARM
  ⟨0x6000, [(64, 4)], 0x0#32, 0x0#32, 0x0#32, 0x0#32, 0x0#32⟩]  -- MET_LAST

/-- Registers of FLC (10_metering.md, R369). -/
def RegMap.flc : List RegKind := [
  ⟨0x0, [], 0x3C01#32, 0xFF01#32, 0x0#32, 0x0#32, 0x0#32⟩,  -- FLC_CTL
  ⟨0x4, [], 0x0#32, 0x0#32, 0x0#32, 0x0#32, 0x0#32⟩,  -- FLC_STAT
  ⟨0x8, [], 0x0#32, 0x0#32, 0x3F#32, 0x0#32, 0x0#32⟩,  -- FLC_EVT
  ⟨0xC, [], 0x0#32, 0x3F#32, 0x0#32, 0x0#32, 0x0#32⟩,  -- FLC_IEN
  ⟨0x10, [], 0x0#32, 0x0#32, 0x0#32, 0x0#32, 0x0#32⟩,  -- FLC_RSEQ
  ⟨0x14, [], 0x0#32, 0x0#32, 0x0#32, 0x0#32, 0x0#32⟩,  -- FLC_RADDR
  ⟨0x18, [], 0x0#32, 0x0#32, 0x0#32, 0x0#32, 0x0#32⟩,  -- FLC_ESEQ
  ⟨0x1C, [], 0x0#32, 0x0#32, 0x0#32, 0x0#32, 0x0#32⟩,  -- FLC_EADDR
  ⟨0x20, [], 0x0#32, 0x0#32, 0x0#32, 0x0#32, 0xFFFFFFFF#32⟩,  -- FLC_CNT_CE
  ⟨0x24, [], 0x0#32, 0x0#32, 0x0#32, 0x0#32, 0x0#32⟩]  -- FLC_FORMAT

/-- Registers of PCNT (10_metering.md, R370). -/
def RegMap.pcnt : List RegKind := [
  ⟨0x0, [], 0x0#32, 0xFFFF#32, 0x0#32, 0x0#32, 0x0#32⟩,  -- PCNT_CTL
  ⟨0x4, [], 0x0#32, 0x0#32, 0x0#32, 0x0#32, 0x0#32⟩,  -- PCNT_STAT
  ⟨0x8, [], 0x0#32, 0x0#32, 0xFFFF#32, 0x0#32, 0x0#32⟩,  -- PCNT_EVT
  ⟨0xC, [], 0x0#32, 0xFFFF#32, 0x0#32, 0x0#32, 0x0#32⟩,  -- PCNT_IEN
  ⟨0x20, [(8, 4)], 0x32#32, 0xFF#32, 0x0#32, 0x0#32, 0x0#32⟩,  -- PCNT_DEB
  ⟨0x40, [(8, 4)], 0x0#32, 0x0#32, 0x0#32, 0x0#32, 0x0#32⟩,  -- PCNT_CNT
  ⟨0x60, [(8, 4)], 0x0#32, 0x0#32, 0x0#32, 0x0#32, 0x0#32⟩]  -- PCNT_PRESET

/-- Registers of POUT (10_metering.md, R370). -/
def RegMap.pout : List RegKind := [
  ⟨0x0, [], 0x0#32, 0xF#32, 0x0#32, 0x0#32, 0x0#32⟩,  -- POUT_CTL
  ⟨0x4, [], 0x0#32, 0x0#32, 0xF#32, 0x0#32, 0x0#32⟩,  -- POUT_EVT
  ⟨0x8, [], 0x0#32, 0xF#32, 0x0#32, 0x0#32, 0x0#32⟩,  -- POUT_IEN
  ⟨0x10, [(4, 4)], 0x500000#32, 0xFF00FF#32, 0x0#32, 0x0#32, 0x0#32⟩,  -- POUT_SRC
  ⟨0x20, [(4, 4)], 0xF4240#32, 0xFFFFFFFF#32, 0x0#32, 0x0#32, 0x0#32⟩,  -- POUT_EPP
  ⟨0x30, [(4, 4)], 0x0#32, 0x0#32, 0x0#32, 0x0#32, 0x0#32⟩,  -- POUT_CNT
  ⟨0x40, [(4, 4)], 0x0#32, 0x0#32, 0x0#32, 0x0#32, 0xFFFFFFFF#32⟩]  -- POUT_LOST

/-- Registers of ETH (14_ports_queues_crc.md, R479). -/
def RegMap.eth : List RegKind := [
  ⟨0x0, [], 0x8#32, 0xF#32, 0x0#32, 0x0#32, 0x0#32⟩,  -- ETH_CTL
  ⟨0x4, [], 0x0#32, 0x0#32, 0x0#32, 0x0#32, 0x0#32⟩,  -- ETH_STAT
  ⟨0x8, [], 0x0#32, 0x0#32, 0xF#32, 0x0#32, 0x0#32⟩,  -- ETH_EVT
  ⟨0xC, [], 0x0#32, 0xF#32, 0x0#32, 0x0#32, 0x0#32⟩,  -- ETH_IEN
  ⟨0x10, [], 0x2400#32, 0x3FFF#32, 0x0#32, 0x0#32, 0x0#32⟩,  -- ETH_MAXLEN
  ⟨0x14, [], 0x0#32, 0xFFFFFFFF#32, 0x0#32, 0x0#32, 0x0#32⟩,  -- ETH_TS_ADJ
  ⟨0x18, [], 0x0#32, 0xFFFFFF#32, 0x0#32, 0x0#32, 0x0#32⟩,  -- ETH_PDELAY
  ⟨0x20, [], 0x0#32, 0x0#32, 0x0#32, 0x0#32, 0x0#32⟩,  -- ETH_TXTS_LO
  ⟨0x24, [], 0x0#32, 0x0#32, 0x0#32, 0x0#32, 0x0#32⟩,  -- ETH_TXTS_HI
  ⟨0x28, [], 0x0#32, 0x0#32, 0x0#32, 0x0#32, 0x0#32⟩,  -- ETH_TXTS_INFO
  ⟨0x40, [(6, 4)], 0x0#32, 0x0#32, 0x0#32, 0x0#32, 0xFFFFFFFF#32⟩]  -- ETH_CNT

/-- Registers of SWITCH (14_ports_queues_crc.md, R480). -/
def RegMap.switch : List RegKind := [
  ⟨0x0, [], 0x11#32, 0x1F#32, 0x0#32, 0x0#32, 0x0#32⟩,  -- SW_CTL
  ⟨0x4, [], 0x0#32, 0x0#32, 0xF#32, 0x0#32, 0x0#32⟩,  -- SW_EVT
  ⟨0x8, [], 0x0#32, 0xF#32, 0x0#32, 0x0#32, 0x0#32⟩,  -- SW_IEN
  ⟨0x10, [], 0x12C#32, 0xFFFF#32, 0x0#32, 0x0#32, 0x0#32⟩,  -- SW_AGE
  ⟨0x14, [], 0x190#32, 0xFFFF#32, 0x0#32, 0x0#32, 0x0#32⟩,  -- SW_PRP
  ⟨0x18, [], 0x800#32, 0x3FFF#32, 0x0#32, 0x0#32, 0x0#32⟩,  -- SW_BUF
  ⟨0x1C, [], 0x0#32, 0xFFFF0FFF#32, 0x0#32, 0x0#32, 0x0#32⟩,  -- SW_MDIO
  ⟨0x20, [(5, 4)], 0x1#32, 0x17FFF#32, 0x0#32, 0x0#32, 0x0#32⟩,  -- SW_PORT
  ⟨0x40, [(8, 4)], 0x0#32, 0xBF#32, 0x0#32, 0x0#32, 0x0#32⟩,  -- SW_RXQ
  ⟨0x60, [], 0x0#32, 0xBF#32, 0x0#32, 0x0#32, 0x0#32⟩,  -- SW_PTPQ
  ⟨0x70, [(5, 4)], 0x0#32, 0x0#32, 0x0#32, 0x0#32, 0xFFFFFFFF#32⟩,  -- SW_CNT
  ⟨0x100, [], 0x803FF001#32, 0x803FFFFF#32, 0x0#32, 0x0#32, 0x0#32⟩,  -- SW_VLAN_0
  ⟨0x104, [(63, 4)], 0x0#32, 0x803FFFFF#32, 0x0#32, 0x0#32, 0x0#32⟩]  -- SW_VLAN

/-- Registers of QM (14_ports_queues_crc.md, R481). -/
def RegMap.qm : List RegKind := [
  ⟨0x0, [], 0x1#32, 0x1#32, 0x0#32, 0x0#32, 0x0#32⟩,  -- QM_CTL
  ⟨0x4, [], 0x2000#32, 0x0#32, 0x0#32, 0x0#32, 0x0#32⟩,  -- QM_STAT
  ⟨0x8, [], 0x0#32, 0x0#32, 0x3F#32, 0x0#32, 0x0#32⟩,  -- QM_EVT
  ⟨0xC, [], 0x0#32, 0x3F#32, 0x0#32, 0x0#32, 0x0#32⟩,  -- QM_IEN
  ⟨0x10, [], 0x0#32, 0x0#32, 0x0#32, 0x0#32, 0xFFFFFFFF#32⟩,  -- QM_CNT_REWIND
  ⟨0x14, [], 0x0#32, 0x0#32, 0x0#32, 0x0#32, 0xFFFFFFFF#32⟩,  -- QM_CNT_REF
  ⟨0x1000, [(64, 32)], 0x0#32, 0xFFFF01FF#32, 0x0#32, 0x0#32, 0x0#32⟩,  -- QM_Q_CFG
  ⟨0x1004, [(64, 32)], 0x80023FC#32, 0x3FFF3FFF#32, 0x0#32, 0x0#32, 0x0#32⟩,  -- QM_Q_LIM
  ⟨0x1008, [(64, 32)], 0x0#32, 0x0#32, 0x0#32, 0x0#32, 0x0#32⟩,  -- QM_Q_STAT
  ⟨0x100C, [(64, 32)], 0x0#32, 0x0#32, 0x0#32, 0x0#32, 0x0#32⟩,  -- QM_Q_USED
  ⟨0x1010, [(64, 32)], 0x0#32, 0x0#32, 0x0#32, 0x0#32, 0x0#32⟩,  -- QM_Q_OPEN
  ⟨0x1014, [(64, 32)], 0x0#32, 0x0#32, 0x0#32, 0x0#32, 0x0#32⟩,  -- QM_Q_PSLOT
  ⟨0x1018, [(64, 32)], 0x0#32, 0x0#32, 0x0#32, 0x0#32, 0x0#32⟩,  -- QM_Q_CMD
  ⟨0x101C, [(64, 32)], 0x0#32, 0x0#32, 0x0#32, 0x0#32, 0xFFFFFFFF#32⟩,  -- QM_Q_CNT
  ⟨0x4000, [(64, 16), (4, 4)], 0x0#32, 0xFFFFFFFF#32, 0x0#32, 0x0#32, 0x0#32⟩,  -- QM_PFX
  ⟨0x8000, [(8192, 4)], 0x0#32, 0x0#32, 0x0#32, 0x0#32, 0x0#32⟩]  -- QM_LINK

/-- Registers of CRC (14_ports_queues_crc.md, R482). -/
def RegMap.crc : List RegKind := [
  ⟨0x0, [], 0x320#32, 0x3F3F#32, 0x0#32, 0x0#32, 0x0#32⟩,  -- CRC_CFG
  ⟨0x4, [], 0x4C11DB7#32, 0xFFFFFFFF#32, 0x0#32, 0x0#32, 0x0#32⟩,  -- CRC_POLY
  ⟨0x8, [], 0xFFFFFFFF#32, 0xFFFFFFFF#32, 0x0#32, 0x0#32, 0x0#32⟩,  -- CRC_INIT
  ⟨0xC, [], 0xFFFFFFFF#32, 0xFFFFFFFF#32, 0x0#32, 0x0#32, 0x0#32⟩,  -- CRC_XOR
  ⟨0x10, [], 0x0#32, 0xFFFFFFFF#32, 0x0#32, 0x0#32, 0x0#32⟩,  -- CRC_FOLD
  ⟨0x14, [], 0x0#32, 0x0#32, 0x0#32, 0x0#32, 0x0#32⟩,  -- CRC_CMD
  ⟨0x18, [], 0xFFFFFFFF#32, 0xFFFFFFFF#32, 0x0#32, 0x0#32, 0x0#32⟩,  -- CRC_VAL
  ⟨0x1C, [], 0x0#32, 0x0#32, 0x0#32, 0x0#32, 0x0#32⟩,  -- CRC_RES
  ⟨0x20, [], 0x0#32, 0x0#32, 0x0#32, 0x0#32, 0x0#32⟩,  -- CRC_DIN8
  ⟨0x24, [], 0x0#32, 0x0#32, 0x0#32, 0x0#32, 0x0#32⟩,  -- CRC_DIN16
  ⟨0x28, [], 0x0#32, 0x0#32, 0x0#32, 0x0#32, 0x0#32⟩,  -- CRC_DIN32
  ⟨0x2C, [], 0x0#32, 0x0#32, 0x0#32, 0x0#32, 0x0#32⟩,  -- CRC_CNT
  ⟨0x30, [], 0x0#32, 0x0#32, 0x2#32, 0x0#32, 0x0#32⟩]  -- CRC_STAT

/-- Registers of SCB (15_supervisor_boot.md, R511). -/
def RegMap.scb : List RegKind := [
  ⟨0x0, [], 0x0#32, 0x1#32, 0x0#32, 0x0#32, 0x0#32⟩,  -- SCB_CTL
  ⟨0x4, [], 0x0#32, 0x0#32, 0x0#32, 0x0#32, 0x0#32⟩,  -- SCB_STAT
  ⟨0x8, [], 0x0#32, 0x20000#32, 0x0#32, 0x0#32, 0x0#32⟩]  -- SCB_DBG

/-- Registers of BOOT (15_supervisor_boot.md, R511). -/
def RegMap.boot : List RegKind := [
  ⟨0x0, [], 0x0#32, 0x0#32, 0x80#32, 0x0#32, 0x0#32⟩,  -- BOOT_STAT
  ⟨0x4, [], 0x0#32, 0x0#32, 0x0#32, 0x0#32, 0x0#32⟩,  -- BOOT_SEQ
  ⟨0x8, [], 0x0#32, 0x0#32, 0x0#32, 0x0#32, 0x0#32⟩,  -- BOOT_TIMG
  ⟨0xC, [], 0x0#32, 0x0#32, 0x0#32, 0x0#32, 0x0#32⟩,  -- BOOT_SVN_MIN
  ⟨0x10, [], 0x0#32, 0x0#32, 0x0#32, 0x0#32, 0x0#32⟩,  -- BOOT_KEYS
  ⟨0x14, [], 0x0#32, 0x0#32, 0x0#32, 0x0#32, 0x0#32⟩,  -- BOOT_FUSE_CMD
  ⟨0x18, [], 0x0#32, 0x0#32, 0x0#32, 0x0#32, 0x0#32⟩,  -- BOOT_DBG
  ⟨0x20, [], 0x0#32, 0x0#32, 0x0#32, 0x0#32, 0x0#32⟩,  -- BOOT_SERIAL_LO
  ⟨0x24, [], 0x0#32, 0x0#32, 0x0#32, 0x0#32, 0x0#32⟩,  -- BOOT_SERIAL_HI
  ⟨0x40, [(4, 32), (8, 4)], 0x0#32, 0x0#32, 0x0#32, 0x0#32, 0x0#32⟩]  -- BOOT_KHASH

/-- Registers of QSPI (15_supervisor_boot.md, R511). -/
def RegMap.qspi : List RegKind := [
  ⟨0x0, [], 0xB#32, 0xF#32, 0x0#32, 0x0#32, 0x0#32⟩,  -- QSPI_CTL
  ⟨0x4, [], 0x3#32, 0xFFFFFF#32, 0x0#32, 0x0#32, 0x0#32⟩,  -- QSPI_RDCFG
  ⟨0x8, [], 0x0#32, 0x0#32, 0x0#32, 0x0#32, 0x0#32⟩,  -- QSPI_STAT
  ⟨0xC, [], 0x0#32, 0x0#32, 0x3#32, 0x0#32, 0x0#32⟩,  -- QSPI_EVT
  ⟨0x10, [], 0x0#32, 0x3#32, 0x0#32, 0x0#32, 0x0#32⟩,  -- QSPI_IEN
  ⟨0x14, [], 0x0#32, 0x0#32, 0x0#32, 0x0#32, 0x0#32⟩,  -- QSPI_CMD
  ⟨0x18, [], 0x0#32, 0xFFFFFFFF#32, 0x0#32, 0x0#32, 0x0#32⟩,  -- QSPI_ADDR
  ⟨0x100, [(64, 4)], 0x0#32, 0xFFFFFFFF#32, 0x0#32, 0x0#32, 0x0#32⟩]  -- QSPI_BUF

/-- Registers of UART (15_supervisor_boot.md, R511). -/
def RegMap.uart : List RegKind := [
  ⟨0x0, [], 0x0#32, 0x7#32, 0x0#32, 0x0#32, 0x0#32⟩,  -- UART_CTL
  ⟨0x4, [], 0xA99#32, 0xFFFF#32, 0x0#32, 0x0#32, 0x0#32⟩,  -- UART_DIV
  ⟨0x8, [], 0x10000#32, 0x0#32, 0x0#32, 0x0#32, 0x0#32⟩,  -- UART_STAT
  ⟨0xC, [], 0x0#32, 0x0#32, 0x1F#32, 0x0#32, 0x0#32⟩,  -- UART_EVT
  ⟨0x10, [], 0x0#32, 0x1F#32, 0x0#32, 0x0#32, 0x0#32⟩,  -- UART_IEN
  ⟨0x14, [], 0x100#32, 0xFF#32, 0x0#32, 0x0#32, 0x0#32⟩]  -- UART_DATA

/-- Registers of GPIO (15_supervisor_boot.md, R511). -/
def RegMap.gpio : List RegKind := [
  ⟨0x0, [], 0x0#32, 0xFFFF#32, 0x0#32, 0x0#32, 0x0#32⟩,  -- GPIO_DIR
  ⟨0x4, [], 0x0#32, 0xFFFF#32, 0x0#32, 0x0#32, 0x0#32⟩,  -- GPIO_OD
  ⟨0x8, [], 0x0#32, 0xFFFF#32, 0x0#32, 0x0#32, 0x0#32⟩,  -- GPIO_OUT
  ⟨0xC, [], 0x0#32, 0x0#32, 0x0#32, 0x0#32, 0x0#32⟩,  -- GPIO_SET
  ⟨0x10, [], 0x0#32, 0x0#32, 0x0#32, 0x0#32, 0x0#32⟩,  -- GPIO_CLR
  ⟨0x14, [], 0x0#32, 0x0#32, 0x0#32, 0x0#32, 0x0#32⟩,  -- GPIO_IN
  ⟨0x18, [], 0x0#32, 0x0#32, 0xFFFFFFFF#32, 0x0#32, 0x0#32⟩,  -- GPIO_EVT
  ⟨0x1C, [], 0x0#32, 0xFFFFFFFF#32, 0x0#32, 0x0#32, 0x0#32⟩]  -- GPIO_IEN

/-- Registers of PMIC (15_supervisor_boot.md, R511). -/
def RegMap.pmic : List RegKind := [
  ⟨0x0, [], 0x0#32, 0x3F#32, 0x0#32, 0x0#32, 0x0#32⟩,  -- PMIC_CTL
  ⟨0x4, [], 0x0#32, 0x0#32, 0x0#32, 0x0#32, 0x0#32⟩,  -- PMIC_STAT
  ⟨0x8, [], 0x0#32, 0x0#32, 0x73F3F#32, 0x0#32, 0x0#32⟩,  -- PMIC_EVT
  ⟨0xC, [], 0x0#32, 0x73F3F#32, 0x0#32, 0x0#32, 0x0#32⟩,  -- PMIC_IEN
  ⟨0x20, [(6, 4)], 0xA0000#32, 0xFF03FF#32, 0x0#32, 0x0#32, 0x0#32⟩,  -- PMIC_RAIL
  ⟨0x40, [], 0x0#32, 0x7#32, 0x0#32, 0x0#32, 0x0#32⟩,  -- PMB_CTL
  ⟨0x44, [], 0x0#32, 0x0#32, 0x0#32, 0x0#32, 0x0#32⟩,  -- PMB_CMD
  ⟨0x48, [], 0x0#32, 0x0#32, 0x0#32, 0x0#32, 0x0#32⟩,  -- PMB_STAT
  ⟨0x60, [(8, 4)], 0x0#32, 0xFFFFFFFF#32, 0x0#32, 0x0#32, 0x0#32⟩]  -- PMB_DATA

/-- Registers of SCRUB (02_address_space.md, R57). -/
def RegMap.scrub : List RegKind := [
  ⟨0x0, [], 0x7F#32, 0x7F#32, 0x0#32, 0x0#32, 0x0#32⟩,  -- SCRUB_CTL
  ⟨0x10, [(7, 4)], 0x258#32, 0xFFFF#32, 0x0#32, 0x0#32, 0x0#32⟩,  -- SCRUB_INTV
  ⟨0x40, [(7, 4)], 0x0#32, 0x0#32, 0x0#32, 0x0#32, 0x0#32⟩,  -- SCRUB_PASS
  ⟨0x60, [(7, 4)], 0x0#32, 0x0#32, 0x0#32, 0x0#32, 0xFFFF#32⟩,  -- SCRUB_CE
  ⟨0x80, [], 0x0#32, 0x0#32, 0x0#32, 0x0#32, 0x0#32⟩,  -- SCRUB_UE_ADDR
  ⟨0x84, [], 0x0#32, 0x0#32, 0x8#32, 0x0#32, 0x0#32⟩,  -- SCRUB_UE_INFO
  ⟨0x90, [], 0x0#32, 0x0#32, 0x0#32, 0x0#32, 0x0#32⟩,  -- SCRUB_BERR_ADDR
  ⟨0x94, [], 0x0#32, 0x0#32, 0x300#32, 0x0#32, 0x0#32⟩,  -- SCRUB_BERR_INFO
  ⟨0x98, [], 0x0#32, 0x0#32, 0x0#32, 0x0#32, 0xFFFF#32⟩]  -- SCRUB_SEAL_CNT

/-- Registers of one twin lane (04_ring_lanes.md, R124). -/
def RegMap.twl : List RegKind := [
  ⟨0x0, [], 0x0#32, 0x3F#32, 0x0#32, 0x0#32, 0x0#32⟩,  -- TWL_CTL
  ⟨0x4, [], 0x0#32, 0x0#32, 0x0#32, 0x0#32, 0x0#32⟩,  -- TWL_STAT
  ⟨0x8, [], 0x0#32, 0x0#32, 0x1FF#32, 0x0#32, 0x0#32⟩,  -- TWL_EVT
  ⟨0xC, [], 0x193#32, 0x19F#32, 0x0#32, 0x0#32, 0x0#32⟩,  -- TWL_FLT_EN
  ⟨0x10, [], 0x0#32, 0x1#32, 0x0#32, 0x0#32, 0x0#32⟩,  -- TWL_SLIP
  ⟨0x20, [], 0x83202#32, 0x1F3F0F#32, 0x0#32, 0x0#32, 0x0#32⟩,  -- TWL_TAPS
  ⟨0x24, [], 0x2403200#32, 0xFFFFF00#32, 0x0#32, 0x0#32, 0x0#32⟩,  -- TWL_TRAIN
  ⟨0x28, [], 0x0#32, 0x0#32, 0x0#32, 0x0#32, 0x0#32⟩,  -- TWL_TRAIN_STAT
  ⟨0x30, [], 0xF14#32, 0x7F3F#32, 0x0#32, 0x0#32, 0x0#32⟩,  -- TWL_EYE_LIM
  ⟨0x34, [], 0x0#32, 0x0#32, 0x0#32, 0x0#32, 0x0#32⟩,  -- TWL_EYE
  ⟨0x38, [], 0x10#32, 0xFFFF#32, 0x0#32, 0x0#32, 0x0#32⟩,  -- TWL_BER
  ⟨0x3C, [], 0x0#32, 0x0#32, 0x0#32, 0x0#32, 0xFFFFFFFF#32⟩,  -- TWL_CNT_HDR
  ⟨0x40, [], 0x0#32, 0x0#32, 0x0#32, 0x0#32, 0xFFFFFFFF#32⟩,  -- TWL_CNT_TYPE
  ⟨0x44, [], 0x0#32, 0x0#32, 0x0#32, 0x0#32, 0xFFFFFFFF#32⟩]  -- TWL_CNT_LOL

/-- A register block of R39: base, instances, stride, size of one instance, power domain, registers. -/
structure RegBlock where
  base   : Nat
  count  : Nat
  stride : Nat
  size   : Nat
  domain : Nat
  kinds  : List RegKind
  deriving DecidableEq, Repr

/-- The register blocks of R39, index 6 to 37; the two twin lanes stand in the first 0x200 bytes of TWIN (R124). -/
def regBlocks : List RegBlock := [
  ⟨0x40000000, 1, 0x10000, 0x10000, 1, RegMap.sys⟩,  -- SYS
  ⟨0x40010000, 1, 0x10000, 0x10000, 1, RegMap.clk⟩,  -- CLK
  ⟨0x40020000, 1, 0x10000, 0x10000, 1, RegMap.time0 ++ RegMap.time1⟩,  -- TIME
  ⟨0x40030000, 1, 0x10000, 0x10000, 0, RegMap.amb⟩,  -- AMB
  ⟨0x40040000, 1, 0x10000, 0x10000, 1, RegMap.fc⟩,  -- FC
  ⟨0x40050000, 1, 0x10000, 0x10000, 1, RegMap.gate⟩,  -- GATE
  ⟨0x40060000, 1, 0x10000, 0x10000, 1, RegMap.safe⟩,  -- SAFE
  ⟨0x40070000, 1, 0x10000, 0x10000, 4, RegMap.atm⟩,  -- ATM
  ⟨0x40080000, 1, 0x10000, 0x10000, 3, RegMap.sort⟩,  -- SORT
  ⟨0x40090000, 1, 0x10000, 0x10000, 3, RegMap.sil⟩,  -- SIL
  ⟨0x400A0000, 8, 0x1000, 0x1000, 3, RegMap.aectl⟩,  -- AECTL
  ⟨0x400B0000, 1, 0x10000, 0x10000, 4, RegMap.cell⟩,  -- CELL
  ⟨0x40100000, 24, 0x10000, 0x10000, 4, RegMap.ring0 ++ RegMap.ring1⟩,  -- RING
  ⟨0x40280000, 1, 0x10000, 0x10000, 4, RegMap.twin⟩,  -- TWIN
  ⟨0x40300000, 2, 0x10000, 0x10000, 6, RegMap.adc0 ++ RegMap.adc1⟩,  -- ADC
  ⟨0x40320000, 1, 0x10000, 0x10000, 1, RegMap.cmp⟩,  -- CMP
  ⟨0x40330000, 1, 0x10000, 0x10000, 1, RegMap.tmon⟩,  -- TMON
  ⟨0x40380000, 1, 0x10000, 0x10000, 7, RegMap.met0 ++ RegMap.met1⟩,  -- MET
  ⟨0x40390000, 1, 0x10000, 0x10000, 7, RegMap.flc⟩,  -- FLC
  ⟨0x403A0000, 1, 0x10000, 0x10000, 7, RegMap.pcnt⟩,  -- PCNT
  ⟨0x403B0000, 1, 0x10000, 0x10000, 7, RegMap.pout⟩,  -- POUT
  ⟨0x40400000, 4, 0x10000, 0x10000, 5, RegMap.eth⟩,  -- ETH
  ⟨0x40440000, 1, 0x10000, 0x10000, 5, RegMap.switch⟩,  -- SWITCH
  ⟨0x40450000, 1, 0x10000, 0x10000, 5, RegMap.qm⟩,  -- QM
  ⟨0x40480000, 4, 0x10000, 0x10000, 2, RegMap.crc⟩,  -- CRC
  ⟨0x40500000, 1, 0x10000, 0x10000, 2, RegMap.scb⟩,  -- SCB
  ⟨0x40510000, 1, 0x10000, 0x10000, 2, RegMap.boot⟩,  -- BOOT
  ⟨0x40520000, 1, 0x10000, 0x10000, 2, RegMap.qspi⟩,  -- QSPI
  ⟨0x40530000, 1, 0x10000, 0x10000, 2, RegMap.uart⟩,  -- UART
  ⟨0x40540000, 1, 0x10000, 0x10000, 2, RegMap.gpio⟩,  -- GPIO
  ⟨0x40550000, 1, 0x10000, 0x10000, 1, RegMap.pmic⟩,  -- PMIC
  ⟨0x40560000, 1, 0x10000, 0x10000, 1, RegMap.scrub⟩]  -- SCRUB

/-- The block instance an address falls in. -/
def findBlock (a : Nat) : Option RegBlock :=
  regBlocks.find? fun b => decide (b.base ≤ a) && decide ((a - b.base) / b.stride < b.count) && decide ((a - b.base) % b.stride < b.size)

/-- The register at a bus address (R42: none where the offset holds no register). -/
def findReg (a : Nat) : Option RegKind :=
  match findBlock a with
  | none => none
  | some b =>
    let o := (a - b.base) % b.stride
    if b.base == 0x40280000 && decide (o < 0x200) then RegMap.twl.find? (fun k => k.off == o % 0x100)
    else b.kinds.find? (·.at o)

/-- The reset value of the register at an address; 0 where none stands (R6, R42). -/
def regReset (a : Nat) : Word := ((findReg a).map (·.reset)).getD 0

/-! Addresses. -/

abbrev Reg.SYS_STAGE : Nat := 0x40000000
abbrev Reg.SYS_READY : Nat := 0x40000004
abbrev Reg.SYS_READY_EVT : Nat := 0x40000008
abbrev Reg.SYS_READY_IEN : Nat := 0x4000000C
abbrev Reg.SYS_CTL : Nat := 0x40000010
abbrev Reg.SYS_PWR_CTL : Nat := 0x40000020
abbrev Reg.SYS_PWR_STAT : Nat := 0x40000024
abbrev Reg.SYS_PWR_ERR : Nat := 0x40000028
abbrev Reg.SYS_RST_CTL : Nat := 0x40000030
abbrev Reg.SYS_RST_CAUSE : Nat := 0x40000034
abbrev Reg.SYS_SUPMON : Nat := 0x40000040
abbrev Reg.SYS_BOOT : Nat := 0x40000050
abbrev Reg.SYS_SUPV_CAUSE : Nat := 0x40000054
abbrev Reg.CLK_CTL : Nat := 0x40010000
abbrev Reg.CLK_STAT : Nat := 0x40010004
abbrev Reg.CLK_EVT : Nat := 0x40010008
abbrev Reg.CLK_IEN : Nat := 0x4001000C
abbrev Reg.CLK_SYN0 : Nat := 0x40010010
abbrev Reg.CLK_TRIM : Nat := 0x40010014
abbrev Reg.CLK_RELOCK : Nat := 0x40010018
abbrev Reg.CLK_CNT_UNLOCK : Nat := 0x4001001C
abbrev Reg.CLK_BAND (i : Nat) : Nat := 0x40010000 + 0x4 * i + 0x80
abbrev Reg.TIME_CTL : Nat := 0x40020000
abbrev Reg.TIME_STATUS : Nat := 0x40020004
abbrev Reg.TIME_EVT : Nat := 0x40020008
abbrev Reg.TIME_IEN : Nat := 0x4002000C
abbrev Reg.TIME_NOW_LO : Nat := 0x40020010
abbrev Reg.TIME_NOW_HI : Nat := 0x40020014
abbrev Reg.TIME_NOW_FRAC : Nat := 0x40020018
abbrev Reg.TIME_PERIOD : Nat := 0x40020020
abbrev Reg.TIME_ANCHOR : Nat := 0x40020024
abbrev Reg.TIME_PHASES : Nat := 0x40020028
abbrev Reg.TIME_PNUM : Nat := 0x4002002C
abbrev Reg.TIME_RATE : Nat := 0x40020030
abbrev Reg.TIME_SLEW : Nat := 0x40020034
abbrev Reg.TIME_STEP_LO : Nat := 0x40020040
abbrev Reg.TIME_STEP_HI : Nat := 0x40020044
abbrev Reg.TIME_CMD : Nat := 0x40020048
abbrev Reg.TIME_PPS_CTL : Nat := 0x40020050
abbrev Reg.TIME_PPS_OFS : Nat := 0x40020054
abbrev Reg.TIME_PPS_INOFS : Nat := 0x40020058
abbrev Reg.TIME_PPSIN_LO : Nat := 0x40020060
abbrev Reg.TIME_PPSIN_HI : Nat := 0x40020064
abbrev Reg.TIME_PPSIN_ERR : Nat := 0x40020068
abbrev Reg.SRV_CTL (i : Nat) : Nat := 0x40020000 + 0x40 * i + 0x100
abbrev Reg.SRV_GAIN (i : Nat) : Nat := 0x40020000 + 0x40 * i + 0x104
abbrev Reg.SRV_OUTL (i : Nat) : Nat := 0x40020000 + 0x40 * i + 0x108
abbrev Reg.SRV_SMP_LO (i : Nat) : Nat := 0x40020000 + 0x40 * i + 0x110
abbrev Reg.SRV_SMP_HI (i : Nat) : Nat := 0x40020000 + 0x40 * i + 0x114
abbrev Reg.SRV_STAT (i : Nat) : Nat := 0x40020000 + 0x40 * i + 0x118
abbrev Reg.SRV_OFS (i : Nat) : Nat := 0x40020000 + 0x40 * i + 0x11C
abbrev Reg.SRV_FREQ (i : Nat) : Nat := 0x40020000 + 0x40 * i + 0x120
abbrev Reg.SRV_CNT_REJ (i : Nat) : Nat := 0x40020000 + 0x40 * i + 0x124
abbrev Reg.AMB_STATUS : Nat := 0x40030000
abbrev Reg.AMB_CTL : Nat := 0x40030004
abbrev Reg.AMB_TRIM : Nat := 0x40030008
abbrev Reg.AMB_HOLD_LO : Nat := 0x40030010
abbrev Reg.AMB_HOLD_HI : Nat := 0x40030014
abbrev Reg.AMB_OFF_LO : Nat := 0x40030018
abbrev Reg.AMB_OFF_HI : Nat := 0x4003001C
abbrev Reg.AMB_RSTK_LO : Nat := 0x40030020
abbrev Reg.AMB_RSTK_HI : Nat := 0x40030024
abbrev Reg.AMB_RSTK_CNT : Nat := 0x40030028
abbrev Reg.AMB_LAST_RST : Nat := 0x4003002C
abbrev Reg.AMB_SCRATCH (i : Nat) : Nat := 0x40030000 + 0x4 * i + 0x40
abbrev Reg.AMB_MIRROR (i j : Nat) : Nat := 0x40030000 + 0x80 * i + 0x4 * j + 0x100
abbrev Reg.AMB_BW_CTL : Nat := 0x40030200
abbrev Reg.AMB_BW_STAT : Nat := 0x40030204
abbrev Reg.AMB_BW_TH : Nat := 0x40030208
abbrev Reg.AMB_BW_K (i : Nat) : Nat := 0x40030000 + 0x4 * i + 0x210
abbrev Reg.AMB_BW_AH (i : Nat) : Nat := 0x40030000 + 0x4 * i + 0x220
abbrev Reg.AMB_BW_EV (i j : Nat) : Nat := 0x40030000 + 0x10 * i + 0x4 * j + 0x240
abbrev Reg.FC_CTL : Nat := 0x40040000
abbrev Reg.FC_STAT : Nat := 0x40040004
abbrev Reg.FC_EVT : Nat := 0x40040008
abbrev Reg.FC_IEN : Nat := 0x4004000C
abbrev Reg.FC_ERRN : Nat := 0x40040010
abbrev Reg.FC_CMD : Nat := 0x40040014
abbrev Reg.FC_SOFT : Nat := 0x40040018
abbrev Reg.FC_CNT_CLRREF : Nat := 0x40040020
abbrev Reg.FC_CNT_REPEAT : Nat := 0x40040024
abbrev Reg.FC_ACTIVE (i : Nat) : Nat := 0x40040000 + 0x4 * i + 0x40
abbrev Reg.FC_PEND (i : Nat) : Nat := 0x40040000 + 0x4 * i + 0x50
abbrev Reg.FC_EN (i : Nat) : Nat := 0x40040000 + 0x4 * i + 0x60
abbrev Reg.FC_EN_2 : Nat := 0x40040068
abbrev Reg.FC_EN_3 : Nat := 0x4004006C
abbrev Reg.FC_PCLS (i : Nat) : Nat := 0x40040000 + 0x4 * i + 0x80
abbrev Reg.FC_CLASS_0 : Nat := 0x40040100
abbrev Reg.FC_CLASS_1 : Nat := 0x40040104
abbrev Reg.FC_CLASS_2 : Nat := 0x40040108
abbrev Reg.FC_CLASS_3 : Nat := 0x4004010C
abbrev Reg.FC_CLASS_4 : Nat := 0x40040110
abbrev Reg.FC_CLASS_5 : Nat := 0x40040114
abbrev Reg.FC_CLASS_6 : Nat := 0x40040118
abbrev Reg.FC_CLASS_7 : Nat := 0x4004011C
abbrev Reg.FC_LOG (i j : Nat) : Nat := 0x40040000 + 0x20 * i + 0x4 * j + 0x1000
abbrev Reg.GATE_CTL : Nat := 0x40050000
abbrev Reg.GATE_STAT : Nat := 0x40050004
abbrev Reg.GATE_EVT : Nat := 0x40050008
abbrev Reg.GATE_IEN : Nat := 0x4005000C
abbrev Reg.GATE_PINS : Nat := 0x40050010
abbrev Reg.GATE_DT (i : Nat) : Nat := 0x40050000 + 0x4 * i + 0x20
abbrev Reg.GATE_MODE (i : Nat) : Nat := 0x40050000 + 0x4 * i + 0x40
abbrev Reg.GATE_CUT_0 : Nat := 0x40050060
abbrev Reg.GATE_CUT_1 : Nat := 0x40050064
abbrev Reg.GATE_CUT_2 : Nat := 0x40050068
abbrev Reg.GATE_CUT_3 : Nat := 0x4005006C
abbrev Reg.GATE_CUT_4 : Nat := 0x40050070
abbrev Reg.GATE_CUT_5 : Nat := 0x40050074
abbrev Reg.GATE_CUT_6 : Nat := 0x40050078
abbrev Reg.GATE_CUT_7 : Nat := 0x4005007C
abbrev Reg.GATE_CNT_CUT (i : Nat) : Nat := 0x40050000 + 0x4 * i + 0x80
abbrev Reg.GATE_CAL : Nat := 0x400500A0
abbrev Reg.GATE_SUP_CTL : Nat := 0x40050400
abbrev Reg.GATE_SUP_STAT : Nat := 0x40050404
abbrev Reg.GATE_SUP_EVT : Nat := 0x40050408
abbrev Reg.GATE_SUP_IEN : Nat := 0x4005040C
abbrev Reg.GATE_SUP_CELL : Nat := 0x40050410
abbrev Reg.GATE_SUP_CH (i : Nat) : Nat := 0x40050000 + 0x4 * i + 0x440
abbrev Reg.GATE_SUP_CNT (i : Nat) : Nat := 0x40050000 + 0x4 * i + 0x480
abbrev Reg.SAFE_STAT : Nat := 0x40060000
abbrev Reg.SAFE_EVT : Nat := 0x40060004
abbrev Reg.SAFE_IEN : Nat := 0x40060008
abbrev Reg.SAFE_DIAG : Nat := 0x4006000C
abbrev Reg.SAFE_OUT_REQ : Nat := 0x40060010
abbrev Reg.SAFE_KEY : Nat := 0x40060014
abbrev Reg.SAFE_TP : Nat := 0x40060018
abbrev Reg.SAFE_OUT (i : Nat) : Nat := 0x40060000 + 0x4 * i + 0x20
abbrev Reg.SAFE_PAIR (i : Nat) : Nat := 0x40060000 + 0x4 * i + 0x40
abbrev Reg.SAFE_CNT_RST : Nat := 0x40060050
abbrev Reg.SAFE_CNT_SKIP : Nat := 0x40060054
abbrev Reg.ATM_CTL : Nat := 0x40070000
abbrev Reg.ATM_STAT : Nat := 0x40070004
abbrev Reg.ATM_EVT : Nat := 0x40070008
abbrev Reg.ATM_IEN : Nat := 0x4007000C
abbrev Reg.ATM_SYNC_OUT : Nat := 0x40070010
abbrev Reg.ATM_SYNC_IN : Nat := 0x40070014
abbrev Reg.ATM_SYNC_OFS : Nat := 0x40070018
abbrev Reg.ATM_SYNC_ERR : Nat := 0x4007001C
abbrev Reg.ATM_CNT_BADEV : Nat := 0x40070020
abbrev Reg.ATM_CNT_OVF : Nat := 0x40070024
abbrev Reg.ATM_CNT_TIE : Nat := 0x40070028
abbrev Reg.ATM_CNT_SYNC : Nat := 0x4007002C
abbrev Reg.ATM_CSEQ : Nat := 0x40070030
abbrev Reg.ATM_CL_CTL (i : Nat) : Nat := 0x40070000 + 0x20 * i + 0x100
abbrev Reg.ATM_CL_CPER (i : Nat) : Nat := 0x40070000 + 0x20 * i + 0x104
abbrev Reg.ATM_CL_ANCH (i : Nat) : Nat := 0x40070000 + 0x20 * i + 0x108
abbrev Reg.ATM_CL_ANCH_ACT (i : Nat) : Nat := 0x40070000 + 0x20 * i + 0x10C
abbrev Reg.ATM_CL_MINP (i : Nat) : Nat := 0x40070000 + 0x20 * i + 0x110
abbrev Reg.ATM_CELL (i : Nat) : Nat := 0x40070000 + 0x4 * i + 0x200
abbrev Reg.ATM_LL (i : Nat) : Nat := 0x40070000 + 0x4 * i + 0x480
abbrev Reg.ATM_REC (i j : Nat) : Nat := 0x40070000 + 0x10 * i + 0x4 * j + 0x8000
abbrev Reg.ATM_LEV (i j : Nat) : Nat := 0x40070000 + 0x40 * i + 0x4 * j + 0x9000
abbrev Reg.SORT_CTL : Nat := 0x40080000
abbrev Reg.SORT_EVT : Nat := 0x40080004
abbrev Reg.SORT_CNT (i : Nat) : Nat := 0x40080000 + 0x4 * i + 0x10
abbrev Reg.SORT_WCTL (i j : Nat) : Nat := 0x40080000 + 0x40 * i + 0x8 * j + 0x100
abbrev Reg.SORT_WRNG (i j : Nat) : Nat := 0x40080000 + 0x40 * i + 0x8 * j + 0x104
abbrev Reg.SORT_RANK (i j : Nat) : Nat := 0x40080000 + 0x100 * i + 0x4 * j + 0x200
abbrev Reg.SIL_EVT : Nat := 0x40090000
abbrev Reg.SIL_IEN : Nat := 0x40090004
abbrev Reg.SIL_CTL (i : Nat) : Nat := 0x40090000 + 0x40 * i + 0x100
abbrev Reg.SIL_TRIG (i : Nat) : Nat := 0x40090000 + 0x40 * i + 0x104
abbrev Reg.SIL_TH (i : Nat) : Nat := 0x40090000 + 0x40 * i + 0x108
abbrev Reg.SIL_PRE (i : Nat) : Nat := 0x40090000 + 0x40 * i + 0x10C
abbrev Reg.SIL_CMD (i : Nat) : Nat := 0x40090000 + 0x40 * i + 0x110
abbrev Reg.SIL_STAT (i : Nat) : Nat := 0x40090000 + 0x40 * i + 0x114
abbrev Reg.SIL_TIDX (i : Nat) : Nat := 0x40090000 + 0x40 * i + 0x118
abbrev Reg.SIL_TPER (i : Nat) : Nat := 0x40090000 + 0x40 * i + 0x11C
abbrev Reg.SIL_TCYC (i : Nat) : Nat := 0x40090000 + 0x40 * i + 0x120
abbrev Reg.SIL_STREAM (i : Nat) : Nat := 0x40090000 + 0x40 * i + 0x124
abbrev Reg.SIL_CNT_LOST (i : Nat) : Nat := 0x40090000 + 0x40 * i + 0x128
abbrev Reg.AECTL_CTL (n : Nat) : Nat := 0x400A0000 + 0x1000 * n
abbrev Reg.AECTL_STAT (n : Nat) : Nat := 0x400A0000 + 0x1000 * n + 0x4
abbrev Reg.AECTL_EVT (n : Nat) : Nat := 0x400A0000 + 0x1000 * n + 0x8
abbrev Reg.AECTL_IEN (n : Nat) : Nat := 0x400A0000 + 0x1000 * n + 0xC
abbrev Reg.AECTL_SWAP_AT (n : Nat) : Nat := 0x400A0000 + 0x1000 * n + 0x10
abbrev Reg.AECTL_SWAP (n : Nat) : Nat := 0x400A0000 + 0x1000 * n + 0x14
abbrev Reg.AECTL_TICK (n : Nat) : Nat := 0x400A0000 + 0x1000 * n + 0x20
abbrev Reg.AECTL_TICK_AT (n : Nat) : Nat := 0x400A0000 + 0x1000 * n + 0x24
abbrev Reg.AECTL_TICK_LAST (n : Nat) : Nat := 0x400A0000 + 0x1000 * n + 0x28
abbrev Reg.AECTL_LUT_MAP (n : Nat) : Nat := 0x400A0000 + 0x1000 * n + 0x30
abbrev Reg.AECTL_BIQ_LOAD (n : Nat) : Nat := 0x400A0000 + 0x1000 * n + 0x34
abbrev Reg.AECTL_BIQ_ZCLR (n : Nat) : Nat := 0x400A0000 + 0x1000 * n + 0x38
abbrev Reg.AECTL_BLEND (n i : Nat) : Nat := 0x400A0000 + 0x1000 * n + 0x8 * i + 0x40
abbrev Reg.AECTL_BLEND_AT (n i : Nat) : Nat := 0x400A0000 + 0x1000 * n + 0x8 * i + 0x44
abbrev Reg.AECTL_BUDGET (n : Nat) : Nat := 0x400A0000 + 0x1000 * n + 0x80
abbrev Reg.AECTL_OUTLIM (n : Nat) : Nat := 0x400A0000 + 0x1000 * n + 0x84
abbrev Reg.AECTL_CYC (n : Nat) : Nat := 0x400A0000 + 0x1000 * n + 0x88
abbrev Reg.AECTL_OUT_LAST (n : Nat) : Nat := 0x400A0000 + 0x1000 * n + 0x8C
abbrev Reg.AECTL_OVR (n : Nat) : Nat := 0x400A0000 + 0x1000 * n + 0x90
abbrev Reg.AECTL_OVR_PER (n : Nat) : Nat := 0x400A0000 + 0x1000 * n + 0x94
abbrev Reg.AECTL_CNT_OVR (n : Nat) : Nat := 0x400A0000 + 0x1000 * n + 0x98
abbrev Reg.AECTL_CNT_LATE (n : Nat) : Nat := 0x400A0000 + 0x1000 * n + 0x9C
abbrev Reg.AECTL_MBOX (n i : Nat) : Nat := 0x400A0000 + 0x1000 * n + 0x4 * i + 0x400
abbrev Reg.CELL_CTL : Nat := 0x400B0000
abbrev Reg.CELL_ERR : Nat := 0x400B0004
abbrev Reg.CELL_EVT (i : Nat) : Nat := 0x400B0000 + 0x4 * i + 0x10
abbrev Reg.CELL_EVT_4 : Nat := 0x400B0020
abbrev Reg.CELL_IEN (i : Nat) : Nat := 0x400B0000 + 0x4 * i + 0x30
abbrev Reg.CELL_IEN_4 : Nat := 0x400B0040
abbrev Reg.CELL_MAP (i : Nat) : Nat := 0x400B0000 + 0x10 * i + 0x1000
abbrev Reg.CELL_REQ (i : Nat) : Nat := 0x400B0000 + 0x10 * i + 0x1004
abbrev Reg.CELL_STAT (i : Nat) : Nat := 0x400B0000 + 0x10 * i + 0x1008
abbrev Reg.CELL_SEEN (i : Nat) : Nat := 0x400B0000 + 0x10 * i + 0x100C
abbrev Reg.CELL_DESC (i j : Nat) : Nat := 0x400B0000 + 0x40 * i + 0x4 * j + 0x2000
abbrev Reg.RING_CTL (n : Nat) : Nat := 0x40100000 + 0x10000 * n
abbrev Reg.RING_STAT (n : Nat) : Nat := 0x40100000 + 0x10000 * n + 0x4
abbrev Reg.RING_EVT (n : Nat) : Nat := 0x40100000 + 0x10000 * n + 0x8
abbrev Reg.RING_FLT_EN (n : Nat) : Nat := 0x40100000 + 0x10000 * n + 0xC
abbrev Reg.RING_SLIP (n : Nat) : Nat := 0x40100000 + 0x10000 * n + 0x10
abbrev Reg.RING_TAPS (n : Nat) : Nat := 0x40100000 + 0x10000 * n + 0x20
abbrev Reg.RING_TRAIN (n : Nat) : Nat := 0x40100000 + 0x10000 * n + 0x24
abbrev Reg.RING_TRAIN_STAT (n : Nat) : Nat := 0x40100000 + 0x10000 * n + 0x28
abbrev Reg.RING_EYE_LIM (n : Nat) : Nat := 0x40100000 + 0x10000 * n + 0x30
abbrev Reg.RING_EYE (n : Nat) : Nat := 0x40100000 + 0x10000 * n + 0x34
abbrev Reg.RING_BER (n : Nat) : Nat := 0x40100000 + 0x10000 * n + 0x38
abbrev Reg.RING_CNT_HDR (n : Nat) : Nat := 0x40100000 + 0x10000 * n + 0x3C
abbrev Reg.RING_CNT_TYPE (n : Nat) : Nat := 0x40100000 + 0x10000 * n + 0x40
abbrev Reg.RING_CNT_LOL (n : Nat) : Nat := 0x40100000 + 0x10000 * n + 0x44
abbrev Reg.RING_LINK_CTL (n : Nat) : Nat := 0x40100000 + 0x10000 * n + 0x100
abbrev Reg.RING_LINK_STAT (n : Nat) : Nat := 0x40100000 + 0x10000 * n + 0x104
abbrev Reg.RING_LINK_EVT (n : Nat) : Nat := 0x40100000 + 0x10000 * n + 0x108
abbrev Reg.RING_LINK_IEN (n : Nat) : Nat := 0x40100000 + 0x10000 * n + 0x10C
abbrev Reg.RING_CAL (n : Nat) : Nat := 0x40100000 + 0x10000 * n + 0x110
abbrev Reg.RING_HR (n : Nat) : Nat := 0x40100000 + 0x10000 * n + 0x114
abbrev Reg.RING_SLACK_C (n : Nat) : Nat := 0x40100000 + 0x10000 * n + 0x118
abbrev Reg.RING_SLACK_M (n : Nat) : Nat := 0x40100000 + 0x10000 * n + 0x11C
abbrev Reg.RING_SLACK_W (n : Nat) : Nat := 0x40100000 + 0x10000 * n + 0x120
abbrev Reg.RING_REPOLL (n : Nat) : Nat := 0x40100000 + 0x10000 * n + 0x124
abbrev Reg.RING_SVC (n : Nat) : Nat := 0x40100000 + 0x10000 * n + 0x128
abbrev Reg.RING_TRIP (n : Nat) : Nat := 0x40100000 + 0x10000 * n + 0x12C
abbrev Reg.RING_REC_EARLY (n : Nat) : Nat := 0x40100000 + 0x10000 * n + 0x130
abbrev Reg.RING_OFS (n i : Nat) : Nat := 0x40100000 + 0x10000 * n + 0x4 * i + 0x140
abbrev Reg.RING_CNT_LATE (n : Nat) : Nat := 0x40100000 + 0x10000 * n + 0x180
abbrev Reg.RING_CNT_RCRC (n : Nat) : Nat := 0x40100000 + 0x10000 * n + 0x184
abbrev Reg.RING_CNT_FCRC (n : Nat) : Nat := 0x40100000 + 0x10000 * n + 0x188
abbrev Reg.RING_CNT_RLEN (n : Nat) : Nat := 0x40100000 + 0x10000 * n + 0x18C
abbrev Reg.RING_CNT_MISM (n : Nat) : Nat := 0x40100000 + 0x10000 * n + 0x190
abbrev Reg.RING_CNT_RPSENT (n : Nat) : Nat := 0x40100000 + 0x10000 * n + 0x194
abbrev Reg.RING_CNT_RPOK (n : Nat) : Nat := 0x40100000 + 0x10000 * n + 0x198
abbrev Reg.RING_CNT_MISS (n : Nat) : Nat := 0x40100000 + 0x10000 * n + 0x19C
abbrev Reg.RING_CNT_SVC (n : Nat) : Nat := 0x40100000 + 0x10000 * n + 0x1A0
abbrev Reg.RING_CNT_TRIP (n : Nat) : Nat := 0x40100000 + 0x10000 * n + 0x1A4
abbrev Reg.TWL_CTL (n : Nat) : Nat := 0x40280000 + 0x100 * n
abbrev Reg.TWL_STAT (n : Nat) : Nat := 0x40280000 + 0x100 * n + 0x4
abbrev Reg.TWL_EVT (n : Nat) : Nat := 0x40280000 + 0x100 * n + 0x8
abbrev Reg.TWL_FLT_EN (n : Nat) : Nat := 0x40280000 + 0x100 * n + 0xC
abbrev Reg.TWL_SLIP (n : Nat) : Nat := 0x40280000 + 0x100 * n + 0x10
abbrev Reg.TWL_TAPS (n : Nat) : Nat := 0x40280000 + 0x100 * n + 0x20
abbrev Reg.TWL_TRAIN (n : Nat) : Nat := 0x40280000 + 0x100 * n + 0x24
abbrev Reg.TWL_TRAIN_STAT (n : Nat) : Nat := 0x40280000 + 0x100 * n + 0x28
abbrev Reg.TWL_EYE_LIM (n : Nat) : Nat := 0x40280000 + 0x100 * n + 0x30
abbrev Reg.TWL_EYE (n : Nat) : Nat := 0x40280000 + 0x100 * n + 0x34
abbrev Reg.TWL_BER (n : Nat) : Nat := 0x40280000 + 0x100 * n + 0x38
abbrev Reg.TWL_CNT_HDR (n : Nat) : Nat := 0x40280000 + 0x100 * n + 0x3C
abbrev Reg.TWL_CNT_TYPE (n : Nat) : Nat := 0x40280000 + 0x100 * n + 0x40
abbrev Reg.TWL_CNT_LOL (n : Nat) : Nat := 0x40280000 + 0x100 * n + 0x44
abbrev Reg.TWIN_CTL : Nat := 0x40280200
abbrev Reg.TWIN_STAT : Nat := 0x40280204
abbrev Reg.TWIN_EVT : Nat := 0x40280208
abbrev Reg.TWIN_IEN : Nat := 0x4028020C
abbrev Reg.TWIN_CMD : Nat := 0x40280210
abbrev Reg.TWIN_SWAP_AT : Nat := 0x40280214
abbrev Reg.TWIN_HOLD : Nat := 0x40280218
abbrev Reg.TWIN_LIVE : Nat := 0x4028021C
abbrev Reg.TWIN_TL : Nat := 0x40280220
abbrev Reg.TWIN_CHK : Nat := 0x40280224
abbrev Reg.TWIN_LOAD : Nat := 0x40280228
abbrev Reg.TWIN_CTX (i : Nat) : Nat := 0x40280000 + 0x4 * i + 0x240
abbrev Reg.TWIN_CNT_DIV : Nat := 0x40280280
abbrev Reg.TWIN_CNT_VOID : Nat := 0x40280284
abbrev Reg.TWIN_CNT_TAKE : Nat := 0x40280288
abbrev Reg.ADC_CTL (n : Nat) : Nat := 0x40300000 + 0x10000 * n
abbrev Reg.ADC_STAT (n : Nat) : Nat := 0x40300000 + 0x10000 * n + 0x4
abbrev Reg.ADC_EVT (n : Nat) : Nat := 0x40300000 + 0x10000 * n + 0x8
abbrev Reg.ADC_IEN (n : Nat) : Nat := 0x40300000 + 0x10000 * n + 0xC
abbrev Reg.ADC_SEQ_CTL (n : Nat) : Nat := 0x40300000 + 0x10000 * n + 0x10
abbrev Reg.ADC_MET_MASK (n : Nat) : Nat := 0x40300000 + 0x10000 * n + 0x14
abbrev Reg.ADC_CAL (n : Nat) : Nat := 0x40300000 + 0x10000 * n + 0x18
abbrev Reg.ADC_INJ (n : Nat) : Nat := 0x40300000 + 0x10000 * n + 0x1C
abbrev Reg.ADC_INJ_TRIG (n : Nat) : Nat := 0x40300000 + 0x10000 * n + 0x20
abbrev Reg.ADC_ACC_LATCH (n : Nat) : Nat := 0x40300000 + 0x10000 * n + 0x24
abbrev Reg.ADC_CNT_CUT (n : Nat) : Nat := 0x40300000 + 0x10000 * n + 0x30
abbrev Reg.ADC_CNT_INJREF (n : Nat) : Nat := 0x40300000 + 0x10000 * n + 0x34
abbrev Reg.ADC_PLAUS (n : Nat) : Nat := 0x40300000 + 0x10000 * n + 0x40
abbrev Reg.ADC_PLAUS_WIN (n : Nat) : Nat := 0x40300000 + 0x10000 * n + 0x44
abbrev Reg.ADC_PLAUS_DIFF (n : Nat) : Nat := 0x40300000 + 0x10000 * n + 0x48
abbrev Reg.ADC_CNT_PLAUS (n : Nat) : Nat := 0x40300000 + 0x10000 * n + 0x4C
abbrev Reg.ADC_SLICE_OFS (n i : Nat) : Nat := 0x40300000 + 0x10000 * n + 0x10 * i + 0x80
abbrev Reg.ADC_SLICE_GAIN (n i : Nat) : Nat := 0x40300000 + 0x10000 * n + 0x10 * i + 0x84
abbrev Reg.ADC_SLICE_SKEW (n i : Nat) : Nat := 0x40300000 + 0x10000 * n + 0x10 * i + 0x88
abbrev Reg.ADC_SEQ (n i : Nat) : Nat := 0x40300000 + 0x10000 * n + 0x4 * i + 0x100
abbrev Reg.ADC_RES (n i : Nat) : Nat := 0x40300000 + 0x10000 * n + 0x8 * i + 0x200
abbrev Reg.ADC_TS (n i : Nat) : Nat := 0x40300000 + 0x10000 * n + 0x8 * i + 0x204
abbrev Reg.ADC_INJ_RES (n i : Nat) : Nat := 0x40300000 + 0x10000 * n + 0x8 * i + 0x300
abbrev Reg.ADC_INJ_TS (n i : Nat) : Nat := 0x40300000 + 0x10000 * n + 0x8 * i + 0x304
abbrev Reg.ADC_ACC_LO (n i : Nat) : Nat := 0x40300000 + 0x10000 * n + 0x10 * i + 0x400
abbrev Reg.ADC_ACC_HI (n i : Nat) : Nat := 0x40300000 + 0x10000 * n + 0x10 * i + 0x404
abbrev Reg.ADC_ACC_CNT (n i : Nat) : Nat := 0x40300000 + 0x10000 * n + 0x10 * i + 0x408
abbrev Reg.ADC_ACC_MM (n i : Nat) : Nat := 0x40300000 + 0x10000 * n + 0x10 * i + 0x40C
abbrev Reg.CMP_CTL : Nat := 0x40320000
abbrev Reg.CMP_STAT : Nat := 0x40320004
abbrev Reg.CMP_EVT : Nat := 0x40320008
abbrev Reg.CMP_ERR : Nat := 0x4032000C
abbrev Reg.CMP_IEN : Nat := 0x40320010
abbrev Reg.CMP_TEST : Nat := 0x40320014
abbrev Reg.CMP_TH (i : Nat) : Nat := 0x40320000 + 0x4 * i + 0x20
abbrev Reg.CMP_CFG (i : Nat) : Nat := 0x40320000 + 0x4 * i + 0x40
abbrev Reg.CMP_CNT (i : Nat) : Nat := 0x40320000 + 0x4 * i + 0x60
abbrev Reg.CMP_ST_RES (i : Nat) : Nat := 0x40320000 + 0x4 * i + 0x80
abbrev Reg.TMON_CTL : Nat := 0x40330000
abbrev Reg.TMON_STAT : Nat := 0x40330004
abbrev Reg.TMON_EVT : Nat := 0x40330008
abbrev Reg.TMON_IEN : Nat := 0x4033000C
abbrev Reg.TMON_TEMP : Nat := 0x40330010
abbrev Reg.TMON_LIM : Nat := 0x40330014
abbrev Reg.TMON_RISE : Nat := 0x40330018
abbrev Reg.TMON_RATE : Nat := 0x4033001C
abbrev Reg.TMON_MAX : Nat := 0x40330020
abbrev Reg.MET_CTL : Nat := 0x40380000
abbrev Reg.MET_STAT : Nat := 0x40380004
abbrev Reg.MET_EVT : Nat := 0x40380008
abbrev Reg.MET_IEN : Nat := 0x4038000C
abbrev Reg.MET_LATCH : Nat := 0x40380010
abbrev Reg.MET_CMD : Nat := 0x40380014
abbrev Reg.MET_LATCH_AT_LO : Nat := 0x40380018
abbrev Reg.MET_LATCH_AT_HI : Nat := 0x4038001C
abbrev Reg.MET_FREQ : Nat := 0x40380020
abbrev Reg.MET_LCYC : Nat := 0x40380024
abbrev Reg.MET_UNLOCK : Nat := 0x40380028
abbrev Reg.MET_WSEQ : Nat := 0x4038002C
abbrev Reg.MET_SEL_0 : Nat := 0x40380030
abbrev Reg.MET_SEL_1 : Nat := 0x40380034
abbrev Reg.MET_SEL_2 : Nat := 0x40380038
abbrev Reg.MET_SEL_3 : Nat := 0x4038003C
abbrev Reg.MET_SEL_4 : Nat := 0x40380040
abbrev Reg.MET_SEL_5 : Nat := 0x40380044
abbrev Reg.MET_CH (i : Nat) : Nat := 0x40380000 + 0x4 * i + 0xA0
abbrev Reg.MET_K (i : Nat) : Nat := 0x40380000 + 0x10 * i + 0x100
abbrev Reg.MET_DLY (i : Nat) : Nat := 0x40380000 + 0x10 * i + 0x104
abbrev Reg.MET_DCAL_OFS (i : Nat) : Nat := 0x40380000 + 0x10 * i + 0x108
abbrev Reg.MET_DCAL_GAIN (i : Nat) : Nat := 0x40380000 + 0x10 * i + 0x10C
abbrev Reg.MET_IN (i : Nat) : Nat := 0x40380000 + 0x4 * i + 0x240
abbrev Reg.MET_SEG_G (i j : Nat) : Nat := 0x40380000 + 0x40 * i + 0x8 * j + 0x800
abbrev Reg.MET_SEG_P (i j : Nat) : Nat := 0x40380000 + 0x40 * i + 0x8 * j + 0x804
abbrev Reg.MET_E_LO (i : Nat) : Nat := 0x40380000 + 0x8 * i + 0x1000
abbrev Reg.MET_E_HI (i : Nat) : Nat := 0x40380000 + 0x8 * i + 0x1004
abbrev Reg.MET_I (i : Nat) : Nat := 0x40380000 + 0x4 * i + 0x1800
abbrev Reg.MET_IW (i : Nat) : Nat := 0x40380000 + 0x4 * i + 0x1C00
abbrev Reg.MET_RMS (i : Nat) : Nat := 0x40380000 + 0x4 * i + 0x2000
abbrev Reg.MET_RMSH (i : Nat) : Nat := 0x40380000 + 0x4 * i + 0x2080
abbrev Reg.MET_HARM (i j : Nat) : Nat := 0x40380000 + 0x100 * i + 0x4 * j + 0x4000
abbrev Reg.MET_LAST (i : Nat) : Nat := 0x40380000 + 0x4 * i + 0x6000
abbrev Reg.FLC_CTL : Nat := 0x40390000
abbrev Reg.FLC_STAT : Nat := 0x40390004
abbrev Reg.FLC_EVT : Nat := 0x40390008
abbrev Reg.FLC_IEN : Nat := 0x4039000C
abbrev Reg.FLC_RSEQ : Nat := 0x40390010
abbrev Reg.FLC_RADDR : Nat := 0x40390014
abbrev Reg.FLC_ESEQ : Nat := 0x40390018
abbrev Reg.FLC_EADDR : Nat := 0x4039001C
abbrev Reg.FLC_CNT_CE : Nat := 0x40390020
abbrev Reg.FLC_FORMAT : Nat := 0x40390024
abbrev Reg.PCNT_CTL : Nat := 0x403A0000
abbrev Reg.PCNT_STAT : Nat := 0x403A0004
abbrev Reg.PCNT_EVT : Nat := 0x403A0008
abbrev Reg.PCNT_IEN : Nat := 0x403A000C
abbrev Reg.PCNT_DEB (i : Nat) : Nat := 0x403A0000 + 0x4 * i + 0x20
abbrev Reg.PCNT_CNT (i : Nat) : Nat := 0x403A0000 + 0x4 * i + 0x40
abbrev Reg.PCNT_PRESET (i : Nat) : Nat := 0x403A0000 + 0x4 * i + 0x60
abbrev Reg.POUT_CTL : Nat := 0x403B0000
abbrev Reg.POUT_EVT : Nat := 0x403B0004
abbrev Reg.POUT_IEN : Nat := 0x403B0008
abbrev Reg.POUT_SRC (i : Nat) : Nat := 0x403B0000 + 0x4 * i + 0x10
abbrev Reg.POUT_EPP (i : Nat) : Nat := 0x403B0000 + 0x4 * i + 0x20
abbrev Reg.POUT_CNT (i : Nat) : Nat := 0x403B0000 + 0x4 * i + 0x30
abbrev Reg.POUT_LOST (i : Nat) : Nat := 0x403B0000 + 0x4 * i + 0x40
abbrev Reg.ETH_CTL (n : Nat) : Nat := 0x40400000 + 0x10000 * n
abbrev Reg.ETH_STAT (n : Nat) : Nat := 0x40400000 + 0x10000 * n + 0x4
abbrev Reg.ETH_EVT (n : Nat) : Nat := 0x40400000 + 0x10000 * n + 0x8
abbrev Reg.ETH_IEN (n : Nat) : Nat := 0x40400000 + 0x10000 * n + 0xC
abbrev Reg.ETH_MAXLEN (n : Nat) : Nat := 0x40400000 + 0x10000 * n + 0x10
abbrev Reg.ETH_TS_ADJ (n : Nat) : Nat := 0x40400000 + 0x10000 * n + 0x14
abbrev Reg.ETH_PDELAY (n : Nat) : Nat := 0x40400000 + 0x10000 * n + 0x18
abbrev Reg.ETH_TXTS_LO (n : Nat) : Nat := 0x40400000 + 0x10000 * n + 0x20
abbrev Reg.ETH_TXTS_HI (n : Nat) : Nat := 0x40400000 + 0x10000 * n + 0x24
abbrev Reg.ETH_TXTS_INFO (n : Nat) : Nat := 0x40400000 + 0x10000 * n + 0x28
abbrev Reg.ETH_CNT (n i : Nat) : Nat := 0x40400000 + 0x10000 * n + 0x4 * i + 0x40
abbrev Reg.SW_CTL : Nat := 0x40440000
abbrev Reg.SW_EVT : Nat := 0x40440004
abbrev Reg.SW_IEN : Nat := 0x40440008
abbrev Reg.SW_AGE : Nat := 0x40440010
abbrev Reg.SW_PRP : Nat := 0x40440014
abbrev Reg.SW_BUF : Nat := 0x40440018
abbrev Reg.SW_MDIO : Nat := 0x4044001C
abbrev Reg.SW_PORT (i : Nat) : Nat := 0x40440000 + 0x4 * i + 0x20
abbrev Reg.SW_RXQ (i : Nat) : Nat := 0x40440000 + 0x4 * i + 0x40
abbrev Reg.SW_PTPQ : Nat := 0x40440060
abbrev Reg.SW_CNT (i : Nat) : Nat := 0x40440000 + 0x4 * i + 0x70
abbrev Reg.SW_VLAN_0 : Nat := 0x40440100
abbrev Reg.SW_VLAN (i : Nat) : Nat := 0x40440000 + 0x4 * i + 0x104
abbrev Reg.QM_CTL : Nat := 0x40450000
abbrev Reg.QM_STAT : Nat := 0x40450004
abbrev Reg.QM_EVT : Nat := 0x40450008
abbrev Reg.QM_IEN : Nat := 0x4045000C
abbrev Reg.QM_CNT_REWIND : Nat := 0x40450010
abbrev Reg.QM_CNT_REF : Nat := 0x40450014
abbrev Reg.QM_Q_CFG (i : Nat) : Nat := 0x40450000 + 0x20 * i + 0x1000
abbrev Reg.QM_Q_LIM (i : Nat) : Nat := 0x40450000 + 0x20 * i + 0x1004
abbrev Reg.QM_Q_STAT (i : Nat) : Nat := 0x40450000 + 0x20 * i + 0x1008
abbrev Reg.QM_Q_USED (i : Nat) : Nat := 0x40450000 + 0x20 * i + 0x100C
abbrev Reg.QM_Q_OPEN (i : Nat) : Nat := 0x40450000 + 0x20 * i + 0x1010
abbrev Reg.QM_Q_PSLOT (i : Nat) : Nat := 0x40450000 + 0x20 * i + 0x1014
abbrev Reg.QM_Q_CMD (i : Nat) : Nat := 0x40450000 + 0x20 * i + 0x1018
abbrev Reg.QM_Q_CNT (i : Nat) : Nat := 0x40450000 + 0x20 * i + 0x101C
abbrev Reg.QM_PFX (i j : Nat) : Nat := 0x40450000 + 0x10 * i + 0x4 * j + 0x4000
abbrev Reg.QM_LINK (i : Nat) : Nat := 0x40450000 + 0x4 * i + 0x8000
abbrev Reg.CRC_CFG (n : Nat) : Nat := 0x40480000 + 0x10000 * n
abbrev Reg.CRC_POLY (n : Nat) : Nat := 0x40480000 + 0x10000 * n + 0x4
abbrev Reg.CRC_INIT (n : Nat) : Nat := 0x40480000 + 0x10000 * n + 0x8
abbrev Reg.CRC_XOR (n : Nat) : Nat := 0x40480000 + 0x10000 * n + 0xC
abbrev Reg.CRC_FOLD (n : Nat) : Nat := 0x40480000 + 0x10000 * n + 0x10
abbrev Reg.CRC_CMD (n : Nat) : Nat := 0x40480000 + 0x10000 * n + 0x14
abbrev Reg.CRC_VAL (n : Nat) : Nat := 0x40480000 + 0x10000 * n + 0x18
abbrev Reg.CRC_RES (n : Nat) : Nat := 0x40480000 + 0x10000 * n + 0x1C
abbrev Reg.CRC_DIN8 (n : Nat) : Nat := 0x40480000 + 0x10000 * n + 0x20
abbrev Reg.CRC_DIN16 (n : Nat) : Nat := 0x40480000 + 0x10000 * n + 0x24
abbrev Reg.CRC_DIN32 (n : Nat) : Nat := 0x40480000 + 0x10000 * n + 0x28
abbrev Reg.CRC_CNT (n : Nat) : Nat := 0x40480000 + 0x10000 * n + 0x2C
abbrev Reg.CRC_STAT (n : Nat) : Nat := 0x40480000 + 0x10000 * n + 0x30
abbrev Reg.SCB_CTL : Nat := 0x40500000
abbrev Reg.SCB_STAT : Nat := 0x40500004
abbrev Reg.SCB_DBG : Nat := 0x40500008
abbrev Reg.BOOT_STAT : Nat := 0x40510000
abbrev Reg.BOOT_SEQ : Nat := 0x40510004
abbrev Reg.BOOT_TIMG : Nat := 0x40510008
abbrev Reg.BOOT_SVN_MIN : Nat := 0x4051000C
abbrev Reg.BOOT_KEYS : Nat := 0x40510010
abbrev Reg.BOOT_FUSE_CMD : Nat := 0x40510014
abbrev Reg.BOOT_DBG : Nat := 0x40510018
abbrev Reg.BOOT_SERIAL_LO : Nat := 0x40510020
abbrev Reg.BOOT_SERIAL_HI : Nat := 0x40510024
abbrev Reg.BOOT_KHASH (i j : Nat) : Nat := 0x40510000 + 0x20 * i + 0x4 * j + 0x40
abbrev Reg.QSPI_CTL : Nat := 0x40520000
abbrev Reg.QSPI_RDCFG : Nat := 0x40520004
abbrev Reg.QSPI_STAT : Nat := 0x40520008
abbrev Reg.QSPI_EVT : Nat := 0x4052000C
abbrev Reg.QSPI_IEN : Nat := 0x40520010
abbrev Reg.QSPI_CMD : Nat := 0x40520014
abbrev Reg.QSPI_ADDR : Nat := 0x40520018
abbrev Reg.QSPI_BUF (i : Nat) : Nat := 0x40520000 + 0x4 * i + 0x100
abbrev Reg.UART_CTL : Nat := 0x40530000
abbrev Reg.UART_DIV : Nat := 0x40530004
abbrev Reg.UART_STAT : Nat := 0x40530008
abbrev Reg.UART_EVT : Nat := 0x4053000C
abbrev Reg.UART_IEN : Nat := 0x40530010
abbrev Reg.UART_DATA : Nat := 0x40530014
abbrev Reg.GPIO_DIR : Nat := 0x40540000
abbrev Reg.GPIO_OD : Nat := 0x40540004
abbrev Reg.GPIO_OUT : Nat := 0x40540008
abbrev Reg.GPIO_SET : Nat := 0x4054000C
abbrev Reg.GPIO_CLR : Nat := 0x40540010
abbrev Reg.GPIO_IN : Nat := 0x40540014
abbrev Reg.GPIO_EVT : Nat := 0x40540018
abbrev Reg.GPIO_IEN : Nat := 0x4054001C
abbrev Reg.PMIC_CTL : Nat := 0x40550000
abbrev Reg.PMIC_STAT : Nat := 0x40550004
abbrev Reg.PMIC_EVT : Nat := 0x40550008
abbrev Reg.PMIC_IEN : Nat := 0x4055000C
abbrev Reg.PMIC_RAIL (i : Nat) : Nat := 0x40550000 + 0x4 * i + 0x20
abbrev Reg.PMB_CTL : Nat := 0x40550040
abbrev Reg.PMB_CMD : Nat := 0x40550044
abbrev Reg.PMB_STAT : Nat := 0x40550048
abbrev Reg.PMB_DATA (i : Nat) : Nat := 0x40550000 + 0x4 * i + 0x60
abbrev Reg.SCRUB_CTL : Nat := 0x40560000
abbrev Reg.SCRUB_INTV (i : Nat) : Nat := 0x40560000 + 0x4 * i + 0x10
abbrev Reg.SCRUB_PASS (i : Nat) : Nat := 0x40560000 + 0x4 * i + 0x40
abbrev Reg.SCRUB_CE (i : Nat) : Nat := 0x40560000 + 0x4 * i + 0x60
abbrev Reg.SCRUB_UE_ADDR : Nat := 0x40560080
abbrev Reg.SCRUB_UE_INFO : Nat := 0x40560084
abbrev Reg.SCRUB_BERR_ADDR : Nat := 0x40560090
abbrev Reg.SCRUB_BERR_INFO : Nat := 0x40560094
abbrev Reg.SCRUB_SEAL_CNT : Nat := 0x40560098

end Sys2Proof.Machine
end

