-- ==== Sys2Proof/Machine/SMap.lean ====
section
/-! DEFINITION. A sparse table from numbers to values in one canonical form: keys strictly rising, no entry equal to the value an
unlisted key reads as. Memory, the registers and every indexed thing of the machine are held so, and equal tables are equal data. -/

namespace Sys2Proof.Machine

/-- A sparse table (see the file's head). -/
abbrev SMap (α : Type) := List (Nat × α)

/-- The entry of a key, if one is listed. -/
def SMap.get? {α : Type} : SMap α → Nat → Option α
  | [], _ => none
  | (k, v) :: m, i => if k = i then some v else SMap.get? m i

/-- What a key reads as: its entry, or `d` where none is listed. -/
def SMap.getD {α : Type} (m : SMap α) (d : α) (i : Nat) : α := (SMap.get? m i).getD d

/-- The table without a key. -/
def SMap.erase {α : Type} : SMap α → Nat → SMap α
  | [], _ => []
  | (k, v) :: m, i => if k = i then SMap.erase m i else (k, v) :: SMap.erase m i

/-- Lists an entry at its place. -/
def SMap.insert {α : Type} : SMap α → Nat → α → SMap α
  | [], i, v => [(i, v)]
  | (k, w) :: m, i, v => if i < k then (i, v) :: (k, w) :: m else (k, w) :: SMap.insert m i v

/-- Stores a value at a key; the value an unlisted key reads as removes the entry. -/
def SMap.put {α : Type} [DecidableEq α] (m : SMap α) (d : α) (i : Nat) (v : α) : SMap α :=
  if v = d then SMap.erase m i else SMap.insert (SMap.erase m i) i v

/-- The keys, from a lower bound on, rise strictly. -/
def SMap.rising {α : Type} : Nat → SMap α → Bool
  | _, [] => true
  | b, (k, _) :: m => decide (b ≤ k) && SMap.rising (k + 1) m

/-- The canonical form, for tables whose unlisted keys read as `d` of the key. -/
def SMap.wf {α : Type} [DecidableEq α] (d : Nat → α) (m : SMap α) : Bool :=
  SMap.rising 0 m && m.all fun e => !decide (e.2 = d e.1)

end Sys2Proof.Machine
end

