-- ==== Sys2Proof/Machine/State.lean ====
section
/-! DEFINITION. The state of the SV9144 as plain data: every register the spec maps (one sparse table, see RegMap.lean), the state
behind them that the chapters name, the queue of waiting commands, and the pins that follow from it. Everything indexed is a
sparse table whose unlisted keys read as the default given with it. -/

namespace Sys2Proof.Machine

/-- Why the machine stops with a fault. -/
inductive Fault where
  /-- Raised by no meaning of this model: the block takes no exception, and its own error states are part of the state. Safe. -/
  | none
  deriving DecidableEq, Repr

/-- Why a command is refused. -/
inductive Refusal where
  /-- Raised by a dispatch arm whose command has no meaning yet. Safe: the machine stops. -/
  | notModelled (mnemonic : String)
  deriving DecidableEq, Repr

/-- What the device put on its wires, newest first in `Dev.outbox`. Lanes 0 to 23 are RP0 to RP23, 24 and 25 the twin lanes. -/
inductive Out where
  | block (lane : Nat) (bytes : List Byte)                    -- a control block of eight bytes (R98)
  | frame (lane : Nat) (f : Frame)                            -- SOF, data and TERM blocks (R137)
  | eth (port : Nat) (bytes : List Byte)                      -- a frame at E0 to E3
  | mdio (word : Word)                                        -- a management frame (R461)
  | uart (b : Byte)                                           -- a character at UART_TXD (R505)
  | pmb (cmd : Word) (bytes : List Byte)                      -- a PMBus transaction (R508)
  | qspi (cmd addr : Word) (bytes : List Byte)                -- a command of the flash port (R509)
  | pps (ns : Nat)                                            -- a rising edge of PPS_OUT (R455)
  | syncOut (ns : Nat)                                        -- a rising edge of SYNC_OUT (R203)
  | testPulse (chB : Bool)                                    -- a pulse at TPA or TPB (R395)
  | offPulse (n : Nat)                                        -- an off-pulse at SOUTn (R392)
  | pout (n : Nat)                                            -- a pulse at POUTn (R361)
  deriving DecidableEq, Repr

/-- What the last bus access answered: the datum, and the bus error code of R47 (0: none). -/
structure BusResp where
  data : Word
  err  : Nat
  deriving DecidableEq, Repr

/-- The period sequencer and device time (R14 to R18, R443, R536). Device time is held in units of 2^-48 ns. -/
structure TimeBase where
  dt        : Nat := 0
  counting  : Bool := false  -- SYN1 has locked and is not gated (R14, R445)
  tP        : Nat := 20000  -- the period in force, ns
  anchor    : Nat := 0  -- the anchor in force, ns
  engStart  : Nat := 4000  -- ENG_START in force, ns
  outPhase  : Nat := 16000  -- OUT_PHASE in force, ns
  phPend    : Bool := false  -- TIME_PHASES holds a staged write (R18)
  gridPend  : Bool := false  -- TIME_PERIOD or TIME_ANCHOR holds an accepted write that waits (R536)
  stepPend  : Option Int := none  -- a step waits for its boundary, in 2^-16 ns (R446)
  stepSrv   : Option Nat := none  -- the servo that asked for the waiting step; none: software
  inPeriod  : Bool := false  -- a period is in progress (R14)
  bnd       : Nat := 0  -- its boundary, device time in ns
  k         : Nat := 0  -- its number (R15)
  engAt     : Option Nat := none  -- the ENG_START of the period, while it has still to occur
  outAt     : Option Nat := none  -- the OUT_PHASE of the period, while it has still to occur
  engPast   : Bool := false  -- its ENG_START has occurred (R24)
  outSkip   : Bool := false  -- the engines' run belongs to a period whose OUT_PHASE does not occur (R26, R536, R448)
  oldTP     : Option Nat := none  -- T_P of the last old period, while it lasts (R17, R536)
  notBefore : Nat := 0  -- the next boundary is the first grid point from here on (R536, R448)
  hiLatch   : Nat := 0  -- TIME_NOW_FRAC as the last LO read latched it (R443)
  cutMs     : Nat := 0  -- 40 ns units of the idle tick since its last millisecond (model's own)
  deriving DecidableEq, Repr

/-- Supplies, resets and domain switching (R59 to R69, R80 to R86). -/
structure Power where
  mainGood : Bool := false  -- VDD08, VDD18, VDD33 in their windows for 50 us (R59)
  resetHi  : Bool := true  -- RESET_N is high (R83)
  dbgHeld  : Bool := false  -- the TAP holds the debug reset (R504)
  safeOn   : Bool := false  -- SAFE runs
  queue    : List (Nat × Bool) := []  -- the switches of the accepted request still to be made, in order (R63)
  restart  : Bool := false  -- a supervisor restart is in progress (R66)
  latching : Bool := false  -- the switch-off of METER waits for its latch (R65)
  pg       : BitVec 6 := 0  -- PMIC_PG levels
  pgErr    : BitVec 6 := 0  -- a PMIC_PG condition of R69 holds
  winOut   : BitVec 6 := 0  -- supply i of SYS_SUPMON is outside its window (R93)
  hadTime  : Bool := false  -- SYS_READY.TIME has been set (source 95 of R372)
  deriving DecidableEq, Repr

/-- The Amber domain (R86 to R91). -/
structure Amber where
  powered : Bool := true
  hold    : Nat := 0  -- holdover count, 2^-16 ns (R89)
  queue   : List (Nat × Word) := []  -- pending writes in order, at most eight (R91)
  x32Ok   : Bool := true  -- the crystal runs (R90)
  x32Run  : Nat := 0  -- consecutive ticks since it stopped
  bwOn    : Bool := false  -- the bypass watch measures (R363)
  bwEvN   : Nat := 0  -- bypass-watch event index
  bwLow   : Nat := 0  -- seconds for which every enabled input has stayed below END_TH (R364)
  bwUnc   : Nat := 0  -- entries of AMB_BW_EV not copied to the flacon (R364)
  bwAcc   : SMap Nat := []  -- products not yet counted into AMB_BW_AH
  bwFrom  : Nat := 0  -- start of the watch that runs, seconds of holdover time
  bwSecs  : Nat := 0  -- its seconds so far
  bwMah   : Nat := 0  -- AMB_BW_AH of all inputs at its start, summed
  deriving DecidableEq, Repr

/-- The fault collector beside its registers (R374 to R384). -/
structure FaultCol where
  forming  : List Nat := []  -- sources raised in the event in formation, newest first
  formedAt : Nat := 0  -- device time of the first of them
  fast     : Bool := false  -- the fast path acted (R380)
  tripSrc  : Option Nat := none  -- SRC of the TRIP block already launched for the event in formation (R382)
  relAt    : Option Nat := none  -- the period of the last RELEASE of a held TRIP or HALT (R198)
  blank    : SMap Nat := []  -- assertion of GFLT_Nj held as early: ns from the turn-on, plus 1 (R386)
  early    : SMap Nat := []  -- blanked desaturations of the event in formation: ns from the turn-on, plus 1
  trip     : Option (Nat × Nat) := none  -- SRC and TSEQ that repeats carry (R382)
  tseq     : Nat := 0  -- TSEQ of the last trip event
  hold     : Nat := 0  -- 0 none, 2 TRIP, 3 HALT (R378)
  errn     : Bool := true  -- ERR_N is asserted (R384)
  errnMin  : Bool := false  -- its minimum width runs
  errnRel  : Bool := false  -- a release waits for the end of the width
  cellData : Nat := 0  -- lowest cell of the last FLT_CELL_FAULT (R388)
  lostCell : Nat := 0  -- the cell of the last FLT_CELL_LOST (R167)
  level    : BitVec 128 := 0  -- conditions that blocks hold for their sources (R372)
  logN     : Nat := 0  -- records written since SAFE came out of reset, up to 64
  deriving DecidableEq, Repr

/-- Which channel of a local leg is on; both on is not a state of a leg (R209, R213). -/
inductive Chan where
  | off | high | low
  deriving DecidableEq, Repr

/-- A local leg Lk at the gate channels (R208 to R218). Times are device time in ns. -/
structure Gate where
  on     : Chan := .off
  pend   : Chan := .off  -- the channel whose turn-on waits for dead time
  sched  : Chan := .off  -- the scheduled state (R208)
  hiOff  : Option Nat := none  -- when the high channel turned off, none: long ago
  loOff  : Option Nat := none
  onAt   : Nat := 0  -- when the channel that is on turned on
  en     : Bool := false  -- GATE_CTL.EN in force (R216)
  dtHL   : Nat := 1000  -- dead times in force (R218)
  dtLH   : Nat := 1000
  evs    : List (Nat × Nat) := []  -- events (T, code) of the active schedule still to come (R208)
  cutAt  : Nat := 0  -- when its cut period began (R212)
  offAt  : Option Nat := none  -- when a cut, interlock or trip last turned it off (R217)
  deriving DecidableEq, Repr

/-- An edge event of the staging or of a committed set. -/
structure EdgeEv where
  leg  : Nat                       -- target number 0 to 295 (R182)
  t    : Nat
  code : Nat
  deriving DecidableEq, Repr

/-- An output set (R28, R200): references as taken, records of 16 bytes, events of the local legs. -/
structure OutSet where
  valid : Bool := false
  stop  : Bool := false  -- a stop set (R202)
  first : Bool := false  -- the first set after an atomizer start (R193)
  refs  : SMap Int := []  -- q15 of targets 0 to 295, MIRROR applied
  recs  : SMap (List Byte) := []  -- record of cell c without its CRC: bytes 0 to 13; unlisted: MODE OFF
  legs  : SMap (List (Nat × Nat)) := []  -- events (T, code) of local leg k, ascending
  starts : List Nat := []  -- cells that became ACTIVE at the ENG_START of its period (R193)
  per   : Nat := 0  -- its period number
  sof6  : List Byte := []  -- SOF bytes 1 to 6 of its COMMAND frames (R142)
  pos   : SMap Nat := []  -- position of cell c at the commit, in the CRC of its record (R220)
  ctl   : SMap Word := []  -- ATM_CLn_CTL as the commit took it (R191, R219)
  deriving DecidableEq, Repr

/-- A leg on its carrier (R191 to R193, R206). -/
structure Leg where
  ref    : Int := 0  -- loaded reference, q15
  corr   : Int := 0  -- corrections landed before the last boundary and not yet applied
  corrIn : Int := 0  -- corrections landed at the last boundary and not yet applied
  last   : Option (Int × Int) := none  -- valley at which the last correction was applied, and that correction
  lastLd : Nat := 0  -- instant of the last reload, plus 1
  startAt : Option Nat := none  -- boundary of its start load (R193)
  deriving DecidableEq, Repr

/-- The output staging and the atomizer (R182 to R207). -/
structure Atm where
  refs    : SMap Int := []  -- staged q15 references, targets 0 to 295
  phases  : SMap Int := []  -- staged q15 phases of cells
  evs     : List EdgeEv := []  -- staged edge events in order of arrival
  badev   : Nat := 0  -- writes to a refused target since the last commit (R185)
  legs    : SMap Leg := []
  new     : OutSet := {}  -- committed, lands at the next boundary
  act     : OutSet := {}  -- the active schedule
  prev    : OutSet := {}  -- the one before it (R192)
  startP  : Bool := false  -- an accepted start waits for OUT_PHASE (R201)
  stopP   : Bool := false  -- an accepted stop waits for OUT_PHASE (R202)
  running : Bool := false  -- from the first commit until the stop set lands
  zeroWas : BitVec 6 := 0  -- ZERO of each cluster in force at the last commit (R198)
  landAt  : Option Nat := none  -- boundary at which the last set landed
  corrP   : SMap Int := []  -- corrections of each carrier taken by no commit yet (R205)
  corrNew : SMap Int := []  -- corrections taken by the set that lands next
  stampAt : SMap Int := []  -- start of the carrier period of the last correcting stamp, plus 1
  cmdDue  : Bool := false  -- the COMMAND frames of the commit are still to be started (R27)
  clCtl   : SMap Word := []  -- ATM_CLn_CTL of the active schedule: its RELOAD governs (R191, R219)
  syncSeen : Nat := 0  -- the last SYNC_IN edge, or where SYNC_IN came into use, device time in ns (R207)
  syncEnd : Nat := 0  -- the SYNC_OUT pulse falls, device time in ns (R203)
  syncNext : Nat := 0  -- SYNC_OUT has risen for every valley before it
  deriving DecidableEq, Repr

/-- A lane's receiver and training state (R101 to R119). -/
structure Lane where
  good     : Nat := 0              -- consecutive valid sync headers (R101)
  slip     : Nat := 0              -- block boundary, 0 to 65 (R103)
  berBad   : Nat := 0              -- invalid headers of the window of R119
  farSeq   : Option Byte := none   -- REQ_SEQ last answered (R113)
  ansSt    : Byte := 0             -- byte 4 of the answer
  mySeq    : Byte := 0             -- REQ_SEQ of the own request
  myReq    : Byte := 0             -- byte 2 of the own request, 0: hold
  search   : Nat := 0              -- 0 none, 1 INIT sent, 2 measuring after INIT, 3 move sent, 4 measuring it, 5 undo sent
  tap      : Nat := 0              -- 0 post, 1 pre, 2 main
  second   : Bool := false         -- the second direction of the tap is tried
  moved    : Bool := false
  improved : Bool := false
  w        : Nat := 0              -- eye of the kept setting
  h        : Nat := 0
  nreq     : Nat := 0              -- requests of the search
  ended    : Bool := false         -- a search has ended since EN was set (R108)
  startReq : Bool := false         -- START was written since the last search ended
  rxReady  : Bool := false         -- RX_READY is sent
  mark     : Option Nat := none    -- count of the last alignment marker (R123)
  markAt   : Nat := 0              -- blocks received when it came
  lag      : Option Nat := none    -- blocks by which the later lane of the last marker pair lags
  win      : Nat := 0              -- the last 64 blocks, newest in bit 0: 1 is an invalid header (R101)
  rxN      : Nat := 0              -- blocks received since EN was set
  berN     : Nat := 0              -- blocks of the window of R119
  berHit   : Bool := false         -- TH has been reached in it
  frm      : Nat := 0              -- 0 between frames, 1 within a frame, 2 one that ended as bad, 3 one that a buffer error discards (R104, R132)
  txN      : Nat := 0              -- blocks sent while in TRAIN or READY, modulo 8 (R114)
  waitN    : Nat := 0              -- blocks since the request that is not answered (R114)
  tout     : Bool := false         -- the training time-out has passed (R115)
  pairs    : Nat := 0              -- on TWL0: block pairs sent since the last marker pair, and its count (R123)
  markTx   : Nat := 0
  deriving DecidableEq, Repr

/-- A ring port above its lane (R128 to R180). -/
structure Port where
  runSince  : Nat := 0  -- periods since P0 (R156)
  startDone : Bool := false  -- the ring start has finished
  calSum    : SMap Nat := []  -- sum of RT - TURN per position, 1/16 ns
  calN      : SMap Nat := []  -- replies per position
  hrSum     : Nat := 0  -- incoming transits of TIME blocks, 1/16 ns
  hrN       : Nat := 0
  calReq    : Bool := false  -- START was written
  calDue    : Nat := 0  -- periods since the last calibration
  wrapped   : Bool := false  -- a wrapped copy arrived in this period
  rounds    : Nat := 0  -- REPOLL rounds of this period
  asked     : List (Nat × List Nat) := []  -- period and positions of each REPOLL on the ring, in slot order from end A, newest first
  swTrips   : List (List Byte × Nat) := []  -- software TRIP blocks to repeat, oldest first, each with its repeats left (R160)
  discAgo   : Option Nat := none  -- periods since the last DISCOVER, none before the first since P0
  svcTag    : Byte := 0
  found     : SMap (List Byte) := []  -- entry of 16 bytes of the last round per position
  pseq      : Byte := 0  -- number of the last PROBE
  hiSent    : Nat := 0  -- TIME_HI rewrites made, as bits [63:48] plus 1 (R135)
  readDue   : List Nat := []  -- positions whose descriptor READ waits for its reply
  readWait  : List Nat := []  -- positions whose READ waits for step 7 of the ring start (R156)
  applyLeft : Option Nat := none  -- boundaries until the OFS_APPLY of the ring start, none before its step 5 (R156)
  calP      : Nat := 0  -- boundaries since the calibration in progress began (R156)
  meas      : SMap Nat := []  -- OFS as last computed for a position, 1/16 ns (R157)
  busyTo    : Nat := 0  -- the lane is taken until here, device time in 1/80 ns (R29)
  svcWait   : List (List Byte) := []  -- SERVICE frames of the device that wait for a gap, oldest first (R29, R169)
  farSeen   : Bool := false  -- the other unit's TIME or COLLECT has arrived since the last boundary (R131)
  nodes     : List (List Byte × Nat) := []  -- UID and BOOTS of the nodes of the last DISCOVER (R173)
  derived   : List (List Byte × Nat) := []  -- UID and derived position of its nodes
  asgn      : List (List Byte) := []  -- UIDs that SET_POS has been sent to in its round
  deriving DecidableEq, Repr

/-- A cell of the cell table (R145 to R178, R537); its state stands in CELL_STAT. -/
structure Cell where
  acc      : Bool := false  -- a record was accepted in this period
  fill     : List Byte := []  -- that record, 24 bytes
  img      : List Byte := []  -- the engines' input image of the cell
  prev     : List Byte := []  -- the image of the period before (R388)
  age      : Nat := 0
  req      : Option Nat := none  -- pending CELL_REQ
  unby     : Bool := false  -- UNBYPASS pending
  unbyOn   : Bool := false  -- it has taken effect at an ENG_START (R177, R178)
  disc     : Bool := false  -- the mapped position holds an assigned node whose descriptor passed (R176)
  newBoots : Bool := false  -- the node reported a new BOOTS value
  boots    : Option Nat := none
  startLd  : Bool := false  -- became ACTIVE at the last ENG_START (R193)
  deriving DecidableEq, Repr

/-- The safety logic beside its registers (R389 to R400). -/
structure Safe where
  state    : Nat := 0  -- 0 LOCKED, 1 ARMED, 2 KEY1, 3 NORMAL
  cause    : Nat := 0  -- SAFE_STAT.CAUSE
  sinHi    : BitVec 8 := 0  -- input i is high
  demand   : BitVec 8 := 0  -- channel i demands (R394)
  disc     : BitVec 4 := 0  -- pair p is in discrepancy
  srb      : BitVec 8 := 0  -- bands of SRB0 to SRB3, two bits each
  chanDis  : Bool := false  -- the internal channels disagree (R389)
  outBad   : BitVec 4 := 0  -- the read-back of output n mismatches (R391)
  inBad    : BitVec 8 := 0  -- bit 2p + c: pair p failed at its last pulse of TPA (c = 0) or TPB (R395)
  starved  : Bool := false  -- a test pulse is overdue (R396)
  tstBad   : BitVec 4 := 0  -- an off-pulse failure holds until the next passed test (R392)
  rstLong  : Bool := false  -- a low SAFE_RST_N reached 2 s and has not returned high (R398)
  deriving DecidableEq, Repr

/-- The clock synthesisers (R430 to R442). -/
structure Clk where
  refOk    : Bool := false  -- REF_OK (R431)
  refLost  : Bool := false  -- the reference was lost and has not come back
  busy     : BitVec 3 := 0  -- a re-lock of SYNs was triggered and has not ended (R437)
  chosen   : Bool := false  -- step 3 of the re-lock of SYN0 is done
  noBand   : Bool := false  -- no band entry qualified (R433)
  band     : Nat := 0  -- the band code that SYN0 took at its last re-lock (R433, R527)
  refSel   : Nat := 0  -- REF_SEL and REF_FREQ in force (R430)
  deriving DecidableEq, Repr

/-- A servo (R449 to R453). Offsets in 2^-16 ns, the integrator in 2^-32 ns. -/
structure Servo where
  integ   : Int := 0  -- i, in 2^-32 ns
  lastX   : Int := 0  -- last accepted x
  rej     : Nat := 0  -- consecutive rejections
  lastAt  : Nat := 0  -- device time of the last accepted sample
  slew    : Bool := false  -- SLEWING
  noStep  : Bool := false  -- switched to from the other servo in ACQUIRE: it never steps (R453)
  agree   : Nat := 0  -- agreeing samples in ACQUIRE
  lo      : Int := 0  -- the least and the greatest of them, the held rate removed
  hi      : Int := 0
  smpLo   : Word := 0  -- SRV_SMP_LO as written
  deriving DecidableEq, Repr

/-- The servos' selection and the PPS pins (R453 to R456). -/
structure TimeSrv where
  inUse   : Nat := 0  -- 0 none, 1 A, 2 B: the servo that drives TIME_RATE
  pendSel : Option Nat := none  -- the servo a pending switch goes to
  ppsLast : Option Nat := none  -- stamp of the last accepted PPS_IN edge
  ppsOut  : Bool := false  -- level of PPS_OUT
  ppsFall : Nat := 0  -- when PPS_OUT falls, device time in ns
  ppsNext : Nat := 0  -- PPS_OUT has risen for every whole second before it
  ppsWait : Nat := 0  -- the absence of PPS_IN edges counts from it
  deriving DecidableEq, Repr

/-- Fuses, boot and debug (R493 to R504). -/
structure Boot where
  policy   : Nat := 0              -- fused BOOT_DBG.POLICY (R501)
  granted  : Bool := false         -- debug granted under policy 1
  svnMin   : Nat := 0              -- fused thermometer, 0 to 64 (R500)
  hashes   : SMap Word := []       -- key hashes, word 8k + w
  prog     : BitVec 4 := 0         -- hash k is programmed
  revoked  : BitVec 4 := 0         -- key k is revoked
  serial   : Nat := 0              -- 64-bit serial number
  fuseOp   : Option (Nat × Nat) := none   -- the fuse command being programmed: OP, VALUE
  runs     : Bool := false         -- an image runs
  svn      : Nat := 0              -- its SVN and key
  keyIdx   : Nat := 0
  serving  : Bool := false         -- the boot ROM serves the recovery port (R498)
  recMs    : Nat := 0              -- milliseconds since it last sent "SPVR"
  halted   : Bool := false         -- debug has halted the supervisor core
  tapIr    : Nat := 1              -- TAP instruction, IDCODE at reset (R503)
  tapDr    : Word := 0x19144C5B    -- what the data register that it selects captures (R503)
  scan     : Nat := 0              -- argument of the free value that stands for the boundary register (R504)
  deriving DecidableEq, Repr

/-- A packet of a queue of the packet memory (R470 to R475). -/
structure Pkt where
  slots   : List Nat               -- its chain of slots
  len     : Nat                    -- declared LEN, 0xFFFF for none; the final one once it has ended
  written : Nat := 0               -- data bytes written so far
  vis     : Bool := false          -- visible to its consumer
  ended   : Bool := false
  abort   : Bool := false
  drop    : Bool := false          -- dropped while open: the rest is discarded
  deriving DecidableEq, Repr

/-- A frame that waits in an egress queue of the switch (R464): its bytes without tag stand in its slots. -/
structure EgFrame where
  slots   : List Nat
  len     : Nat
  tci     : Nat                    -- VID, DEI and PCP of the frame in the switch
  src     : Nat                    -- ingress switch port
  stamp   : Nat                    -- ingress stamp, 2^-16 ns
  steps   : Nat                    -- steps of device time before it arrived (R468)
  tsreq   : Bool := false
  onestep : Bool := false
  deriving DecidableEq, Repr

/-- The NET domain beside its registers (R459 to R481). -/
structure Net where
  queues  : SMap (List Pkt) := []  -- packets of queue q, oldest first; the open one is the last
  egress  : SMap (List EgFrame) := []  -- queue 8 p + PCP of port p
  macs    : List (Nat × Nat × Nat × Nat) := []  -- address table: VID, address, port, device time of its last frame (R462)
  dups    : List (Nat × List (Nat × Nat)) := []  -- source, its SeqNr and their stamps, newest source first (R465)
  prpSeq  : Nat := 0  -- SeqNr of the next duplicated frame
  txts    : SMap (List (Nat × Nat × Nat)) := []  -- egress stamps of port n: ns, sequenceId, messageType (R469)
  steps   : Nat := 0  -- steps of device time made
  deriving DecidableEq, Repr

/-- A hardware loop (R241 to R243): first and last body position (instruction index in an engine, address in the supervisor). -/
structure Loop where
  act : Bool := false
  beg : Nat := 0
  fin : Nat := 0
  rem : Nat := 0  -- iterations still to start, the running one included
  idx : Nat := 0  -- lc
  sup : Bool := false  -- the body is suppressed (R243)
  deriving DecidableEq, Repr

/-- The registers that an engine and the supervisor share (R222). Accumulators are held modulo 2^72; bit n of `p` is pn, p0 is not
stored. -/
structure Regs where
  g   : SMap Word := []
  acc : SMap Nat := []
  p   : BitVec 4 := 0
  l0  : Loop := {}
  l1  : Loop := {}
  deriving DecidableEq, Repr

/-- A result on its way to its register (R255). -/
inductive Act where
  | reg (r : Nat) (w : Word)
  | pred (n : Nat) (b : Bool)
  | acc (a : Nat) (lo w v : Nat)           -- bits lo to lo + w - 1 of accumulator a
  | accAdd (a : Nat) (x : Int)             -- the accumulator is read where it lands (R255)
  | sat                                    -- the saturation flag (R229)
  | ldx (rd addr : Nat)                    -- the exchange memory is read (R240)
  | biq (k : Nat) (z1 z2 : Int)            -- states of section k (R249)
  deriving DecidableEq, Repr

/-- A blend channel (R280, R281); W and J stand in the coefficient memory. -/
structure Blend where
  m     : Nat := 1  -- M in force
  armAt : Nat := 0  -- the armed start period and its M
  armM  : Nat := 1
  deriving DecidableEq, Repr

/-- An engine beside its AECTL registers (R222 to R281). -/
structure Eng where
  regs    : Regs := {}
  pc      : Nat := 0
  cyc     : Nat := 0  -- cycle of the next issue
  per     : Nat := 0  -- period of the run
  halted  : Bool := false  -- it executed HALT in this period (R253)
  pend    : List (Nat × Act) := []  -- results in flight: the first cycle that sees them, in order of issue
  outLast : Option Nat := none  -- issue cycle of the last REF or EDGE
  stage   : SMap Word := []  -- staging copy of the mailbox (R253, R274)
  swapAt  : Nat := 0  -- armed periods (R269, R273)
  tickAt  : Nat := 0
  blends  : SMap Blend := []
  base    : Nat := 0  -- engine cycle, counted from ENG_START, of its cycle 0 (R415)
  p3      : Bool := false  -- p3 as the last ENG_START gave it, and the one before (R272, R415)
  oldP3   : Bool := false
  oldMap  : Nat := 0xE4  -- LUT_MAP.ACT before the last ENG_START (R418)
  biqDue  : Nat := 0  -- loads and clears that a standby makes at its live run (R418)
  zclrDue : Nat := 0
  bankHold : Bool := false  -- a shadow run still uses the bank that the last swap left (R418)
  held    : Bool := false  -- it stopped under OVR_HOLD since the last ENG_START (R268)
  busOld  : SMap Nat := []  -- words of its data memory that the bus wrote in the cycle of the next issue: what each held before, plus 1 (R240)
  deriving DecidableEq, Repr

/-- An output of an engine on its way to the staging (R246). -/
structure OutW where
  land : Nat                       -- the engine cycle in which it reaches the staging
  eng  : Nat
  edge : Bool
  tgt  : Nat
  val  : Word
  deriving DecidableEq, Repr

/-- A sort unit (R252, R282, R283); the visible ranking stands in SORT_RANK. -/
structure SortU where
  items : List (Nat × Word) := []  -- the open set: index and value
  pend  : List (Nat × List Nat) := []  -- rankings in the making: the first cycle that sees each, indexes by rank
  win   : List (Nat × Nat × Nat) := []  -- windows in force: engine, START, END
  deriving DecidableEq, Repr

/-- A sillage buffer beside its registers (R284 to R288). -/
structure Sil where
  trcs  : Nat := 0  -- TRCs since ARM, for the decimation
  taken : Nat := 0  -- samples since ARM
  post  : Nat := 0  -- samples since the trigger, the trigger sample included
  last  : Option Word := none  -- the previous sample
  trigP : Bool := false  -- the next sample is the trigger sample
  pk    : List Word := []  -- samples of the open packet, newest first
  pkPer : Nat := 0  -- period and cycle of its first sample
  pkCyc : Nat := 0
  deriving DecidableEq, Repr

/-- Twin operation (R405 to R428); role, epoch and arbitration stand in TWIN_STAT. -/
structure Twin where
  seen     : Nat := 0  -- newest epoch seen on a ring port or the twin link (R420)
  claimAt  : Option Nat := none  -- a claim waits for its confirmation (R421)
  yieldDue : Bool := false  -- a valid frame under another HOLDER and a newer epoch has come while this unit holds command (R423)
  swapP    : Option Nat := none  -- an armed swap at this period (R425)
  swapAcc  : Bool := false  -- the partner accepts it
  partSwap : Bool := false  -- the partner asks for a swap
  pPref    : Bool := false  -- PREF and POLICY of the partner's last STATUS
  pPolicy  : Nat := 0
  heard    : Bool := false  -- a STATUS has been received since RING came on
  noStat   : Nat := 0  -- ENG_STARTs since the last STATUS
  statLost : Bool := false  -- no STATUS for two periods while the link is trained (R427)
  arbDiff  : Nat := 0  -- consecutive STATUS frames whose ARB_OUT differs from ARB_IN
  arbFault : Bool := false
  mismatch : Bool := false  -- POLICY_MISMATCH holds
  passes   : Nat := 0  -- consecutive passing checks
  divs     : Nat := 0  -- consecutive diverged checks
  lastDiv  : Bool := false  -- the last check diverged (STATUS byte 1)
  snapPer  : Option Nat := none  -- period of the SNAP held
  snapImg  : List Byte := []  -- its input image as bytes by address
  snapXin  : List Byte := []  -- its exchange area as bytes by address
  shadowPer : Option Nat := none  -- the period that the shadow run computes, while its check is due
  shadowOk : Bool := false  -- the context it started from was loaded, and SNAP was there
  shadowEnd : Bool := false  -- R416 was kept so far
  ctxPer   : Option Nat := none  -- period of the COPY whose contexts are loaded
  copy     : Option (Nat × List Byte) := none  -- COPY received: its period and data
  stat     : Option (Nat × Nat) := none  -- holder's STATUS: period of its OCRC, OCRC
  shadowRun : Bool := false  -- the engines make their shadow runs (R415)
  ocrcLog  : List OutW := []  -- outputs of the context engines in the holder's or the shadow run
  ocrcLast : Nat := 0  -- OCRC of the holder's run of the previous period
  capBusy  : SMap Nat := []  -- CRC-32 of each engine's context whose capture still runs, plus 1 (R416)
  caps     : SMap Nat := []  -- CRC-32 of each engine's context after its shadow HALT, plus 1
  ctxs     : SMap (List Byte) := []  -- the holder's contexts as taken at each HALT of this period
  oldBlend : SMap Nat := []  -- blend weights at the previous ENG_START, channel 8n + c
  relayed  : List Nat := []  -- rings relayed in this period
  xinLatch : List Byte := []  -- exchange area latched at the last ENG_START (R413)
  blkAt    : Nat := 0  -- when the last valid block came on a twin lane, device time in ns (R420)
  sbyAt    : Nat := 0  -- when STANDBY was entered, device time in ns (R426)
  capEnd   : Nat := 0  -- the engine cycle, from ENG_START, in which the last capture of the shadow run ends (R416)
  svcWait  : List (Nat × List Byte) := []  -- SERVICE frames that wait for a gap of the twin link: ring, data (R171, R409)
  deriving DecidableEq, Repr

/-- An accumulator of a sequence entry (R305). -/
structure AdcAcc where
  sum : Int := 0
  cnt : Nat := 0
  mn  : Int := 0
  mx  : Int := 0
  deriving DecidableEq, Repr

/-- A converter group beside its registers (R296 to R313). -/
structure Adc where
  act     : SMap Word := []  -- the active table
  last    : Nat := 0  -- its LAST
  rstOfs  : Nat := 0  -- its RST_OFS; SEQUENCE_RESTART comes at that offset (R297)
  commitP : Bool := false  -- an accepted COMMIT waits for the start of entry 0
  going   : Bool := false  -- a pass is in progress
  e       : Nat := 0  -- entry and conversions made of it
  rep     : Nat := 0
  sum     : Int := 0  -- of an averaged entry
  stamps  : Nat := 0  -- sum of their sampling instants
  commitAt : Nat := 0  -- when that COMMIT was written, device time in ns
  nextT   : SMap Word := []  -- the staged table as the accepted COMMIT checked it, its LAST and RST_OFS
  nextLast : Nat := 0
  nextOfs : Nat := 0
  dlyTo   : Nat := 0  -- the first sampling instant behind the delay slots in progress (R296)
  rstOf   : Option Nat := none  -- the boundary whose restart instant has been taken (R297)
  lastS   : Nat := 0  -- sampling instant of the last conversion, and the first of the run of slots without a free one (R295)
  runFrom : Nat := 0
  bgAt    : SMap Nat := []  -- when slice s last moved by a step, plus 1 (R295)
  trigAt  : Nat := 0  -- the first instant that the next atomizer trigger may have (R306)
  inj     : List (Nat × Nat × Nat) := []  -- queued requests: channel, tag, when queued
  cal     : Nat := 0  -- 0 none, 1 waits for the queue, 2 runs
  calWait : Nat := 0  -- requests still ahead of it
  startAt : Nat := 0  -- when it was started
  calAt   : Nat := 0  -- when its next run of chunks begins, or began (R310)
  chunks  : Nat := 0  -- chunks completed before that
  dlyLeft : Nat := 0  -- what it leaves of the delay in progress
  rstP    : Bool := false  -- a restart instant waits for injections or a calibration
  accs    : SMap AdcAcc := []
  plaus   : Option (Int × Nat) := none  -- latest plausibility conversion: code, instant
  plausAt : Nat := 0  -- in group A: when the last comparison was made, or comparing began (R313)
  snap    : SMap (Word × Word) := []  -- control results in the system domain: result, stamp
  deriving DecidableEq, Repr

/-- The comparators beside their registers (R314 to R319). -/
structure Cmp where
  maskM : BitVec 8 := 0  -- main halves that do not guard
  maskS : BitVec 8 := 0  -- shadow halves that do not guard
  thP   : BitVec 8 := 0  -- the main half has still to take the thresholds
  thM   : SMap Word := []  -- CMP_TH_n as the main half has it in force (R316)
  deriving DecidableEq, Repr

/-- The temperature monitor beside its registers (R320 to R323). -/
structure Tmon where
  broken : Nat := 0  -- consecutive broken, intact and hot samples
  intact : Nat := 0
  hot    : Nat := 0
  sum    : Int := 0  -- intact samples of the window
  cnt    : Nat := 0
  prev   : Option (Int × Nat) := none  -- sum and count of the window before
  deriving DecidableEq, Repr

/-- A latch on its way to the flacon (R346): record, register image, and whether the image is written. -/
structure MetRec where
  kind : Nat
  rseq : Nat
  data : List Byte
  img  : List Byte
  putImg : Bool
  deriving DecidableEq, Repr

/-- The metering engine and its flacon beside their registers (R328 to R362). Energies in 2^-32 mWh, samples in 2^-48 primary units. -/
structure Met where
  on      : Bool := false  -- metering has started (R357)
  ready   : Nat := 0  -- line cycles still to run before SYS_READY.MET
  raw     : List (Nat × Nat × Int) := []  -- conversions not yet binned: input, bin, code in 2^-28
  xs      : SMap (List Int) := []  -- samples of each input, newest first
  seg     : SMap Nat := []  -- segment of each current input
  vi      : SMap Int := []  -- sum of v × i of the cycle, per element
  sq      : SMap Nat := []  -- sum of squares of the cycle, of the half cycle, of the one before, of the window, per input
  n       : Nat := 0  -- bins of each
  bin     : Nat := 0  -- the metering bin in progress (R331)
  cyc     : SMap (List Int) := []  -- corrected samples of the cycle of each input, newest first (R337)
  win     : SMap (List Int) := []  -- resampled points of the harmonic window of each input (R340)
  ampOk   : Bool := false  -- the reference's fundamental was at least 655 codes over the last cycle (R335)
  crossT  : Nat := 0  -- the last crossing seen while FREQ_NOM is set, and since when the reference has been valid (R336)
  okFrom  : Option Nat := none
  hq      : SMap Nat := []
  hn      : Nat := 0
  hq1     : SMap Nat := []
  hn1     : Nat := 0
  wq      : SMap Nat := []
  wn      : Nat := 0
  wc      : Nat := 0  -- cycles of the window
  lastT   : Nat := 0  -- last cycle end, ns
  e       : SMap Nat := []  -- energy registers
  dq      : SMap Nat := []  -- what the last cycle added, and its duration
  dT      : Nat := 0
  eAt     : SMap Nat := []  -- registers and pulse counters at the last latch
  pAt     : SMap Nat := []
  ibase   : SMap Nat := []  -- registers at the last interval restart
  iseq    : Nat := 0
  irstP   : Bool := false
  armed   : Bool := false
  forced  : Bool := false
  cycN    : Nat := 0  -- line cycles since the last latch, and their duration
  cycT    : Nat := 0
  gap     : Nat := 0  -- gap of the interval, ns
  gapBin  : Bool := false  -- a bin of the interval lacked a conversion (R332)
  off     : Bool := false  -- METER's switch-off was requested: nothing accumulates any more (R65, R355)
  calGap  : SMap Nat := []  -- gap of the calibration of a group that runs, ns, plus 1
  nomF    : Bool := false  -- the interval ran on the nominal timer
  pbrk    : BitVec 8 := 0
  imgAt   : Nat := 0  -- instant of the last register image
  imgSeq  : Nat := 0  -- its ISEQ
  unlock  : Option Nat := none  -- MET_UNLOCK was written at
  stopAt  : Nat := 0  -- when PFW_N stopped accumulation
  hseq    : Nat := 0
  recs    : List MetRec := []
  susp    : BitVec 8 := 0  -- pulse inputs that do not count (R360)
  pacc    : SMap Nat := []  -- pulse output accumulators and pending pulses
  ppend   : SMap Nat := []
  pend    : SMap Nat := []  -- the pulse at POUTn falls, device time in ns (R361)
  vSect   : Nat := 0  -- next sector to verify
  rsect   : Option Nat := none  -- current sectors and next slots of the two logs
  rslot   : Nat := 0
  esect   : Option Nat := none
  eslot   : Nat := 0
  claim   : Option Nat := none  -- the ring sector claimed last, and its SSEQ
  sseq    : Nat := 0
  deriving DecidableEq, Repr

/-- The supervisor's core and system registers (R222, R258 to R262, R486 to R492). -/
structure Sup where
  regs   : Regs := {}
  pc     : Nat := 0
  hold   : Bool := false  -- HALT has stopped issue (R244)
  sys    : Bool := true  -- PSR.SYS, IE, SATF; P stands in `regs`
  ie     : Bool := false
  satf   : Bool := false
  e0     : Loop := {}  -- E copies of the loop registers (R261)
  e1     : Loop := {}
  cyc    : Nat := 0  -- CYCLE, and its high word as the last LO read latched it
  cycHi  : Nat := 0
  sysr   : SMap Word := []  -- the other system registers by number
  warned : Bool := false  -- the watchdog warned in this kick interval (R491)
  rdy    : SMap Nat := []  -- CYCLE at which the result of a multiply or a load can be used: register n, accumulator 16 + n (R257)
  deriving DecidableEq, Repr

/-- The devices beside the supervisor (R498 to R509). -/
structure Periph where
  rxq   : List Byte := []  -- UART FIFOs; past 16 entries of `txq` stand writes that stall their masters (R505)
  txq   : List Byte := []
  rails : List (Nat × Bool × Nat) := []  -- rail steps still to make: rail, enable, delay in 10 us (R507)
  pmbOp : Option Word := none  -- the PMBus transaction in progress (R508)
  qspi  : Option Word := none  -- the flash transaction in progress (R509)
  flash : Nat := 0  -- flash transactions with WRITE made (model's own: the flash's contents stand outside)
  deriving DecidableEq, Repr

/-- Everything of the device but the queue of commands and the pins. -/
structure Dev where
  fm       : Bool := false  -- SV9144-FM (R1)
  twinId   : Bool := false  -- TWIN_ID strap
  regs     : SMap Word := []  -- every register, by bus address (RegMap.lean)
  mem      : List Host.Cell := []  -- every RAM and the flacon, by bus address; unlisted bytes read 0 (R60; DESIGN CHOICE for the rest, notes/assumptions/6)
  ecc      : SMap Nat := []  -- upset words of the protected memories: 1 single, 2 double (R54)
  shadow   : SMap Nat := []  -- high words latched per master and address (key 2^32 × master + address), plus 1 (R45)
  scrubPos : SMap Nat := []  -- next word of scrub class m (R56)
  outbox   : List Out := []  -- what left on the wires, newest first
  busResp  : BusResp := ⟨0, 0⟩  -- what the last bus access answered (R47)
  freeCtr  : Nat := 0  -- argument of the next free value (model's own)
  tb       : TimeBase := {}
  pwr      : Power := {}
  amb      : Amber := {}
  fc       : FaultCol := {}
  pdrvLow  : Bool := false  -- the pre-driver supply is below its lock-out level (R387)
  grdyBad  : BitVec 16 := 0  -- GRDY[j] has been low for GFILT us (R387)
  gates    : SMap Gate := []  -- local legs L0 to L7
  rearmP   : Bool := false  -- an accepted REARM waits for its boundary (R215)
  atm      : Atm := {}
  lanes    : SMap Lane := []  -- 0 to 23 ring ports, 24 and 25 twin lanes
  ports    : SMap Port := []
  cells    : SMap Cell := []
  safe     : Safe := {}
  clk      : Clk := {}
  servos   : SMap Servo := []  -- 0 A, 1 B
  tsrv     : TimeSrv := {}
  boot     : Boot := {}
  twin     : Twin := {}
  net      : Net := {}
  engs     : SMap Eng := []  -- AE0 to AE7
  xq       : List (Nat × Nat × Nat × Word) := []  -- exchange writes in flight: cycle, engine, address, word (R240)
  outQ     : List OutW := []  -- outputs in flight
  sorts    : SMap SortU := []
  sils     : SMap Sil := []
  img      : SMap Word := []  -- the engines' input image by byte address (R247)
  fused    : SMap Word := []  -- fused registers of the SV9144-FM by address (R301, R329, R368)
  fmCal    : Bool := true  -- the fused calibration agrees with its fused CRC (R365)
  adcs     : SMap Adc := []  -- 0 A, 1 B
  cmp      : Cmp := {}
  tmon     : Tmon := {}
  met      : Met := {}
  sup      : Sup := {}
  per      : Periph := {}
  snap     : SMap (Word × Word) := []  -- as at the last boundary: result and time of entry 32 g + e (R22), under 64 GATE_STAT, under 65 device time
  deriving DecidableEq, Repr

/-- The pins that follow from the state without a clock of their own; recomputed after every command. -/
structure Pins where
  gout : BitVec 16                 -- GOUT0 to GOUT15 (R208, R215, R387)
  sout : BitVec 4                  -- SOUT0 to SOUT3 energised (R390)
  errN : Bool                      -- ERR_N driven low (R384)
  arb  : Bool                      -- TWIN_ARB_OUT
  tp      : BitVec 2 := 0          -- TPA and TPB between their pulses (R395)
  laneTx  : BitVec 26 := 0         -- the transmitter of RPn, from 24 on of the twin lanes, is not in electrical idle
  ethTx   : BitVec 4 := 0          -- that of En
  pmicEn  : BitVec 6 := 0          -- PMIC_EN0 to PMIC_EN5 (R67)
  pout    : BitVec 4 := 0          -- POUT0 to POUT3 (R361)
  pps     : Bool := false          -- PPS_OUT (R455)
  syncOut : Bool := false          -- SYNC_OUT (R203)
  gpioDrv : BitVec 16 := 0         -- GPIOn is driven (R506)
  gpio    : BitVec 16 := 0         -- to this level
  pmb     : Bool := false          -- PMB_SCL and PMB_SDA are not released: a transaction runs (R508)
  qspiDrv : Bool := false          -- the QSPI chip select is driven
  qspiSel : Bool := false          -- it selects the flash: a transaction runs (R509)
  floats  : Bool := false          -- the device is unpowered, or the TAP holds HIGHZ: every output is high-impedance, its level the board's (R78, R504)
  deriving DecidableEq, Repr

/-- The block: its queue of waiting commands, first in, first out, its device, its pins. -/
structure State where
  pending : List Instr
  dev     : Dev
  pins    : Pins
  deriving DecidableEq, Repr

/-- The device in the supply reset that begins the first power-up (R80): every field at its reset value. DESIGN CHOICE, unsafe, where the
spec gives none: notes/assumptions/6 to 9. -/
def Dev.reset : Dev := {}

/-- The machine right after reset: no command waits, the main supplies have still to be reported good, ERR_N is driven low and every
other pin of `Pins` is low or high-impedance (R78). -/
def State.reset : State := { pending := [], dev := Dev.reset, pins := { gout := 0, sout := 0, errN := true, arb := false, floats := true } }

end Sys2Proof.Machine
end

