-- ==== Sys2Proof/Machine/Upd.lean ====
section
/-! DEFINITION. The named updates of the device: one component replaced, every other as it was. -/

namespace Sys2Proof.Machine

def Dev.putFm (v : Bool) (d : Dev) : Dev := { d with fm := v }
def Dev.putTwinId (v : Bool) (d : Dev) : Dev := { d with twinId := v }
def Dev.putRegs (v : SMap Word) (d : Dev) : Dev := { d with regs := v }
def Dev.putMem (v : List Host.Cell) (d : Dev) : Dev := { d with mem := v }
def Dev.putEcc (v : SMap Nat) (d : Dev) : Dev := { d with ecc := v }
def Dev.putShadow (v : SMap Nat) (d : Dev) : Dev := { d with shadow := v }
def Dev.putScrubPos (v : SMap Nat) (d : Dev) : Dev := { d with scrubPos := v }
def Dev.putOutbox (v : List Out) (d : Dev) : Dev := { d with outbox := v }
def Dev.putBusResp (v : BusResp) (d : Dev) : Dev := { d with busResp := v }
def Dev.putFreeCtr (v : Nat) (d : Dev) : Dev := { d with freeCtr := v }
def Dev.putTb (v : TimeBase) (d : Dev) : Dev := { d with tb := v }
def Dev.putPwr (v : Power) (d : Dev) : Dev := { d with pwr := v }
def Dev.putAmb (v : Amber) (d : Dev) : Dev := { d with amb := v }
def Dev.putFc (v : FaultCol) (d : Dev) : Dev := { d with fc := v }
def Dev.putPdrvLow (v : Bool) (d : Dev) : Dev := { d with pdrvLow := v }
def Dev.putGrdyBad (v : BitVec 16) (d : Dev) : Dev := { d with grdyBad := v }
def Dev.putGates (v : SMap Gate) (d : Dev) : Dev := { d with gates := v }
def Dev.putRearmP (v : Bool) (d : Dev) : Dev := { d with rearmP := v }
def Dev.putAtm (v : Atm) (d : Dev) : Dev := { d with atm := v }
def Dev.putLanes (v : SMap Lane) (d : Dev) : Dev := { d with lanes := v }
def Dev.putPorts (v : SMap Port) (d : Dev) : Dev := { d with ports := v }
def Dev.putCells (v : SMap Cell) (d : Dev) : Dev := { d with cells := v }
def Dev.putSafe (v : Safe) (d : Dev) : Dev := { d with safe := v }
def Dev.putClk (v : Clk) (d : Dev) : Dev := { d with clk := v }
def Dev.putServos (v : SMap Servo) (d : Dev) : Dev := { d with servos := v }
def Dev.putTsrv (v : TimeSrv) (d : Dev) : Dev := { d with tsrv := v }
def Dev.putBoot (v : Boot) (d : Dev) : Dev := { d with boot := v }
def Dev.putTwin (v : Twin) (d : Dev) : Dev := { d with twin := v }
def Dev.putNet (v : Net) (d : Dev) : Dev := { d with net := v }
def Dev.putEngs (v : SMap Eng) (d : Dev) : Dev := { d with engs := v }
def Dev.putXq (v : List (Nat × Nat × Nat × Word)) (d : Dev) : Dev := { d with xq := v }
def Dev.putOutQ (v : List OutW) (d : Dev) : Dev := { d with outQ := v }
def Dev.putSorts (v : SMap SortU) (d : Dev) : Dev := { d with sorts := v }
def Dev.putSils (v : SMap Sil) (d : Dev) : Dev := { d with sils := v }
def Dev.putImg (v : SMap Word) (d : Dev) : Dev := { d with img := v }
def Dev.putFused (v : SMap Word) (d : Dev) : Dev := { d with fused := v }
def Dev.putFmCal (v : Bool) (d : Dev) : Dev := { d with fmCal := v }
def Dev.putAdcs (v : SMap Adc) (d : Dev) : Dev := { d with adcs := v }
def Dev.putCmp (v : Cmp) (d : Dev) : Dev := { d with cmp := v }
def Dev.putTmon (v : Tmon) (d : Dev) : Dev := { d with tmon := v }
def Dev.putMet (v : Met) (d : Dev) : Dev := { d with met := v }
def Dev.putSup (v : Sup) (d : Dev) : Dev := { d with sup := v }
def Dev.putPer (v : Periph) (d : Dev) : Dev := { d with per := v }
def Dev.putSnap (v : SMap (Word × Word)) (d : Dev) : Dev := { d with snap := v }

end Sys2Proof.Machine
end

