-- ==== Sys2Proof/Machine/Ops.lean ====
section
/-! DEFINITION. The named operations over registers, memory, lanes, cells, time and pins that every meaning uses. -/

namespace Sys2Proof.Machine

/-! ### Masters and bus errors -/

/-- The number of a master in SCRUB_BERR_INFO.MASTER (R57). -/
def masterNum : Master → Nat
  | .supv => 0 | .debug => 1 | .mover => 2 | .meter => 3 | .bridge => 4 | .scrub => 5

/-! ### Numbers -/

/-- The two's-complement reading of the low `w` bits (R10). -/
def sext (w v : Nat) : Int := let u := v % 2 ^ w; if u < 2 ^ (w - 1) then (u : Int) else (u : Int) - 2 ^ w

/-- The low `w` bits of an integer. -/
def low (w : Nat) (i : Int) : Nat := (i % (2 ^ w : Int)).toNat

/-- Clamps to a range. -/
def clampI (lo hi i : Int) : Int := if i < lo then lo else if hi < i then hi else i

/-- `a / b` to the nearest integer, halves up (R187). -/
def rnd (a b : Int) : Int := (2 * a + b) / (2 * b)

/-- A Boolean as a number. -/
def b2n (b : Bool) : Nat := if b then 1 else 0

/-- Bit `i` of a number. -/
def nbit (v i : Nat) : Bool := v / 2 ^ i % 2 == 1

/-- Field of `w` bits from bit `lo` of a word. -/
def fieldOf (v : Word) (lo w : Nat) : Nat := v.toNat / 2 ^ lo % 2 ^ w

/-- A word with the field of `w` bits from bit `lo` replaced. -/
def putField (v : Word) (lo w x : Nat) : Word :=
  let m : Word := BitVec.ofNat 32 ((2 ^ w - 1) * 2 ^ lo)
  (v &&& ~~~m) ||| (BitVec.ofNat 32 (x * 2 ^ lo) &&& m)

/-- A word from an integer. -/
def wordI (i : Int) : Word := BitVec.ofInt 32 i

/-- Runs `f 0`, `f 1`, ..., `f (n - 1)` in order. -/
def forN {α : Type} (n : Nat) (f : Nat → α → α) (a : α) : α := (List.range n).foldl (fun a i => f i a) a

/-- Runs `f` where the condition holds. -/
def when' {α : Type} (b : Bool) (f : α → α) (a : α) : α := if b then f a else a

/-! ### Registers -/

/-- The stored value of the register at a bus address. -/
def Dev.rd (d : Dev) (a : Nat) : Word := SMap.getD d.regs (regReset a) a

/-- Stores a register. -/
def Dev.wr (a : Nat) (v : Word) (d : Dev) : Dev := d.putRegs (SMap.put d.regs (regReset a) a v)

/-- 64 bits of two registers. -/
def Dev.pair (d : Dev) (lo hi : Nat) : Nat := (d.rd hi).toNat * 2 ^ 32 + (d.rd lo).toNat

/-- A field of a register as a number. -/
def Dev.fld (d : Dev) (a lo w : Nat) : Nat := fieldOf (d.rd a) lo w

/-- Stores a field of a register. -/
def Dev.setF (a lo w x : Nat) (d : Dev) : Dev := d.wr a (putField (d.rd a) lo w x)

/-- A bit of a register. -/
def Dev.bit (d : Dev) (a i : Nat) : Bool := (d.rd a).getLsbD i

/-- Stores a bit of a register. -/
def Dev.setB (a i : Nat) (b : Bool) (d : Dev) : Dev := d.setF a i 1 (b2n b)

/-- Sets the bits of a mask in a register. -/
def Dev.orW (a : Nat) (m : Word) (d : Dev) : Dev := d.wr a (d.rd a ||| m)

/-- Clears the bits of a mask in a register. -/
def Dev.andNot (a : Nat) (m : Word) (d : Dev) : Dev := d.wr a (d.rd a &&& ~~~m)

/-- Counts one in a counter of `w` bits that saturates. -/
def Dev.inc (a w : Nat) (d : Dev) : Dev :=
  let v := d.fld a 0 w
  if v + 1 < 2 ^ w then d.setF a 0 w (v + 1) else d

/-- Counts `n` in a 32-bit counter that saturates at 0xFFFF_FFFF. -/
def Dev.incBy (a n : Nat) (d : Dev) : Dev := d.wr a (BitVec.ofNat 32 (min (2 ^ 32 - 1) ((d.rd a).toNat + n)))

/-- A register written by software under its access masks (R6): RW bits take the datum, a 1 clears a W1C bit and sets a W1S bit. -/
def Dev.genWrite (a : Nat) (v : Word) (d : Dev) : Dev :=
  match findReg a with
  | none => d
  | some k =>
    let o := d.rd a
    d.wr a ((((o &&& ~~~k.rw) ||| (v &&& k.rw)) &&& ~~~(v &&& k.w1c)) ||| (v &&& k.w1s))

/-- The register at its reset value. -/
def Dev.clr (a : Nat) (d : Dev) : Dev := d.wr a (regReset a)

/-! ### Indexed state -/

def Dev.lane (d : Dev) (n : Nat) : Lane := SMap.getD d.lanes {} n
def Dev.setLane (n : Nat) (f : Lane → Lane) (d : Dev) : Dev := d.putLanes (SMap.put d.lanes {} n (f (d.lane n)))
def Dev.port (d : Dev) (n : Nat) : Port := SMap.getD d.ports {} n
def Dev.setPort (n : Nat) (f : Port → Port) (d : Dev) : Dev := d.putPorts (SMap.put d.ports {} n (f (d.port n)))
def Dev.cell (d : Dev) (c : Nat) : Cell := SMap.getD d.cells {} c
def Dev.setCell (c : Nat) (f : Cell → Cell) (d : Dev) : Dev := d.putCells (SMap.put d.cells {} c (f (d.cell c)))
def Dev.gate (d : Dev) (k : Nat) : Gate := SMap.getD d.gates {} k
def Dev.setGate (k : Nat) (f : Gate → Gate) (d : Dev) : Dev := d.putGates (SMap.put d.gates {} k (f (d.gate k)))
def Dev.leg (d : Dev) (n : Nat) : Leg := SMap.getD d.atm.legs {} n
def Dev.setLeg (n : Nat) (f : Leg → Leg) (d : Dev) : Dev :=
  d.putAtm { d.atm with legs := SMap.put d.atm.legs {} n (f (d.leg n)) }
def Dev.servo (d : Dev) (n : Nat) : Servo := SMap.getD d.servos {} n
def Dev.setServo (n : Nat) (f : Servo → Servo) (d : Dev) : Dev := d.putServos (SMap.put d.servos {} n (f (d.servo n)))

/-- Adds what left on the wires. -/
def Dev.send (o : Out) (d : Dev) : Dev := d.putOutbox (o :: d.outbox)

/-- Moves on to the next free value. -/
def Dev.nextFree (d : Dev) : Dev := d.putFreeCtr (d.freeCtr + 1)

/-! ### Memory -/

/-- A byte of memory as stored; unlisted bytes read 0 (R60). -/
def memByte (m : List Host.Cell) (a : Nat) : Byte := SMap.getD m 0 a

/-- Stores a byte of memory. -/
def memPut (m : List Host.Cell) (a : Nat) (v : Byte) : List Host.Cell := SMap.put m 0 a v

/-- The canonical form of memory: addresses rise strictly and no entry is 0. -/
def Memory.wf (m : List Host.Cell) : Bool := SMap.wf (fun _ => (0 : Byte)) m

/-- A little-endian value of `n` bytes (R11). -/
def memRead (m : List Host.Cell) (a : Nat) : Nat → Nat
  | 0 => 0
  | n + 1 => (memByte m a).toNat + 256 * memRead m (a + 1) n

/-- Stores a little-endian value of `n` bytes (R11). -/
def memWrite (m : List Host.Cell) (a : Nat) : Nat → Nat → List Host.Cell
  | 0, _ => m
  | n + 1, v => memWrite (memPut m a (BitVec.ofNat 8 v)) (a + 1) n (v / 256)

/-- Stores bytes in order. -/
def memBytes (m : List Host.Cell) (a : Nat) : List Byte → List Host.Cell
  | [] => m
  | b :: bs => memBytes (memPut m a b) (a + 1) bs

def Dev.mrd (d : Dev) (a n : Nat) : Nat := memRead d.mem a n

/-- A write of RAM; a word wholly written has good check bits again (R54). -/
def Dev.mwr (a n v : Nat) (d : Dev) : Dev :=
  (d.putMem (memWrite d.mem a n v)).putEcc (d.ecc.filter fun e => !(decide (a ≤ e.1) && decide (e.1 + 4 ≤ a + n)))

/-! ### Wire fields, most significant byte first (R12) -/

/-- The number a list of bytes spells, first byte most significant. -/
def beVal : List Byte → Nat := List.foldl (fun v b => 256 * v + b.toNat) 0

/-- `n` bytes of a number, most significant first. -/
def beBytes : Nat → Nat → List Byte
  | 0, _ => []
  | n + 1, v => BitVec.ofNat 8 (v / 256 ^ n) :: beBytes n v

/-- `n` bytes of a number, least significant first (R11). -/
def leBytes : Nat → Nat → List Byte
  | 0, _ => []
  | n + 1, v => BitVec.ofNat 8 v :: leBytes n (v / 256)

/-- Byte `i` of a list, 0 past its end. -/
def byteAt (l : List Byte) (i : Nat) : Nat := ((l.drop i).head?.map (·.toNat)).getD 0

/-- `n` bytes from byte `i`, most significant first, as a number. -/
def fieldAt (l : List Byte) (i n : Nat) : Nat := beVal ((l.drop i).take n)

/-- `n` bytes from byte `i`, least significant first, as a number (R11). -/
def fieldLe (l : List Byte) (i n : Nat) : Nat := beVal ((l.drop i).take n).reverse

/-- The eight bytes of a block's payload, byte 0 first. -/
def payloadBytes (p : BitVec 64) : List Byte := beBytes 8 p.toNat

/-! ### Time -/

/-- Device time in whole nanoseconds (R8). -/
def Dev.now (d : Dev) : Nat := d.tb.dt / 2 ^ 48

/-- Device time moved up to an instant; it never moves back. -/
def Dev.advTo (t : Nat) (d : Dev) : Dev :=
  if d.now < t then (d.putTb { d.tb with dt := t * 2 ^ 48 }) else d

/-- ENG_START and OUT_PHASE of the period in progress do not occur any more (R448, R438). Where its engines already run, no OUT_PHASE comes
for what they write. -/
def Dev.dropPhases (d : Dev) : Dev :=
  d.putTb { d.tb with engAt := none, outAt := none, outSkip := d.tb.outSkip || (d.tb.engAt.isNone && d.tb.outAt.isSome) }

/-- The first instant from `b` on at which (t - A) mod P = 0 (R14). -/
def gridFrom (b a p : Nat) : Nat := b + (p - (b + (p - a % p)) % p) % p

/-- The next boundary (R14, R536). -/
def Dev.nextBoundary (d : Dev) : Nat := gridFrom d.tb.notBefore d.tb.anchor d.tb.tP

/-- The next instant of the period sequencer. -/
def Dev.nextSeq (d : Dev) : Nat :=
  match d.tb.engAt, d.tb.outAt with
  | some e, some o => min (min e o) d.nextBoundary
  | some e, none => min e d.nextBoundary
  | none, some o => min o d.nextBoundary
  | none, none => d.nextBoundary

/-- An event that the device itself places at `t`: due where the sequencer has no instant before it, and device time is there with it; while
device time stands still, at the sender's word (notes/assumptions/11). -/
def Dev.dueAt (t : Nat) (f : Dev → Dev) (d : Dev) : Dev :=
  if !d.tb.counting then f d else if d.nextSeq < t then d else f (d.advTo t)

/-! ### Domains and readiness -/

/-- Whether a domain is on and answers (R59, R60, R87). -/
def Dev.domainOn (d : Dev) (i : Nat) : Bool :=
  if i == 0 then d.amb.powered && d.pwr.safeOn else d.pwr.safeOn && d.bit Reg.SYS_PWR_STAT i

/-- What befalls the SAFE domain while it is held in reset has no effect (R83). -/
def Dev.inSafe (f : Dev → Dev) (d : Dev) : Dev := if d.pwr.safeOn then f d else d

/-- What befalls a domain that is switched off has no effect (R60, R61). -/
def Dev.inDomain (i : Nat) (f : Dev → Dev) (d : Dev) : Dev := if d.domainOn i then f d else d

/-- What needs the lane clocks has no effect while RING is off or SYN1 is gated (R60, R438). -/
def Dev.inLanes (f : Dev → Dev) (d : Dev) : Dev := if d.domainOn 4 && d.bit Reg.CLK_STAT 1 then f d else d

/-- What needs the Ethernet clocks has no effect while NET is off or SYN1 is gated (R60, R438). -/
def Dev.inNet (f : Dev → Dev) (d : Dev) : Dev := if d.domainOn 5 && d.bit Reg.CLK_STAT 1 then f d else d

/-- What needs the converter clock has no effect while ANALOG is off or SYN2 is gated (R60, R438). -/
def Dev.inConv (f : Dev → Dev) (d : Dev) : Dev := if d.domainOn 6 && d.bit Reg.CLK_STAT 2 then f d else d

/-- Sets or clears a SYS_READY bit; a change sets its bit of SYS_READY_EVT. -/
def Dev.setReady (i : Nat) (b : Bool) (d : Dev) : Dev :=
  if d.bit Reg.SYS_READY i == b then d
  else (d.setB Reg.SYS_READY i b).setB Reg.SYS_READY_EVT i true

/-- The atomizer runs, or has been asked to and has not stopped (R19, R64, R440). -/
def Dev.atmRuns (d : Dev) : Bool := d.bit Reg.ATM_CTL 0 || d.atm.running

/-- The lane state of a ring port or twin lane (R107). -/
def laneReg (n off : Nat) : Nat := if n < 24 then Reg.RING_CTL n + off else Reg.TWL_CTL (n - 24) + off
def Dev.lstate (d : Dev) (n : Nat) : Nat := d.fld (laneReg n 4) 0 3

/-- A ring port is in RUN (R131). -/
def Dev.inRun (d : Dev) (p : Nat) : Bool := d.lstate p == 4

/-- Some ring port is in RUN. -/
def Dev.anyRun (d : Dev) : Bool := (List.range 24).any d.inRun

/-- The state of a cell, CELL_STAT.STATE: 0 ABSENT, 1 DISCOVERED, 2 SPARE, 3 ACTIVE, 4 BYPASSED, 5 LOST. -/
def Dev.cellState (d : Dev) (c : Nat) : Nat := d.fld (Reg.CELL_STAT c) 0 3

/-- The cells of the cell table. -/
def cellIds : List Nat := List.range 144

/-- The cell mapped to a ring and position (R176). -/
def Dev.cellAt (d : Dev) (ring pos : Nat) : Option Nat :=
  if pos == 0 then none
  else cellIds.find? fun c => d.fld (Reg.CELL_MAP c) 8 4 == pos && d.fld (Reg.CELL_MAP c) 0 5 == ring

/-! ### Bus errors and register accesses -/

/-- Debug has bus access: policy OPEN, or GRANTED with a grant (R501). -/
def Dev.debugOk (d : Dev) : Bool := d.boot.policy == 0 || (d.boot.policy == 1 && d.boot.granted)

/-- An access ends with a bus error: it reads zero, and it is logged, or sets OVF where the log is in use (R47, R48). -/
def Dev.busError (code : Nat) (m : Master) (wr : Bool) (addr : Nat) (d : Dev) : Dev :=
  let d := d.putBusResp ⟨0, code⟩
  if d.bit Reg.SCRUB_BERR_INFO 8 then d.setB Reg.SCRUB_BERR_INFO 9 true
  else (d.wr Reg.SCRUB_BERR_ADDR (BitVec.ofNat 32 addr)).setF Reg.SCRUB_BERR_INFO 0 9
    (code % 16 + 16 * masterNum m + 128 * b2n wr + 256)

/-- The power domain of a register address. -/
def regDomain (a : Nat) : Nat := ((findBlock a).map (·.domain)).getD 1

/-- A 32-bit write of a master to a register: DEBUG_DENIED, then DOMAIN_OFF (R47), else the write's own effect. -/
def Dev.viaBus (m : Master) (a : Nat) (f : Dev → Dev) (d : Dev) : Dev :=
  if m == .debug && !d.debugOk then d.busError 7 m true a
  else if !d.domainOn (regDomain a) then d.busError 4 m true a
  else (f d).putBusResp ⟨0, 0⟩

/-! ### Pins -/

/-- Levels at the gate pins of a leg: high channel, low channel. A tripped, cut or interlocked leg, one that is not enabled, every leg
without pre-driver supply, and every leg during a claim from SEEK is low (R213 to R216, R387, R407). -/
def Dev.gatePins (d : Dev) (k : Nat) : Bool × Bool :=
  let g := d.gate k
  let free := g.en && !d.pdrvLow && d.twin.claimAt.isNone && !d.bit Reg.GATE_STAT k && !d.bit Reg.GATE_STAT (8 + k) && !d.bit Reg.GATE_STAT (16 + k)
  (free && g.on == .high, free && g.on == .low)

/-- The level of GOUTj. -/
def Dev.gout (d : Dev) (j : Nat) : Bool := if j % 2 == 0 then (d.gatePins (j / 2)).1 else (d.gatePins (j / 2)).2

/-- Pair `p` demands: either of its channels demands (R394). -/
def Dev.pairDemands (d : Dev) (p : Nat) : Bool := d.safe.demand.getLsbD (2 * p) || d.safe.demand.getLsbD (2 * p + 1)

/-- SOUTn is energised (R390). -/
def Dev.sout (d : Dev) (n : Nat) : Bool :=
  d.safe.state == 3 && !d.safe.chanDis && d.bit (Reg.SAFE_OUT n) 0 && d.bit Reg.SAFE_OUT_REQ n &&
    (List.range 4).all fun p => !(d.bit (Reg.SAFE_OUT n) (4 + p) && d.pairDemands p)

/-- A bit vector from its bits. -/
def bitsOf (n : Nat) (f : Nat → Bool) : Nat := (List.range n).foldl (fun v i => v + b2n (f i) * 2 ^ i) 0

/-- The device drives GPIOn: DIR, and with OD only low (R506). -/
def Dev.gpioDrives (d : Dev) (n : Nat) : Bool := d.bit Reg.GPIO_DIR n && !(d.bit Reg.GPIO_OD n && d.bit Reg.GPIO_OUT n)

/-- The transmitter of a ring or twin lane sends: RING is on and the lane not OFF (R78, R107). -/
def Dev.laneSends (d : Dev) (n : Nat) : Bool := d.domainOn 4 && d.lstate n != 0

/-- SYNC_OUT pulses: the atomizer runs, cluster 0 is in carrier mode, EN is set (R203). -/
def Dev.syncOutOn (d : Dev) : Bool := d.atmRuns && !d.bit (Reg.ATM_CL_CTL 0) 0 && d.bit Reg.ATM_SYNC_OUT 0

/-- The pins that follow from the state (R78); while the TAP holds the debug reset, none is driven under HIGHZ, and under EXTEST and CLAMP they
follow the boundary register (R504). -/
def pinsOf (d : Dev) : Pins :=
  if d.pwr.dbgHeld && d.boot.tapIr == 5 then { gout := 0, sout := 0, errN := false, arb := false, floats := true }
  else if d.pwr.dbgHeld then
    let w := Config.scanCells d.boot.scan 0
    let v := Config.scanCells d.boot.scan 1
    let u := Config.scanCells d.boot.scan 2
    { gout := w.setWidth 16, sout := (w >>> 16).setWidth 4, errN := w.getLsbD 20, arb := w.getLsbD 21, tp := (w >>> 22).setWidth 2,
      pmicEn := (w >>> 24).setWidth 6, pps := w.getLsbD 30, syncOut := w.getLsbD 31, laneTx := v.setWidth 26, ethTx := (v >>> 26).setWidth 4,
      pmb := v.getLsbD 30, qspiDrv := true, qspiSel := v.getLsbD 31, gpio := u.setWidth 16, gpioDrv := (u >>> 16).setWidth 16,
      pout := (Config.scanCells d.boot.scan 3).setWidth 4 }
  else
    let bits (w : Nat) (f : Nat → Bool) : BitVec w := BitVec.ofNat w (bitsOf w f)
    { gout := BitVec.ofNat 16 (bitsOf 16 d.gout), sout := BitVec.ofNat 4 (bitsOf 4 d.sout), errN := d.fc.errn, arb := d.bit Reg.TWIN_STAT 4,
      tp := if d.pwr.safeOn && d.bit Reg.SAFE_TP 0 then 3 else 0, laneTx := bits 26 d.laneSends,
      ethTx := bits 4 fun n => d.domainOn 5 && d.bit (Reg.ETH_CTL n) 0, pmicEn := bits 6 fun i => d.bit Reg.PMIC_STAT i,
      pout := bits 4 fun n => decide (d.now < SMap.getD d.met.pend 0 n), pps := d.tsrv.ppsOut && decide (d.now < d.tsrv.ppsFall), syncOut := d.syncOutOn && decide (d.now < d.atm.syncEnd),
      gpioDrv := bits 16 d.gpioDrives, gpio := bits 16 fun n => d.bit Reg.GPIO_OUT n, pmb := d.per.pmbOp.isSome,
      qspiDrv := d.domainOn 2, qspiSel := d.per.qspi.isSome, floats := !d.pwr.mainGood }

/-- The state after a change of the device: the queue stays, the pins follow. -/
def State.upd (f : Dev → Dev) (s : State) : State := { s with dev := f s.dev, pins := pinsOf (f s.dev) }

/-- A command's effect: always a next state. -/
def run (f : Dev → Dev) (s : State) : Host.Outcome State Fault Refusal := .next (s.upd f)

end Sys2Proof.Machine
end

