-- ==== Sys2Proof/Machine/Crc.lean ====
section
/-! DEFINITION. The check values of the link: CRC-8 of short blocks (R133), CRC-16 of records and TRAIN blocks (R142, R111), CRC-32 of
frames (R138). -/

namespace Sys2Proof.Machine

/-- `n` steps of a CRC register of width `w`, most significant bit first, not reflected. -/
def crcShift (w poly : Nat) : Nat → Nat → Nat
  | 0, r => r
  | n + 1, r => crcShift w poly n (if nbit r (w - 1) then (2 * r % 2 ^ w) ^^^ poly else 2 * r % 2 ^ w)

/-- CRC over bytes, not reflected, no final XOR. -/
def crcMsb (w poly init : Nat) (bs : List Byte) : Nat :=
  bs.foldl (fun r b => crcShift w poly 8 (r ^^^ (b.toNat * 2 ^ (w - 8)))) init

/-- CRC-8 of TIME, PROBE and TRIP blocks: polynomial 0x07, initial value 0 (R133). -/
def crc8 (bs : List Byte) : Byte := BitVec.ofNat 8 (crcMsb 8 0x07 0 bs)

/-- CRC-16: polynomial 0x1021, initial value 0xFFFF (R111, R142). -/
def crc16 (bs : List Byte) : Nat := crcMsb 16 0x1021 0xFFFF bs

/-- `n` steps of the reflected CRC-32 register. -/
def crc32Shift : Nat → Nat → Nat
  | 0, r => r
  | n + 1, r => crc32Shift n (if r % 2 == 1 then (r / 2) ^^^ 0xEDB88320 else r / 2)

/-- CRC-32 with the IEEE 802.3 parameters (R138). -/
def crc32 (bs : List Byte) : Nat := (bs.foldl (fun r b => crc32Shift 8 (r ^^^ b.toNat)) 0xFFFFFFFF) ^^^ 0xFFFFFFFF

end Sys2Proof.Machine
end

