-- ==== Sys2Proof/Machine/Trip.lean ====
section
/-! DEFINITION. Raising a fault source, the fast path, and the reactions that other blocks share: the gate trip, TRIP STOP blocks,
the safety lock-out (R215, R374, R380 to R382, R397; spec/11_protection_safety.md). -/

namespace Sys2Proof.Machine

/-! ### Gate channels -/

/-- Two instants fall in one clock of 3.2 ns of the time base (R217). -/
def sameClock (a b : Nat) : Bool := 10 * a / 32 == 10 * b / 32

/-- Turns both channels of a leg off and cancels a pending turn-on, or one made in the same time-base clock, which sets CANCEL (R216,
R217). -/
def Dev.legOff (k : Nat) (d : Dev) : Dev :=
  let g := d.gate k
  let d := if g.pend == .off && !(g.en && g.on != .off && sameClock g.onAt d.now) then d else d.setB Reg.GATE_EVT (16 + k) true
  d.setGate k fun g =>
    { g with
      on := .off, pend := .off, offAt := if g.en then some d.now else g.offAt,
      hiOff := if g.on == .high then some d.now else g.hiOff,
      loOff := if g.on == .low then some d.now else g.loOff }

/-- Every local leg off. -/
def Dev.allOff (d : Dev) : Dev := forN 8 (fun k d => (d.legOff k).setB Reg.GATE_STAT (24 + k) false) d

/-- Every local leg off and tripped (R215); an accepted REARM that has not acted is void. -/
def Dev.gateTrip (d : Dev) : Dev :=
  let d := d.allOff.orW Reg.GATE_STAT 0xFF#32
  if d.rearmP then (d.setB Reg.GATE_EVT 24 true).putRearmP false else d

/-! ### TRIP blocks -/

/-- A TRIP block (R133, R134). -/
def tripBlock (code target unit tseq src : Nat) : List Byte :=
  let b := [0x55#8, BitVec.ofNat 8 code, BitVec.ofNat 8 (target % 16), BitVec.ofNat 8 (unit % 2), BitVec.ofNat 8 tseq, BitVec.ofNat 8 src, 0]
  b ++ [crc8 b]

/-- Sends a TRIP block on a port and counts it (RING_CNT_TRIP). -/
def Dev.sendTrip (p : Nat) (b : List Byte) (d : Dev) : Dev := (d.send (.block p b)).inc (Reg.RING_CNT_TRIP p) 32

/-- TSEQ advances by 1; repeats carry SRC and TSEQ of the block (R382). -/
def Dev.tripMark (src : Nat) (d : Dev) : Dev :=
  let q := (d.fc.tseq + 1) % 256
  (d.putFc { d.fc with tseq := q, trip := some (src, q), tripSrc := some src }).setF Reg.FC_STAT 8 8 q

/-- Launches the TRIP STOP block of an event on every ring port in RUN (R382). -/
def Dev.tripLaunch (src : Nat) (d : Dev) : Dev :=
  let d := d.tripMark src
  let b := tripBlock 0x5A 0 (b2n d.twinId) d.fc.tseq src
  forN 24 (fun p d => if d.inRun p then d.sendTrip p b else d) d

/-- The TRIP repeats that go before a frame on a port: the STOP of a held TRIP or HALT, and each FREEZE or BYPASS of software for its
16 frames (R160, R382). -/
def Dev.repeats (d : Dev) (p : Nat) : List (List Byte) :=
  let stop := if d.fc.hold < 2 then [] else
    match d.fc.trip with
    | some (src, q) => [tripBlock 0x5A 0 (b2n d.twinId) q src]
    | none => []
  stop ++ (d.port p).swTrips.map (·.1)

/-- Sends them; a software block has one repeat less left. -/
def Dev.tripRepeat (p : Nat) (d : Dev) : Dev :=
  ((d.repeats p).foldl (fun d b => d.sendTrip p b) d).setPort p fun q =>
    { q with swTrips := (q.swTrips.map fun t => (t.1, t.2 - 1)).filter fun t => t.2 != 0 }

/-! ### Frames -/

/-- TWIN_STAT.ROLE: 0 OFF, 1 SEEK, 2 HOLDER, 3 SYNCING, 4 STANDBY. -/
def Dev.role (d : Dev) : Nat := d.fld Reg.TWIN_STAT 0 3

/-- TWIN_STAT.EPOCH, the epoch of the frames this unit sends. -/
def Dev.epoch (d : Dev) : Nat := d.fld Reg.TWIN_STAT 16 8

/-- The TWIN_ID that HOLDER names (R137): this unit while it holds command or stands alone, the other unit while that one commands. -/
def Dev.holderId (d : Dev) : Bool := if d.role == 3 || d.role == 4 then !d.twinId else d.twinId

/-- SOF bytes 1 to 7 of a frame this unit launches (R137). -/
def Dev.sof (d : Dev) (kind : Nat) (dir : Bool) (nslot : Nat) : List Byte :=
  [BitVec.ofNat 8 (16 * kind + 8 * b2n d.holderId), BitVec.ofNat 8 d.epoch] ++ beBytes 4 d.tb.k ++
    [BitVec.ofNat 8 (128 * b2n dir + 64 * b2n d.twinId + nslot)]

/-- A whole frame from its SOF bytes and data (R137, R138). -/
def mkFrame (sof data : List Byte) : Frame :=
  { sof := sof, data := data, fcrc := BitVec.ofNat 32 (crc32 (sof ++ data)), nblk := BitVec.ofNat 8 (data.length / 8), lost := false }

/-- The ring of a port, its end, its slots (R180). -/
def Dev.ringOf (d : Dev) (p : Nat) : Nat := d.fld (Reg.RING_LINK_CTL p) 8 5
def Dev.endB (d : Dev) (p : Nat) : Bool := d.bit (Reg.RING_LINK_CTL p) 1
def Dev.nslot (d : Dev) (p : Nat) : Nat := d.fld (Reg.RING_LINK_CTL p) 16 4

/-- t_blk in 1/80 ns: 25.6 ns in L1, 12.8 ns in L2. -/
def Dev.tBlk80 (d : Dev) (p : Nat) : Nat := if d.bit (Reg.RING_CTL p) 1 then 1024 else 2048

/-- Where the lane of a port is free, with `n` more blocks sent from now on. -/
def Dev.laneFree (d : Dev) (p n : Nat) : Nat := max (d.port p).busyTo (80 * d.now) + n * d.tBlk80 p

/-- `n` blocks take the lane of a port. -/
def Dev.laneTake (p n : Nat) (d : Dev) : Dev := let t := d.laneFree p n; d.setPort p fun q => { q with busyTo := t }

/-- The next scheduled block on the lanes: COMMAND from OUT_PHASE on, TIME at the boundary (R29). -/
def Dev.laneNext (d : Dev) : Nat :=
  let o := d.tb.bnd + d.tb.outPhase
  80 * (if d.atm.cmdDue then d.now else if d.now < o then min o d.nextBoundary else d.nextBoundary)

/-- `n` blocks, and the TRIP repeats before them, end before the next scheduled block (R29). -/
def Dev.gapFits (d : Dev) (p n : Nat) : Bool := !d.tb.inPeriod || decide (d.laneFree p (n + (d.repeats p).length) ≤ d.laneNext)

/-- Sends a frame on a port, with the TRIP repeats that go before it (R160). -/
def Dev.sendFrame (p : Nat) (sof data : List Byte) (d : Dev) : Dev :=
  ((d.laneTake p ((d.repeats p).length + 2 + data.length / 8)).tripRepeat p).send (.frame p (mkFrame sof data))

/-- The SERVICE frames of the device that wait go out in order, each where a gap holds it (R29, R169). -/
def Dev.svcFlush (p : Nat) (d : Dev) : Dev :=
  forN (d.port p).svcWait.length (fun _ d =>
    match (d.port p).svcWait with
    | [] => d
    | b :: rest =>
      if d.gapFits p (2 + b.length / 8) then (d.setPort p fun q => { q with svcWait := rest }).sendFrame p (d.sof 3 (d.endB p) 0) b else d) d

/-- A SERVICE frame of the device on a port, behind those that wait. -/
def Dev.svcSend (p : Nat) (data : List Byte) (d : Dev) : Dev := (d.setPort p fun q => { q with svcWait := q.svcWait ++ [data] }).svcFlush p

/-! ### The twin link -/

/-- Where the twin link is free, in 1/80 ns, with `n` more blocks sent from now on: a block every 3.2 ns on its two lanes (R122, R412). -/
def Dev.twinFree (d : Dev) (n : Nat) : Nat := max (d.port 24).busyTo (80 * d.now) + 256 * n

/-- `n` blocks take the twin link. -/
def Dev.twinTake (n : Nat) (d : Dev) : Dev := let t := d.twinFree n; d.setPort 24 fun q => { q with busyTo := t }

/-- ENG_START and OUT_PHASE of the period after this one, device time (R18). -/
def Dev.nextPhases (d : Dev) : Nat × Nat :=
  if d.tb.phPend then (d.nextBoundary + 10 * d.fld Reg.TIME_PHASES 0 16, d.nextBoundary + 10 * d.fld Reg.TIME_PHASES 16 16)
  else (d.nextBoundary + d.tb.engStart, d.nextBoundary + d.tb.outPhase)

/-- `n` blocks sent over the twin link are complete at the other unit before `t` (R35, R411). -/
def Dev.twinBy (d : Dev) (n t : Nat) : Bool := decide (d.twinFree n + 5 * d.fld Reg.TWIN_TL 0 16 < 80 * t)

/-- A valid block has come on a twin lane (R420). -/
def Dev.twinHeard (d : Dev) : Dev := d.putTwin { d.twin with blkAt := d.now }

/-- A frame comes in at a lane: one that a buffer error cut is discarded, one that another control block ended is bad (R104, R132). -/
def Dev.frameIn (n : Nat) (f : Frame) (take : Frame → Dev → Dev) (d : Dev) : Dev :=
  if !(d.domainOn 4 && d.bit Reg.CLK_STAT 1) then d else
  let st := (d.lane n).frm
  let d := d.setLane n fun l => { l with frm := 0 }
  let d : Dev := if n == 24 then d.twinHeard else d
  if st == 3 then d else take (if st == 2 then { f with lost := true } else f) d

/-! ### Sources -/

/-- The enable of a source: FC_EN, fixed for 91 and 92, absent from 102 on (R372, R373). -/
def Dev.srcEnabled (d : Dev) (i : Nat) : Bool :=
  decide (i < 102) && (i == 91 || i == 92 || d.bit (Reg.FC_EN 0 + 4 * (i / 32)) (i % 32))

/-- The configured class of a source: 0 NOTE, 1 ALERT, 2 TRIP, 3 HALT; fixed for 91 and 92 (R372, R373). -/
def Dev.srcClass (d : Dev) (i : Nat) : Nat :=
  if i == 91 || i == 92 then 3 else d.fld (Reg.FC_CLASS_0 + 4 * (i / 16)) (2 * (i % 16)) 2

/-- The source is pending (R377). -/
def Dev.srcPending (d : Dev) (i : Nat) : Bool := d.bit (Reg.FC_PEND (i / 32)) (i % 32)

/-- The smallest number of a list. -/
def minOf (l : List Nat) : Nat := l.foldl min 127

/-- An enabled source becomes pending and joins the event in formation (R374). -/
def Dev.raiseMark (i : Nat) (d : Dev) : Dev :=
  let d := d.setB (Reg.FC_PEND (i / 32)) (i % 32) true
  d.putFc { d.fc with forming := i :: d.fc.forming, formedAt := if d.fc.forming.isEmpty then d.now else d.fc.formedAt }

/-- The fast path (R380): every leg tripped, and the TRIP STOP blocks launched where the event has launched none yet. -/
def Dev.fastPath (d : Dev) : Dev :=
  let d := d.gateTrip
  let d := d.putFc { d.fc with fast := true }
  if d.fc.tripSrc.isSome then d else d.tripLaunch (minOf d.fc.forming)

/-- A source is raised (R374): it joins the event in formation and stays pending; a raise of a pending source only counts. A source
with a fast path that is configured TRIP or HALT trips the local legs and launches the TRIP STOP blocks at once (R380). -/
def Dev.raise (i : Nat) (d : Dev) : Dev :=
  if !d.srcEnabled i then d
  else if d.srcPending i then d.inc Reg.FC_CNT_REPEAT 32
  else if decide (i < 48) && decide (2 ≤ d.srcClass i) then (d.raiseMark i).fastPath
  else d.raiseMark i

/-! ### Safety lock-out -/

/-- A lock-out cause: LOCKED with SAFE_OUT_REQ cleared; where it was not LOCKED before, that is an entry with SAFE_EVT.LOCK and its cause
(R397, R404). -/
def Dev.lockOut (cause : Nat) (d : Dev) : Dev :=
  let d := d.wr Reg.SAFE_OUT_REQ 0
  let entry := d.safe.state != 0
  let d := if entry then d.setB Reg.SAFE_EVT 0 true else d
  d.putSafe { d.safe with state := 0, cause := if entry then cause else d.safe.cause }

/-- A safe-input or safe-output failure: the source is raised, the lock-out entered, SAFE_DIAG written (R397, R404). -/
def Dev.safeFail (src who kind : Nat) (d : Dev) : Dev :=
  let d := (d.setF Reg.SAFE_DIAG 8 3 who).setF Reg.SAFE_DIAG 12 4 kind
  (d.lockOut (src - 89)).raise src

/-- A SYS_READY bit and its loss: losing TIME raises FLT_TIME_LOSS and sets TIME_EVT.LOST (R372, R445). -/
def Dev.setTimeValid (b : Bool) (d : Dev) : Dev :=
  let was := d.bit Reg.SYS_READY 9
  let d := (d.setReady 9 b).setB Reg.TIME_STATUS 3 b
  if b then d.putPwr { d.pwr with hadTime := true }
  else if was then (d.setB Reg.TIME_EVT 0 true).raise 95
  else d

end Sys2Proof.Machine
end

