-- ==== Sys2Proof/Machine/Gate.lean ====
section
/-! DEFINITION. The local gate channels and their supervision (spec/06_atomizer_gates.md, R208 to R218, R221;
spec/11_protection_safety.md, R385 to R387, R403). -/

namespace Sys2Proof.Machine

/-! ### Shared operations -/

/-- The leg is held: tripped, in a cut period, or interlocked. -/
def Dev.legHeld (d : Dev) (k : Nat) : Bool :=
  d.bit Reg.GATE_STAT k || d.bit Reg.GATE_STAT (8 + k) || d.bit Reg.GATE_STAT (16 + k)

/-- A channel's partner has been off for the dead time (R210). -/
def deadOver (since : Option Nat) (dt now : Nat) : Bool :=
  match since with
  | none => true
  | some t => decide (t + dt ≤ now)

/-- The leg takes its scheduled state under R210: a channel commanded off turns off at once, a channel commanded on waits until its
partner has been off for the dead time. A leg that is held or not enabled takes nothing. -/
def Dev.takeSched (k : Nat) (d : Dev) : Dev :=
  let g := d.gate k
  if !g.en || d.legHeld k then d else
  let now := d.now
  -- off first
  let g := if g.on == g.sched then g else
    { g with on := .off, hiOff := if g.on == .high then some now else g.hiOff, loOff := if g.on == .low then some now else g.loOff }
  let g := match g.sched with
    | .off => { g with pend := .off }
    | .high =>
      if g.on == .high then { g with pend := .off }
      else if deadOver g.loOff g.dtLH now then { g with on := .high, onAt := now, pend := .off } else { g with pend := .high }
    | .low =>
      if g.on == .low then { g with pend := .off }
      else if deadOver g.hiOff g.dtHL now then { g with on := .low, onAt := now, pend := .off } else { g with pend := .low }
  (d.setGate k fun _ => g).setB Reg.GATE_STAT (24 + k) (g.pend != .off)

/-- A cut period begins now, unless one runs (R212 to R214). -/
def Dev.cutBegin (k : Nat) (d : Dev) : Dev :=
  if d.bit Reg.GATE_STAT (8 + k) || d.bit Reg.GATE_STAT (16 + k) then d else d.setGate k fun g => { g with cutAt := d.now }

/-- An interlock (R213): both channels off for the rest of the cut period, FLT_GATE_INTERLOCKk. -/
def Dev.interlock (k : Nat) (d : Dev) : Dev :=
  let d := ((d.cutBegin k).legOff k).setB Reg.GATE_STAT (24 + k) false
  let d := (d.setB Reg.GATE_STAT (16 + k) true).setB Reg.GATE_EVT (8 + k) true
  d.raise (32 + k)

/-- A comparator that is selected for the leg asserts (R214). -/
def Dev.cutSource (d : Dev) (k : Nat) : Bool :=
  d.bit (Reg.GATE_CUT_0 + 4 * k) 8 && (fieldOf (d.rd (Reg.GATE_CUT_0 + 4 * k) &&& d.rd Reg.CMP_STAT) 0 8 != 0)

/-- A cut begins on a leg (R214, R216, R217): both channels off, CUT, counted; a tripped leg stays tripped. -/
def Dev.cut (k : Nat) (d : Dev) : Dev :=
  if d.bit Reg.GATE_STAT (8 + k) then d else
  let d := ((d.cutBegin k).legOff k).setB Reg.GATE_STAT (24 + k) false
  ((d.setB Reg.GATE_STAT (8 + k) true).setB Reg.GATE_EVT k true).inc (Reg.GATE_CNT_CUT k) 32

/-- The cuts of a comparator that asserts, on every enabled leg that selects it. -/
def Dev.cutAll (n : Nat) (d : Dev) : Dev :=
  forN 8 (fun k d => if d.bit (Reg.GATE_CUT_0 + 4 * k) 8 && d.bit (Reg.GATE_CUT_0 + 4 * k) n then d.cut k else d) d

/-- What a boundary does at the gate channels (R208, R215, R216, R218): the active schedule's events, enables and dead times in force,
the release of an accepted REARM. -/
def Dev.gateBoundary (d : Dev) : Dev :=
  let rel := d.rearmP
  let d := if rel then ((d.andNot Reg.GATE_STAT 0xFF#32).putRearmP false) else d
  forN 8 (fun k d =>
    let was := (d.gate k).en
    let en := d.bit Reg.GATE_CTL k
    let d := d.setGate k fun g =>
      { g with
        en := en, dtHL := d.fld (Reg.GATE_DT k) 0 12, dtLH := d.fld (Reg.GATE_DT k) 16 12,
        evs := if d.atm.landAt == some d.tb.bnd then SMap.getD d.atm.act.legs [] k else [],
        sched := if d.atm.act.valid then g.sched else .off }
    if rel || (en && !was) || !d.atm.act.valid then d.takeSched k else d) d

/-! ### Commands of the gate channels -/

/-- SCHEDULED_EDGE (R208 to R210, R213): the next event of the leg's active schedule. -/
def scheduledEdge (k : Nat) (d : Dev) : Dev :=
  match (d.gate k).evs with
  | [] => d
  | (t, code) :: rest =>
    -- without a calibration, up to one time-base clock late: a free value (R211; notes/assumptions/37)
    let late := if d.bit Reg.GATE_CAL 0 then 0 else Config.freeNat d.freeCtr % 4
    let d := (if d.bit Reg.GATE_CAL 0 then d else d.nextFree).advTo (d.tb.bnd + t + late)
    let indep := d.bit (Reg.GATE_MODE k) 0
    let st : Chan := if code == 1 then .low else if code == 2 then .high else .off
    let d := d.setGate k fun g => { g with evs := rest, sched := st }
    -- a turn-on in the clock of the cut, interlock or trip that holds the leg is cancelled (R217)
    let lost := (d.gate k).en && d.legHeld k && st != .off && (d.gate k).offAt.any fun t => sameClock t d.now
    let d := if lost then d.setB Reg.GATE_EVT (16 + k) true else d
    if indep && code == 3 then
      if !(d.gate k).en || d.legHeld k then d else d.interlock k
    else d.takeSched k

/-- DEAD_TIME_EXPIRY (R210): the partner has been off for the dead time; the pending channel turns on. -/
def deadTimeExpiry (k : Nat) (d : Dev) : Dev :=
  let g := d.gate k
  let due := match g.pend with
    | .off => d
    | .high => match g.loOff with | some t => d.advTo (t + g.dtLH) | none => d
    | .low => match g.hiOff with | some t => d.advTo (t + g.dtHL) | none => d
  if g.pend == .off then d
  else (due.setGate k fun g => { g with on := g.pend, onAt := due.now, pend := .off }).setB Reg.GATE_STAT (24 + k) false

/-- The first valley of a local leg's own delayed carrier from an instant on (R187, R212). -/
def Dev.localValley (d : Dev) (k t : Nat) : Nat :=
  let p := max 1 (d.fld (Reg.ATM_CL_CPER 6) 0 24)
  gridFrom t ((d.rd (Reg.ATM_CL_ANCH_ACT 6)).toNat + (d.fld (Reg.ATM_LL k) 8 24) % p) p

/-- The first boundary of the grid in force from an instant on. -/
def Dev.gridBoundary (d : Dev) (t : Nat) : Nat := gridFrom t d.tb.anchor d.tb.tP

/-- Where the cut period of a leg ends: the first valley of its carrier, or boundary where it has none, after its beginning, not in the
same clock (R212). -/
def Dev.cutEnd (d : Dev) (k : Nat) : Nat :=
  let t := (d.gate k).cutAt
  let next (f : Nat → Nat) : Nat := let e := f (t + 1); if sameClock e t then f (e + 1) else e
  if d.bit (Reg.ATM_CL_CTL 6) 0 then next (d.localValley k) else next d.gridBoundary

/-- CUT_PERIOD_END (R212 to R214), due once the instants of the sequencer before it are over: a new cut period where a selected comparator
still asserts, else the scheduled state. -/
def cutPeriodEnd (k : Nat) (d : Dev) : Dev :=
  if !(d.bit Reg.GATE_STAT (8 + k) || d.bit Reg.GATE_STAT (16 + k)) || !d.tb.counting || d.nextSeq < d.cutEnd k then d else
  let d := d.advTo (d.cutEnd k)
  let d := (d.setB Reg.GATE_STAT (8 + k) false).setB Reg.GATE_STAT (16 + k) false
  if d.cutSource k then d.cut k else d.takeSched k

/-- A write of GATE_CUT_k: a selected comparator that asserts already starts a cut (R214). -/
def gateCutWrite (k : Nat) (v : Word) (d : Dev) : Dev :=
  let was := d.cutSource k
  let d := d.genWrite (Reg.GATE_CUT_0 + 4 * k) v
  if d.cutSource k && !was then d.cut k else d

/-- A write of GATE_CTL: EN at once when cleared, at the next boundary when set; REARM (R215, R216). -/
def gateCtlWrite (v : Word) (d : Dev) : Dev :=
  let d := forN 8 (fun k d =>
    if d.bit Reg.GATE_CTL k && !v.getLsbD k then
      ((d.setGate k fun g => { g with en := false }).legOff k).setB Reg.GATE_STAT (24 + k) false
    else d) d
  let d := d.setF Reg.GATE_CTL 0 8 (fieldOf v 0 8)
  if !v.getLsbD 8 then d
  else if 2 ≤ d.fc.hold then d.setB Reg.GATE_EVT 24 true
  else d.putRearmP true

/-- GATE_MODE_WRITE (R218). -/
def gateModeWrite (k : Nat) (v : Word) (d : Dev) : Dev :=
  if d.bit Reg.GATE_CTL k then d.setB Reg.GATE_EVT 25 true else d.genWrite (Reg.GATE_MODE k) v

/-- GATE_CAL (R211): a calibration of the delay lines against the time base. -/
def gateCal (d : Dev) : Dev :=
  if !d.tb.counting then d
  else d.wr Reg.GATE_CAL (BitVec.ofNat 32 (1 + (d.fld Reg.GATE_CAL 16 16 + 1) % 65536 * 65536))

/-- OUTPUT_MONITOR_INTERLOCK (R213): both pins of a leg high in one time-base clock. -/
def outputMonitorInterlock (k : Nat) (d : Dev) : Dev := d.interlock k

/-! ### Gate supervision -/

/-- An assertion of GFLT_Nj under the blanking rule (R386). -/
def Dev.desat (j sinceOn : Nat) (d : Dev) : Dev :=
  if !d.bit Reg.GATE_SUP_CTL j then d
  else if d.gout j && decide (sinceOn < d.fld (Reg.GATE_SUP_CH j) 0 12) then
    (d.setB Reg.GATE_SUP_EVT j true).putFc { d.fc with blank := SMap.put d.fc.blank 0 j (sinceOn + 1) }
  else d.raise j

/-- GFLT_N_ASSERT (R386): the input is low for FILT ns; with `low` false, it has returned high. -/
def gfltNAssert (j sinceOn : Nat) (low : Bool) (d : Dev) : Dev :=
  let was := d.bit Reg.GATE_SUP_STAT j
  let d := d.setB Reg.GATE_SUP_STAT j low
  if !low then d.putFc { d.fc with blank := SMap.put d.fc.blank 0 j 0 }
  else if was then d
  else (d.inc (Reg.GATE_SUP_CNT j) 32).desat j sinceOn

/-- BLANK_END (R386): an assertion still held when the blanking ends is raised, with EARLY and its time. -/
def blankEnd (j : Nat) (d : Dev) : Dev :=
  let b := SMap.getD d.fc.blank 0 j
  if b == 0 then d else
  let d := d.putFc { d.fc with blank := SMap.put d.fc.blank 0 j 0 }
  if d.bit Reg.GATE_SUP_STAT j && d.bit Reg.GATE_SUP_CTL j then
    let joins := d.srcEnabled j && !d.srcPending j
    (if joins then (d.putFc { d.fc with early := SMap.put d.fc.early 0 j b }) else d).raise j
  else d

/-- GRDY_LOW (R387): the input has been low for GFILT us; with `low` false, it is high. -/
def grdyLow (j : Nat) (low : Bool) (d : Dev) : Dev :=
  let was := d.grdyBad.getLsbD j
  let d := d.putGrdyBad ((d.grdyBad &&& ~~~(1#16 <<< j)) ||| (if low then 1#16 <<< j else 0))
  if !d.pwr.safeOn then d else
  let d := d.setB Reg.GATE_SUP_STAT (16 + j) (!low)
  if low && !was && d.bit Reg.GATE_SUP_CTL (16 + j) then d.raise (16 + j) else d

/-- PREDRIVER_UVLO (R387): FLT_GATE_UVLO0 to 15 in one event, and PDRV; with `low` false, the supply is back. -/
def predriverUvlo (low : Bool) (d : Dev) : Dev :=
  if low == d.pdrvLow then d
  else if !low || !d.pwr.safeOn then d.putPdrvLow low
  else forN 16 (fun j d => d.raise (16 + j)) ((d.setB Reg.GATE_SUP_EVT 16 true).putPdrvLow true)

/-- A write of GATE_SUP_CTL: a channel whose monitoring is set while its input is bad counts as an assertion at that instant
(R386, R387). -/
def gateSupCtlWrite (v : Word) (d : Dev) : Dev :=
  let old := d.rd Reg.GATE_SUP_CTL
  let d := d.wr Reg.GATE_SUP_CTL v
  forN 16 (fun j d =>
    let d := if !old.getLsbD j && v.getLsbD j && d.bit Reg.GATE_SUP_STAT j then d.desat j (d.now - (d.gate (j / 2)).onAt) else d
    let d := if old.getLsbD j && !v.getLsbD j then (d.putFc { d.fc with blank := SMap.put d.fc.blank 0 j 0 }) else d
    if !old.getLsbD (16 + j) && v.getLsbD (16 + j) && d.grdyBad.getLsbD j then d.raise (16 + j) else d) d

/-- A write of GATE_SUP_CH: BLANK above 4,000 stores 4,000, GFILT 0 stores 1 (R403). -/
def gateSupChWrite (j : Nat) (v : Word) (d : Dev) : Dev :=
  d.wr (Reg.GATE_SUP_CH j) (BitVec.ofNat 32 (min 4000 (fieldOf v 0 12) + fieldOf v 16 8 * 65536 + max 1 (fieldOf v 24 8) * 2 ^ 24))


/-! ### Meanings -/

def execScheduledEdge (k : Fin 8) (s : State) : Host.Outcome State Fault Refusal := run (scheduledEdge k) s
def execDeadTimeExpiry (k : Fin 8) (s : State) : Host.Outcome State Fault Refusal := run (deadTimeExpiry k) s
def execCutPeriodEnd (k : Fin 8) (s : State) : Host.Outcome State Fault Refusal := run (cutPeriodEnd k) s
def execRearm (m : Master) (v : Word) (s : State) : Host.Outcome State Fault Refusal := run (Dev.viaBus m Reg.GATE_CTL (gateCtlWrite v)) s
def execGateEnWrite (m : Master) (v : Word) (s : State) : Host.Outcome State Fault Refusal := run (Dev.viaBus m Reg.GATE_CTL (gateCtlWrite v)) s
def execGateModeWrite (m : Master) (k : Fin 8) (v : Word) (s : State) : Host.Outcome State Fault Refusal := run (Dev.viaBus m (Reg.GATE_MODE k) (gateModeWrite k v)) s
def execGateCal (s : State) : Host.Outcome State Fault Refusal := run gateCal s
def execOutputMonitorInterlock (k : Fin 8) (s : State) : Host.Outcome State Fault Refusal := run (Dev.inSafe (outputMonitorInterlock k)) s
def execGfltNAssert (j : Fin 16) (sinceOn : Nat) (low : Bool) (s : State) : Host.Outcome State Fault Refusal := run (Dev.inSafe (gfltNAssert j sinceOn low)) s
def execBlankEnd (j : Fin 16) (s : State) : Host.Outcome State Fault Refusal := run (blankEnd j) s
def execGrdyLow (j : Fin 16) (low : Bool) (s : State) : Host.Outcome State Fault Refusal := run (grdyLow j low) s
def execPredriverUvlo (low : Bool) (s : State) : Host.Outcome State Fault Refusal := run (predriverUvlo low) s

end Sys2Proof.Machine
end

