-- ==== Sys2Proof/Machine/Fault.lean ====
section
/-! DEFINITION. The fault collector: what is active, events, escalation, acknowledgement, release, ERR_N
(spec/11_protection_safety.md, R372 to R384, R402). -/

namespace Sys2Proof.Machine

/-! ### Conditions -/

/-- Holds or ends a condition that a block keeps for its source; a condition that begins raises the source (R374). -/
def Dev.setLevel (i : Nat) (b : Bool) (d : Dev) : Dev :=
  let was := d.fc.level.getLsbD i
  let d := d.putFc { d.fc with level := if b then d.fc.level ||| (1#128 <<< i) else d.fc.level &&& ~~~(1#128 <<< i) }
  if b && !was then d.raise i else d

/-- The bits of a record that GATE_SUP_CELL selects: the four flags of GDESAT and of GUVLO, NODE_FAULT, OVERTEMP (R388). -/
def Dev.cellBits (d : Dev) (r : List Byte) : Nat :=
  let sel (i : Nat) : Nat := b2n (d.bit Reg.GATE_SUP_CELL i)
  sel 0 * (byteAt r 12 / 16) + sel 1 * (byteAt r 13 / 16) * 16 + sel 2 * b2n (nbit (byteAt r 15) 7) * 256 + sel 3 * b2n (nbit (byteAt r 15) 6) * 512

/-- A synthesiser is in use: SYN0 always, SYN1 while RING or NET is on, SYN2 while ANALOG or METER is on (R439). -/
def Dev.synInUse (d : Dev) (s : Nat) : Bool :=
  s == 0 || (s == 1 && (d.domainOn 4 || d.domainOn 5)) || (s == 2 && (d.domainOn 6 || d.domainOn 7))

/-- A background correction is at the end of its range (R295, R324). -/
def Dev.sliceLimit (d : Dev) : Bool :=
  (List.range 2).any fun g => (List.range 4).any fun s =>
    let at' (a : Nat) : Bool := d.fld a 0 16 == 0x7FFF || d.fld a 0 16 == 0x8000
    at' (Reg.ADC_SLICE_OFS g s) || at' (Reg.ADC_SLICE_GAIN g s) || (sext 16 (d.fld (Reg.ADC_SLICE_SKEW g s) 0 16)).natAbs == 256

/-- Comparator `n` has a half marked failed, or its halves differ while both guard (R324). -/
def Dev.cmpFailed (d : Dev) (n : Nat) : Bool :=
  (d.bit (Reg.CMP_ST_RES n) 0 && !(d.bit (Reg.CMP_ST_RES n) 1 && d.bit (Reg.CMP_ST_RES n) 2)) ||
    (d.bit Reg.CMP_STAT (8 + n) != d.bit Reg.CMP_STAT (16 + n) && !d.cmp.maskM.getLsbD n && !d.cmp.maskS.getLsbD n)

/-- Whether a source's condition is active (the last column of the table of R372; R324, R366, R428). -/
def Dev.srcActive (d : Dev) (i : Nat) : Bool :=
  if i < 16 then d.bit Reg.GATE_SUP_CTL i && d.bit Reg.GATE_SUP_STAT i && SMap.getD d.fc.blank 0 i == 0
  else if i < 32 then (d.bit Reg.GATE_SUP_CTL i && d.grdyBad.getLsbD (i - 16)) || d.pdrvLow
  else if i < 40 then d.bit Reg.GATE_STAT (i - 16)
  else if i < 48 then d.bit Reg.CMP_STAT (i - 40)
  else if i < 72 then d.rd (Reg.RING_EVT (i - 48)) &&& d.rd (Reg.RING_FLT_EN (i - 48)) != 0
  else if i < 80 then d.bit (Reg.AECTL_EVT (i - 72)) 0
  else if i == 80 then cellIds.any fun c => d.cellState c == 5
  else if i == 81 then cellIds.any fun c => d.cellState c == 3 && d.cellBits (d.cell c).img != 0
  else if i == 82 then d.bit (Reg.ADC_PLAUS 0) 7 &&
    (d.fc.level.getLsbD 82 || decide (d.fld (Reg.ADC_PLAUS 0) 8 4 ≤ d.fld (Reg.ADC_PLAUS_DIFF 0) 24 4))
  else if i == 83 then d.domainOn 6 && (!d.bit (Reg.ADC_STAT 0) 3 || !d.bit (Reg.ADC_STAT 1) 3 || d.sliceLimit)
  else if i == 84 then d.bit Reg.TMON_STAT 2
  else if i == 85 then decide ((d.fld Reg.TMON_RISE 0 16 : Int) < sext 16 (d.fld Reg.TMON_RATE 0 16))
  else if i == 86 then d.bit Reg.TMON_STAT 1
  else if i == 87 then d.pwr.pgErr != 0 || (d.pwr.winOut.getLsbD 1 && (d.domainOn 4 || d.domainOn 5)) ||
    (d.pwr.winOut.getLsbD 3 && d.domainOn 6) || d.pwr.winOut.getLsbD 5
  else if i == 88 then (List.range 3).any fun s => d.synInUse s && !d.bit Reg.CLK_STAT s
  else if i == 89 then d.domainOn 4 && (!(d.bit (laneReg 24 4) 3 && d.bit (laneReg 24 4) 8 && d.bit (laneReg 25 4) 3 && d.bit (laneReg 25 4) 8) ||
    d.twin.statLost || d.twin.arbFault || d.twin.mismatch)
  else if i == 91 then d.safe.disc != 0 || d.safe.inBad != 0 || d.safe.starved
  else if i == 92 then d.safe.chanDis || d.safe.outBad != 0 || d.safe.tstBad != 0
  else if i == 93 then d.bit Reg.SCRUB_UE_INFO 3
  else if i == 95 then d.pwr.hadTime && !d.bit Reg.SYS_READY 9
  else if i == 96 then d.domainOn 7 && d.met.on && !d.bit Reg.MET_STAT 4
  else if i == 97 then (List.range 8).any d.cmpFailed
  else if 98 ≤ i && i < 102 then d.bit Reg.FC_SOFT (i - 98)
  else d.fc.level.getLsbD i

/-- What a change of their conditions' terms does to sources that nothing else raises by it: one that goes from inactive to active is raised
(R374). -/
def Dev.watch (l : List Nat) (f : Dev → Dev) (d : Dev) : Dev :=
  l.foldl (fun x i => if (f d).srcActive i && !d.srcActive i then x.raise i else x) (f d)

/-! ### Events -/

/-- The reactions' registers: hold, ERR_N and its minimum width in FC_STAT (R402). -/
def Dev.fcStat (d : Dev) : Dev :=
  ((d.setF Reg.FC_STAT 0 2 d.fc.hold).setB Reg.FC_STAT 2 d.fc.errn).setB Reg.FC_STAT 3 d.fc.errnMin

/-- DATA of a log record for its SRC (R402). -/
def Dev.logData (d : Dev) (src : Nat) : Word :=
  if src < 16 then BitVec.ofNat 32 (SMap.getD d.fc.early 0 src - 1)
  else if 48 ≤ src && src < 72 then d.rd (Reg.RING_EVT (src - 48))
  else if 72 ≤ src && src < 80 then d.rd (Reg.AECTL_OVR (src - 72))
  else if src == 80 then BitVec.ofNat 32 d.fc.lostCell
  else if src == 81 then BitVec.ofNat 32 d.fc.cellData
  else 0

/-- The fault log record of an event, at LOG_WR (R402). -/
def Dev.logEvent (ccls acls : Nat) (d : Dev) : Dev :=
  let srcs := d.fc.forming
  let src := minOf srcs
  let r := d.fld Reg.FC_STAT 16 6
  let early := decide (src < 16) && SMap.getD d.fc.early 0 src != 0
  let info := src + 256 * ccls + 1024 * acls + 4096 * b2n (acls != ccls) + 8192 * b2n early + 16384 * b2n d.fc.fast +
    (if 2 ≤ acls then d.fc.tseq * 65536 else 0) + srcs.length * 2 ^ 24
  let mask := bitsOf 128 srcs.contains
  let d := ((d.wr (Reg.FC_LOG r 0) (BitVec.ofNat 32 info)).wr (Reg.FC_LOG r 1) (d.logData src)).wr (Reg.FC_LOG r 2) (BitVec.ofNat 32 d.fc.formedAt)
  let d := d.wr (Reg.FC_LOG r 3) (BitVec.ofNat 32 (d.fc.formedAt / 2 ^ 32))
  let d := forN 4 (fun w d => d.wr (Reg.FC_LOG r (4 + w)) (BitVec.ofNat 32 (mask / 2 ^ (32 * w)))) d
  let d := if d.fc.logN == 64 then d.setB Reg.FC_EVT 7 true else d.putFc { d.fc with logN := d.fc.logN + 1 }
  d.setF Reg.FC_STAT 16 6 ((r + 1) % 64)

/-- A unit that does not hold command sends no TRIP STOP block, under SB_CAP, for an event without a fast source (R419). -/
def Dev.tripQuiet (d : Dev) : Bool :=
  d.bit Reg.TWIN_CTL 4 && (d.role == 1 || d.role == 3 || d.role == 4) && !d.fc.forming.any fun i => decide (i < 48)

/-- TSEQ of an event that sends no block: there is nothing to repeat for it (R382, R419). -/
def Dev.tripCount (d : Dev) : Dev :=
  let q := (d.fc.tseq + 1) % 256
  (d.putFc { d.fc with tseq := q, trip := if d.fc.hold < 2 then none else d.fc.trip }).setF Reg.FC_STAT 8 8 q

/-- The configured and the applied class of the event in formation (R375, R376). -/
def Dev.eventClass (d : Dev) : Nat × Nat :=
  let srcs := d.fc.forming
  let ccls := srcs.foldl (fun m i => max m (d.srcClass i)) 0
  let esc := decide (ccls < 3) && (List.range 102).any fun i =>
    d.srcPending i && !srcs.contains i && d.fld (Reg.FC_PCLS (i / 16)) (2 * (i % 16)) 2 == ccls
  (ccls, if esc then ccls + 1 else ccls)

/-- The class of an event and what it calls for (R375, R376, R378, R379, R382, R384). -/
def Dev.formEvent (d : Dev) : Dev :=
  let srcs := d.fc.forming
  if srcs.isEmpty then d else
  let (ccls, acls) := d.eventClass
  let d := srcs.foldl (fun d i => d.setF (Reg.FC_PCLS (i / 16)) (2 * (i % 16)) 2 acls) d
  let d := d.setB Reg.FC_EVT acls true
  let d := if acls != ccls then d.setB Reg.FC_EVT 4 true else d
  let d := if d.fld Reg.FC_ERRN 12 2 ≤ acls then (d.putFc { d.fc with errn := true, errnMin := true, errnRel := false }) else d
  let d := if 2 ≤ acls then
      let d := d.gateTrip
      let d := if d.fc.tripSrc.isSome then d else if d.tripQuiet then d.tripCount else d.tripLaunch (minOf srcs)
      d.putFc { d.fc with hold := max d.fc.hold 2 }
    else d
  let cause := if srcs.contains 91 then 2 else if srcs.contains 92 then 3 else 1
  let d := if acls == 3 then ((d.lockOut cause).putFc { (d.lockOut cause).fc with hold := 3 }) else d
  let d := d.logEvent ccls acls
  (d.fcStat).putFc { d.fcStat.fc with forming := [], fast := false, tripSrc := none, early := [] }

/-! ### Commands -/

/-- FC_PEND_ACK (R7, R377): a source whose condition is active, or that is raised in the event in formation, stays pending. -/
def fcPendAck (w : Nat) (v : Word) (d : Dev) : Dev :=
  forN 32 (fun b d =>
    let i := 32 * w + b
    if !v.getLsbD b || !d.srcPending i then d
    else if d.srcActive i then (d.inc Reg.FC_CNT_CLRREF 32).setB Reg.FC_EVT 5 true
    else if d.fc.forming.contains i then d
    else (d.setB (Reg.FC_PEND w) b false).setF (Reg.FC_PCLS (i / 16)) (2 * (i % 16)) 2 0) d

/-- A source of applied class TRIP or HALT is pending, or one of that class joins the event in formation (R378). -/
def Dev.tripPending (d : Dev) : Bool :=
  ((List.range 102).any fun i => d.srcPending i && decide (2 ≤ d.fld (Reg.FC_PCLS (i / 16)) (2 * (i % 16)) 2)) ||
    (!d.fc.forming.isEmpty && decide (2 ≤ d.eventClass.2))

/-- RELEASE, a write of FC_CMD (R378). -/
def fcRelease (v : Word) (d : Dev) : Dev :=
  if !v.getLsbD 0 then d
  else if fieldOf v 16 16 != 0xFC5A || d.tripPending then d.setB Reg.FC_EVT 6 true
  else (d.putFc { d.fc with hold := 0, relAt := if 2 ≤ d.fc.hold then some d.tb.k else d.fc.relAt }).fcStat

/-- ERRN_RELEASE, a write of FC_ERRN (R373, R384, R402). -/
def errnRelease (v : Word) (d : Dev) : Dev :=
  let lock := d.bit Reg.FC_CTL 8
  let cls := fieldOf v 12 2
  let old := d.fld Reg.FC_ERRN 12 2
  let d := if lock && cls != old then d.setB Reg.FC_EVT 8 true else d
  let d := d.wr Reg.FC_ERRN (BitVec.ofNat 32 (min 1000 (max 1 (fieldOf v 0 10)) + 4096 * (if lock then old else cls)))
  if !v.getLsbD 16 then d
  else if !d.fc.forming.isEmpty && decide (d.fld Reg.FC_ERRN 12 2 ≤ d.eventClass.2) then d
  else if d.fc.errnMin then d.putFc { d.fc with errnRel := true }
  else (d.putFc { d.fc with errn := false }).fcStat

/-- ERRN_WIDTH_END (R384): a release that came before the end takes effect. -/
def errnWidthEnd (d : Dev) : Dev :=
  if !d.fc.errnMin then d
  else (d.putFc { d.fc with errnMin := false, errn := d.fc.errn && !d.fc.errnRel, errnRel := false }).fcStat

/-- FC_LOCK, a write of FC_CTL (R373, R402). -/
def fcCtlWrite (v : Word) (d : Dev) : Dev :=
  d.wr Reg.FC_CTL (BitVec.ofNat 32 (max 1 (fieldOf v 0 5) + 256 * b2n (d.bit Reg.FC_CTL 8 || v.getLsbD 8)))

/-- A write of FC_EN_m: locked under LOCK, fixed for 91 and 92; enabling a source whose condition is active raises it (R373, R374). -/
def fcEnWrite (w : Nat) (v : Word) (d : Dev) : Dev :=
  let a := Reg.FC_EN 0 + 4 * w
  let old := d.rd a
  let mask : Word := if w == 2 then 0xE7FFFFFF#32 else if w == 3 then 0x3F#32 else 0xFFFFFFFF#32
  let new := (old &&& ~~~mask) ||| (v &&& mask)
  if d.bit Reg.FC_CTL 8 then (if new == old then d else d.setB Reg.FC_EVT 8 true)
  else
    let d := d.wr a new
    forN 32 (fun b d => if !old.getLsbD b && new.getLsbD b && d.srcActive (32 * w + b) then d.raise (32 * w + b) else d) d

/-- A write of FC_CLASS_m: locked under LOCK, fixed for 91 and 92 (R373). -/
def fcClassWrite (w : Nat) (v : Word) (d : Dev) : Dev :=
  let a := Reg.FC_CLASS_0 + 4 * w
  let old := d.rd a
  let mask : Word := if w == 5 then 0xFC3FFFFF#32 else if w == 6 then 0xFFF#32 else if w == 7 then 0 else 0xFFFFFFFF#32
  let new := (old &&& ~~~mask) ||| (v &&& mask)
  if d.bit Reg.FC_CTL 8 then (if new == old then d else d.setB Reg.FC_EVT 8 true) else d.wr a new

/-- A write of FC_SOFT: a bit that becomes 1 raises FLT_SOFTi (R372). -/
def fcSoftWrite (v : Word) (d : Dev) : Dev :=
  let old := d.rd Reg.FC_SOFT
  forN 4 (fun i d => if !old.getLsbD i && v.getLsbD i then d.raise (98 + i) else d) (d.genWrite Reg.FC_SOFT v)

/-- What FC_ACTIVE_m reads (R402). -/
def Dev.fcActive (d : Dev) (w : Nat) : Word := BitVec.ofNat 32 (bitsOf 32 fun b => d.srcActive (32 * w + b))


/-! ### Meanings -/

def execFaultRaise (i : Fin 128) (s : State) : Host.Outcome State Fault Refusal := run (Dev.inSafe (Dev.raise i)) s
def execFcPendAck (m : Master) (w : Fin 4) (v : Word) (s : State) : Host.Outcome State Fault Refusal := run (Dev.viaBus m (Reg.FC_PEND w) (fcPendAck w v)) s
def execRelease (m : Master) (v : Word) (s : State) : Host.Outcome State Fault Refusal := run (Dev.viaBus m Reg.FC_CMD (fcRelease v)) s
def execErrnRelease (m : Master) (v : Word) (s : State) : Host.Outcome State Fault Refusal := run (Dev.viaBus m Reg.FC_ERRN (errnRelease v)) s
def execErrnWidthEnd (s : State) : Host.Outcome State Fault Refusal := run errnWidthEnd s
def execFcLock (m : Master) (v : Word) (s : State) : Host.Outcome State Fault Refusal := run (Dev.viaBus m Reg.FC_CTL (fcCtlWrite v)) s

end Sys2Proof.Machine
end

