-- ==== Sys2Proof/Machine/Ecc.lean ====
section
/-! DEFINITION. The protected memories: ECC on each word and the scrubber (spec/02_address_space.md, R54 to R57). -/

namespace Sys2Proof.Machine

/-- The base of the memory of engine `n` (R40). -/
def engBase (n : Nat) : Nat := 0x10000000 + n * 0x100000

/-- Words of a scrub class (R56). -/
def scrubWords : Nat → Nat
  | 0 => 524288 | 1 => 131072 | 2 => 65536 | 3 => 24576 | 4 => 16384 | 5 => 131072 | _ => 262144

/-- The address of word `i` of a scrub class. -/
def scrubAddr (m i : Nat) : Nat :=
  match m with
  | 0 => 4 * i
  | 1 => engBase (i / 16384) + 4 * (i % 16384)
  | 2 => engBase (i / 8192) + 0x10000 + 4 * (i % 8192)
  | 3 => let j := i % 3072; engBase (i / 3072) + (if j < 2048 then 0x20000 + 4 * j else 0x30000 + 4 * (j - 2048))
  | 4 => 0x18000000 + 4 * i
  | 5 => 0x19000000 + 4 * i
  | _ => 0x20000000 + 4 * i

/-- The scrub class of an address of a protected memory. -/
def memClass (a : Nat) : Nat :=
  if a < 0x10000000 then 0
  else if a < 0x18000000 then (let o := a % 0x100000; if o < 0x10000 then 1 else if o < 0x20000 then 2 else 3)
  else if a < 0x19000000 then 4 else if a < 0x20000000 then 5 else 6

/-- The power domain of a scrub class. -/
def classDomain (m : Nat) : Nat := if m == 0 then 2 else if m == 6 then 5 else 3

/-- The address that an ECC word is kept under: 32-bit words, in the flacon 64-bit words (R54, R353). -/
def eccKey (a : Nat) : Nat := if 0x30000000 ≤ a then a - a % 8 else a - a % 4

/-- The record of an uncorrectable error, and FLT_ECC_UNCORR (R54, SCRUB_UE_INFO). The error recorded is the first that COUNT counts (DESIGN
CHOICE, notes/assumptions/83). -/
def Dev.uncorr (a : Nat) (scrub : Bool) (d : Dev) : Dev :=
  let d :=
    if d.bit Reg.SCRUB_UE_INFO 3 then d.setF Reg.SCRUB_UE_INFO 8 8 (min 255 (d.fld Reg.SCRUB_UE_INFO 8 8 + 1))
    else (d.wr Reg.SCRUB_UE_ADDR (BitVec.ofNat 32 a)).wr Reg.SCRUB_UE_INFO (BitVec.ofNat 32 (memClass a + 8 + 16 * b2n scrub + 256))
  d.raise 93

/-- A read of the word at an address: a single-bit error is corrected and written back, a double-bit error is reported (R54, R55). The
stored bits are the true ones in this model: what an upset changed is not kept. -/
def Dev.eccRead (a : Nat) (scrub : Bool) (d : Dev) : Dev :=
  let w := a - a % 4
  match SMap.getD d.ecc 0 w with
  | 0 => d
  | 1 => (d.putEcc (SMap.put d.ecc 0 w 0)).inc (Reg.SCRUB_CE (memClass w)) 16
  | _ => d.uncorr w scrub

/-- A read of the words that hold `n` bytes from an address, as a packet mover or a capture makes it (R54, R55). -/
def Dev.eccSpan (a n : Nat) (d : Dev) : Dev :=
  (d.ecc.filter fun e => decide (a - a % 4 ≤ e.1) && decide (e.1 < a + n)).foldl (fun d e => d.eccRead e.1 false) d

/-- A read that finds a double-bit error. -/
def Dev.eccBad (d : Dev) (a : Nat) : Bool := 2 ≤ SMap.getD d.ecc 0 (eccKey a)

/-- SCRUB_READ (R56): the next word of an enabled class. -/
def scrubRead (m : Nat) (d : Dev) : Dev :=
  if !d.domainOn 1 || !d.domainOn (classDomain m) || !d.bit Reg.SCRUB_CTL m then d else
  let i := SMap.getD d.scrubPos 0 m
  let d := d.eccRead (scrubAddr m i) true
  if i + 1 < scrubWords m then d.putScrubPos (SMap.put d.scrubPos 0 m (i + 1))
  else (d.putScrubPos (SMap.put d.scrubPos 0 m 0)).wr (Reg.SCRUB_PASS m) (d.rd (Reg.SCRUB_PASS m) + 1)

/-! ### Meanings -/

def execScrubRead (cls : Fin 7) (s : State) : Host.Outcome State Fault Refusal := run (scrubRead cls) s

end Sys2Proof.Machine
end

