-- ==== Sys2Proof/Machine/Flacon.lean ====
section
/-! DEFINITION. The flacon: sectors, records, events, images, and the latches on their way to them (spec/10_metering.md, R346 to
R353). -/

namespace Sys2Proof.Machine

/-! ### Sectors -/

/-- The address of sector `s`. -/
def sectAddr (s : Nat) : Nat := 0x30000000 + 8192 * s

/-- Stores bytes in the flacon; their 64-bit words have good check bits again (R353). -/
def Dev.flcPut (a : Nat) (bs : List Byte) (d : Dev) : Dev :=
  (d.putMem (memBytes d.mem a bs)).putEcc (d.ecc.filter fun e => !(decide (eccKey a ≤ e.1) && decide (e.1 < a + bs.length)))

/-- Bytes of the flacon. -/
def Dev.flcBytes (d : Dev) (a n : Nat) : List Byte := (List.range n).map fun i => memByte d.mem (a + i)

/-- A sector header with its CRC (R347). -/
def sectHeader (kind sseq wcount : Nat) : List Byte :=
  let h := leBytes 2 0x5346 ++ leBytes 2 kind ++ leBytes 4 sseq ++ leBytes 4 wcount ++ List.replicate 0xF0 0
  h ++ leBytes 4 (crc32 h)

/-- KIND of a sector whose header is good, 0 where it is not. -/
def Dev.sectKind (d : Dev) (s : Nat) : Nat :=
  let a := sectAddr s
  if d.mrd a 2 == 0x5346 && d.mrd (a + 0xFC) 4 == crc32 (d.flcBytes a 0xFC) then d.mrd (a + 2) 1 else 0

/-- SSEQ of a sector. -/
def Dev.sectSeq (d : Dev) (s : Nat) : Nat := d.mrd (sectAddr s + 4) 4

/-- A sector holds a word with a double-bit error. -/
def Dev.sectBad (d : Dev) (s : Nat) : Bool := d.ecc.any fun e => 2 ≤ e.2 && decide (sectAddr s ≤ e.1) && decide (e.1 < sectAddr (s + 1))

/-- Retires a ring sector (R353). -/
def Dev.retire (s : Nat) (d : Dev) : Dev :=
  let d := (d.flcPut (sectAddr s) (sectHeader 0xFF (d.sectSeq s) (d.mrd (sectAddr s + 8) 4))).setB Reg.FLC_EVT 2 true
  let k := d.fld Reg.FLC_STAT 24 4 + 1
  let d := d.setF Reg.FLC_STAT 24 4 (min 15 k)
  if k == 8 then (d.setB Reg.FLC_STAT 2 true).setB Reg.FLC_EVT 3 true else d

/-- Claims the next ring sector from `s` on for a log (R348, R353): retired sectors are skipped, a bad one is retired as the ring reaches
it. Answers the sector and what was retired. -/
def Dev.claimFrom (kind : Nat) : Nat → Nat → Dev → Option Nat × List Nat × Dev
  | 0, _, d => (none, [], d)
  | n + 1, s, d =>
    let s := s % 62
    if d.sectKind s == 0xFF then Dev.claimFrom kind n (s + 1) d
    else if d.sectBad s then
      let (r, l, d) := Dev.claimFrom kind n (s + 1) (d.retire s)
      (r, s :: l, d)
    else
      let w := if d.mrd (sectAddr s) 2 == 0x5346 then d.mrd (sectAddr s + 8) 4 + 1 else 1
      let q := (d.met.sseq + 1) % 2 ^ 32
      let d := d.flcPut (sectAddr s) (sectHeader kind q w ++ List.replicate 0x1F00 0)
      -- a log whose current sector the other one claims has none any more
      (some s, [], (d.putMet { d.met with
        claim := some s, sseq := q, rsect := if d.met.rsect == some s then none else d.met.rsect,
        esect := if d.met.esect == some s then none else d.met.esect }))

def Dev.claimSect (kind : Nat) (d : Dev) : Option Nat × List Nat × Dev :=
  d.claimFrom kind 62 (match d.met.claim with | some s => s + 1 | none => 0)

/-! ### Events -/

/-- TIME of a record or event: device time, the holdover count while it is invalid, 0 without one (R350). -/
def Dev.metTime (d : Dev) (t : Nat) : Nat :=
  if d.bit Reg.SYS_READY 9 then t else if d.bit Reg.AMB_STATUS 6 then d.amb.hold / 65536 % 2 ^ 64 else 0

/-- An event entry (R351). -/
def eventBytes (code eseq time : Nat) (data : List Byte) : List Byte :=
  let b := leBytes 2 0x4546 ++ [BitVec.ofNat 8 code, 0] ++ leBytes 4 eseq ++ leBytes 8 time ++ (data ++ List.replicate 12 0).take 12
  b ++ leBytes 4 (crc32 b)

/-- Logs an event in the flacon while the metering engine runs; sectors retired on the way log events of their own. -/
def Dev.flcEventN : Nat → Nat → List Byte → Dev → Dev
  | 0, _, _, d => d
  | n + 1, code, data, d =>
    let (s, slot, gone, d) := match d.met.esect with
      | some s => if d.met.eslot < 248 then (some s, d.met.eslot, [], d) else (let (s, l, d) := d.claimSect 2; (s, 0, l, d))
      | none => let (s, l, d) := d.claimSect 2; (s, 0, l, d)
    match s with
    | none => d
    | some s =>
      let q := (d.rd Reg.FLC_ESEQ).toNat + 1
      let a := sectAddr s + 0x100 + 32 * slot
      let d := d.flcPut a (eventBytes code (q % 2 ^ 32) (d.metTime d.now) data)
      let d := ((d.wr Reg.FLC_ESEQ (BitVec.ofNat 32 q)).wr Reg.FLC_EADDR (BitVec.ofNat 32 a)).setF Reg.FLC_STAT 16 6 s
      let d := d.putMet { d.met with esect := some s, eslot := slot + 1 }
      gone.foldl (fun d s => Dev.flcEventN n 0x0B (leBytes 4 s) d) d

def Dev.flcEvent (code : Nat) (data : List Byte) (d : Dev) : Dev :=
  if d.domainOn 7 && d.met.on then d.flcEventN 4 code data else d

/-! ### Records and images -/

/-- Writes a record (R348). -/
def Dev.putRecord (rseq : Nat) (data : List Byte) (d : Dev) : Dev :=
  let (s, slot, gone, d) := match d.met.rsect with
    | some s => if d.met.rslot < 31 then (some s, d.met.rslot, [], d) else (let (s, l, d) := d.claimSect 1; (s, 0, l, d))
    | none => let (s, l, d) := d.claimSect 1; (s, 0, l, d)
  match s with
  | none => d
  | some s =>
    let a := sectAddr s + 0x100 + 256 * slot
    let d := d.flcPut a data
    let d := ((d.wr Reg.FLC_RSEQ (BitVec.ofNat 32 rseq)).wr Reg.FLC_RADDR (BitVec.ofNat 32 a)).setF Reg.FLC_STAT 8 6 s
    let d := d.putMet { d.met with rsect := some s, rslot := slot + 1 }
    gone.foldl (fun d s => d.flcEvent 0x0B (leBytes 4 s)) d

/-- Writes a mirror bank with its CRC (R354). -/
def Dev.putMirror (hseq rseq time : Nat) (inc pinc : List Nat) (d : Dev) : Dev :=
  let bytes (crc : Nat) : List Byte :=
    leBytes 4 hseq ++ leBytes 2 rseq ++ leBytes 2 crc ++ leBytes 8 time ++ (inc.map (leBytes 4)).flatten ++ (pinc.map (leBytes 2)).flatten
  let b := bytes (crc16 (bytes 0))
  if !d.amb.powered then d
  else forN 32 (fun j d => d.wr (Reg.AMB_MIRROR (hseq % 2) j)
    (BitVec.ofNat 32 ((List.range 4).foldl (fun v i => v + byteAt b (4 * j + i) * 256 ^ i) 0))) d

/-- A register image goes to its sector, 62 or 63 in turn (R347, R352). The sector has a header as every sector has; what KIND one that is never
claimed shows is a free value (notes/assumptions/105). -/
def Dev.putImage (img : List Byte) (d : Dev) : Dev :=
  let s := 62 + byteAt img 4 % 2
  let head := d.mrd (sectAddr s) 2 == 0x5346 && d.mrd (sectAddr s + 0xFC) 4 == crc32 (d.flcBytes (sectAddr s) 0xFC)
  let d := if head then d else (d.flcPut (sectAddr s) (sectHeader (Config.freeNat d.freeCtr) 0 0)).nextFree
  d.flcPut (sectAddr s + 0x100) img

/-- The record, image and mirror bank of a latch are written (R346, R354, R355). -/
def Dev.putLatch (r : MetRec) (d : Dev) : Dev :=
  let d := (d.putRecord r.rseq r.data).setB Reg.MET_EVT 0 true
  let d := forN 64 (fun j d => d.wr (Reg.MET_LAST j) (BitVec.ofNat 32 ((List.range 4).foldl (fun v i => v + byteAt r.data (4 * j + i) * 256 ^ i) 0))) d
  let d := d.putMirror d.met.hseq r.rseq (beVal ((r.data.drop 8).take 8).reverse) (List.replicate 24 0) (List.replicate 8 0)
  let d := if r.kind == 5 then d.flcEvent 0x02 (leBytes 4 r.rseq) else if r.kind == 6 then d.flcEvent 0x0D (leBytes 4 r.rseq) else d
  let d := if r.putImg then d.putImage r.img else d
  if r.kind == 5 || r.kind == 6 then (d.setB Reg.FLC_STAT 1 true).setB Reg.FLC_EVT 4 true else d

/-- Every latch on its way is written (R82, R355 step 4). -/
def Dev.flushLatches (d : Dev) : Dev :=
  let l := d.met.recs
  let d := d.putMet { d.met with recs := [] }
  l.foldl (fun d r => d.putLatch r) d

end Sys2Proof.Machine
end

