-- ==== Sys2Proof/Machine/SafeIo.lean ====
section
/-! DEFINITION. Safe outputs, safe inputs, test pulses and the lock-out (spec/11_protection_safety.md, R389 to R400, R404). -/

namespace Sys2Proof.Machine

/-! ### Shared operations -/

/-- A key sequence that went wrong: LOCKED, with KEY_ERR (R397). -/
def Dev.keyErr (d : Dev) : Dev := (d.lockOut 4).setB Reg.SAFE_EVT 4 true

/-- Any other write to the SAFE block in ARMED or KEY1 ends the key sequence (R397, R399). -/
def Dev.safeTouch (d : Dev) : Dev := if d.safe.state == 1 || d.safe.state == 2 then d.keyErr else d

/-- A band as SAFE_STAT.SRB codes it. -/
def sbandNum : SBand → Nat
  | .offOpen => 0 | .offIntact => 1 | .energised => 2 | .invalid => 3

/-- The band is one a de-energised output may show (R391). -/
def Dev.offBand (d : Dev) (n : Nat) (b : SBand) : Bool := b == .offIntact || (b == .offOpen && !d.bit (Reg.SAFE_OUT n) 1)

/-- What SAFE_STAT reads (R404). -/
def Dev.safeStat (d : Dev) : Word :=
  BitVec.ofNat 32 (d.safe.state + bitsOf 4 d.sout * 16 + bitsOf 4 d.pairDemands * 256 + d.safe.sinHi.toNat * 4096 +
    d.safe.srb.toNat * 2 ^ 20 + d.safe.cause * 2 ^ 28)

/-- A pair's discrepancy ends when both channels agree (R394). -/
def Dev.pairAgree (p : Nat) (d : Dev) : Dev :=
  if d.safe.demand.getLsbD (2 * p) == d.safe.demand.getLsbD (2 * p + 1) then
    d.putSafe { d.safe with disc := d.safe.disc &&& ~~~(1#4 <<< p) }
  else d

/-! ### Commands -/

/-- SAFE_CHANNEL_DISAGREE (R389): the internal channels have differed for 2 ms; with `differ` false, they agree again. -/
def safeChannelDisagree (differ : Bool) (d : Dev) : Dev :=
  let d := d.putSafe { d.safe with chanDis := differ }
  if differ then d.safeFail 92 0 8 else d

/-- SRB_MISMATCH (R391): the band of an output, judged against its commanded state; a right band ends the mismatch. -/
def srbMismatch (n : Nat) (band : SBand) (d : Dev) : Dev :=
  let on := d.sout n
  let sh := 2 * n
  let d := d.putSafe { d.safe with srb := (d.safe.srb &&& ~~~(3#8 <<< sh)) ||| (BitVec.ofNat 8 (sbandNum band) <<< sh) }
  let good := if on then band == .energised else d.offBand n band
  if good then d.putSafe { d.safe with outBad := d.safe.outBad &&& ~~~(1#4 <<< n) }
  else
    (d.putSafe { d.safe with outBad := d.safe.outBad ||| (1#4 <<< n) }).safeFail 92 n (if (!on) && band == SBand.offOpen then 7 else 5)

/-- OFF_PULSE (R392, R393): both off-pulses of an energised output; a real de-energisation during them skips the test. -/
def offPulse (n : Nat) (first second : SBand) (backOk cut : Bool) (d : Dev) : Dev :=
  if !d.sout n then d
  else if cut then d.inc Reg.SAFE_CNT_SKIP 32
  else
    let d := d.send (.offPulse n)
    if d.offBand n first && d.offBand n second && backOk then
      d.putSafe { d.safe with tstBad := d.safe.tstBad &&& ~~~(1#4 <<< n) }
    else
      let kind := if first == .offOpen || second == .offOpen then 7 else 6
      ((d.setB Reg.SAFE_EVT 7 true).putSafe { d.safe with tstBad := d.safe.tstBad ||| (1#4 <<< n) }).safeFail 92 n kind

/-- SIN_DEMAND (R394): a channel demands once its input has been low for the filter time. -/
def sinDemand (i : Nat) (d : Dev) : Dev :=
  (d.putSafe { d.safe with sinHi := d.safe.sinHi &&& ~~~(1#8 <<< i), demand := d.safe.demand ||| (1#8 <<< i) }).pairAgree (i / 2)

/-- SIN_DEMAND_RELEASE (R394): the input has been high for the same time. -/
def sinDemandRelease (i : Nat) (d : Dev) : Dev :=
  (d.putSafe { d.safe with sinHi := d.safe.sinHi ||| (1#8 <<< i), demand := d.safe.demand &&& ~~~(1#8 <<< i) }).pairAgree (i / 2)

/-- SIN_DISCREPANCY (R394): exactly one channel of the pair has demanded for DISC ms. -/
def sinDiscrepancy (p : Nat) (d : Dev) : Dev :=
  if d.safe.demand.getLsbD (2 * p) == d.safe.demand.getLsbD (2 * p + 1) then d
  else (d.putSafe { d.safe with disc := d.safe.disc ||| (1#4 <<< p) }).safeFail 91 p 1

/-- One pair at the evaluation instant of a test pulse: 0 passed, 1 skipped, 2 pulse missed, 3 cross-short (R395, R396). -/
def pairVerdict (demands : Bool) (x : PairSample) : Nat :=
  if demands then 1
  else if x.otherLow && !x.otherBack then 1
  else if x.otherLow then 3
  else if !x.pulsedLow then 2
  else 0

/-- TEST_PULSE (R395, R396): every enabled pair with TPEN is evaluated. A failure stands until the pair passes a pulse of that channel. -/
def testPulse (chB : Bool) (pairs : List PairSample) (d : Dev) : Dev :=
  if !d.bit Reg.SAFE_TP 0 then d else
  let use (p : Nat) : Bool := d.bit (Reg.SAFE_PAIR p) 0 && d.bit (Reg.SAFE_PAIR p) 1
  let verdict (p : Nat) : Nat := match (pairs.drop p).head? with | some x => pairVerdict (d.pairDemands p) x | none => 1
  let d : Dev := (d.send (.testPulse chB)).putSafe { d.safe with starved := false }
  let d := forN 4 (fun p d => if use p && verdict p == 1 then d.inc Reg.SAFE_CNT_SKIP 32 else d) d
  let m (p : Nat) : BitVec 8 := 1#8 <<< (2 * p + b2n chB)
  let d := forN 4 (fun p (d : Dev) =>
    if !use p || verdict p == 1 then d
    else d.putSafe { d.safe with inBad := if verdict p == 0 then d.safe.inBad &&& ~~~m p else d.safe.inBad ||| m p }) d
  match (List.range 4).find? fun p => use p && decide (2 ≤ verdict p) with
  | none => d
  | some p => (d.setB Reg.SAFE_EVT 6 true).safeFail 91 p (verdict p)

/-- TEST_PULSE_STARVED (R396). -/
def testPulseStarved (d : Dev) : Dev :=
  if !d.bit Reg.SAFE_TP 0 then d
  else ((d.setB Reg.SAFE_EVT 6 true).putSafe { d.safe with starved := true }).safeFail 91 0 4

/-- SAFE_RST_N_PULSE (R397, R398): judged at its rising edge by the time it was low. In the top-note stage the lock-out is held (R72; DEDUCED,
notes/assumptions/86). -/
def safeRstNPulse (ms : Nat) (d : Dev) : Dev :=
  if d.safe.rstLong then d.putSafe { d.safe with rstLong := false }
  else if ms < 100 then (d.setB Reg.SAFE_EVT 1 true).inc Reg.SAFE_CNT_RST 32
  else if 2000 ≤ ms then (d.setB Reg.SAFE_EVT 2 true).inc Reg.SAFE_CNT_RST 32
  else
    let d := d.setB Reg.SAFE_EVT 3 true
    if d.safe.state != 0 then d.safeTouch
    else if d.fld Reg.SYS_STAGE 0 2 == 1 then d
    else d.putSafe { d.safe with state := 1 }

/-- SAFE_RST_N_LONG (R398): the low level reaches 2 s. -/
def safeRstNLong (d : Dev) : Dev :=
  if d.safe.rstLong then d
  else ((d.setB Reg.SAFE_EVT 2 true).inc Reg.SAFE_CNT_RST 32).putSafe { d.safe with rstLong := true }

/-- The cause that refuses KEY2, 0 where none does (R399). -/
def Dev.keyRefusal (d : Dev) : Nat :=
  if d.fc.hold == 3 then 1
  else if d.srcActive 91 || d.srcPending 91 then 2
  else if d.srcActive 92 || d.srcPending 92 then 3
  else if (List.range 4).any fun p => d.bit (Reg.SAFE_PAIR p) 0 && d.pairDemands p then 4
  else 0

/-- A write of SAFE_KEY: KEY1 in ARMED, KEY2 in KEY1; anything else there ends the sequence (R397, R399). -/
def safeKeyWrite (v : Word) (d : Dev) : Dev :=
  let k := fieldOf v 0 16
  if d.safe.state == 1 then
    if k == 0xC3A5 then (d.putSafe { d.safe with state := 2 }) else d.keyErr
  else if d.safe.state == 2 then
    if k != 0x5A3C then d.keyErr
    else
      let r := d.keyRefusal
      if r == 0 then d.putSafe { d.safe with state := 3 }
      else ((d.lockOut 4).setB Reg.SAFE_EVT 5 true).setF Reg.SAFE_DIAG 0 4 r
  else d

/-- ARMED_TIMEOUT (R397): 10 s in ARMED, or 100 ms in KEY1. -/
def armedTimeout (d : Dev) : Dev := d.safeTouch

/-- SAFE_OUT_REQ_WRITE (R390, R400): takes effect in NORMAL only. -/
def safeOutReqWrite (v : Word) (d : Dev) : Dev :=
  if d.safe.state == 3 then d.wr Reg.SAFE_OUT_REQ (v &&& 0xF#32) else d.safeTouch

/-- A configuration write: only in LOCKED, only in range (R400, R404). -/
def safeCfgWrite (a : Nat) (v mask : Word) (wLo wHi pLo pHi : Nat) (d : Dev) : Dev :=
  let w := fieldOf v 8 8; let p := fieldOf v 16 16
  if d.safe.state != 0 || w < wLo || wHi < w || p < pLo || pHi < p then d.safeTouch.setB Reg.SAFE_EVT 8 true
  else d.wr a (v &&& mask)

def safeTpWrite (v : Word) : Dev → Dev := safeCfgWrite Reg.SAFE_TP v 0xFFFFFF01#32 10 100 10 10000
def safeOutWrite (n : Nat) (v : Word) : Dev → Dev := safeCfgWrite (Reg.SAFE_OUT n) v 0xFFFFFFF3#32 5 80 1 3600
def safePairWrite (p : Nat) (v : Word) : Dev → Dev := safeCfgWrite (Reg.SAFE_PAIR p) v 0xFFFFFF03#32 1 255 10 1000

/-- A write of another SAFE register: it takes its access code, and in ARMED or KEY1 ends the key sequence (R397, R399). -/
def safeOtherWrite (a : Nat) (v : Word) (d : Dev) : Dev := (d.genWrite a v).safeTouch

/-! ### Meanings -/

def execSafeChannelDisagree (differ : Bool) (s : State) : Host.Outcome State Fault Refusal := run (Dev.inSafe (safeChannelDisagree differ)) s
def execSrbMismatch (n : Fin 4) (band : SBand) (s : State) : Host.Outcome State Fault Refusal := run (Dev.inSafe (srbMismatch n band)) s
def execOffPulse (n : Fin 4) (first second : SBand) (backOk cut : Bool) (s : State) : Host.Outcome State Fault Refusal := run (offPulse n first second backOk cut) s
def execSinDemand (i : Fin 8) (s : State) : Host.Outcome State Fault Refusal := run (Dev.inSafe (sinDemand i)) s
def execSinDemandRelease (i : Fin 8) (s : State) : Host.Outcome State Fault Refusal := run (Dev.inSafe (sinDemandRelease i)) s
def execSinDiscrepancy (p : Fin 4) (s : State) : Host.Outcome State Fault Refusal := run (sinDiscrepancy p) s
def execTestPulse (chB : Bool) (pairs : List PairSample) (s : State) : Host.Outcome State Fault Refusal := run (Dev.inSafe (testPulse chB pairs)) s
def execTestPulseStarved (s : State) : Host.Outcome State Fault Refusal := run (Dev.inSafe testPulseStarved) s
def execSafeRstNPulse (ms : Nat) (s : State) : Host.Outcome State Fault Refusal := run (Dev.inSafe (safeRstNPulse ms)) s
def execSafeRstNLong (s : State) : Host.Outcome State Fault Refusal := run (Dev.inSafe safeRstNLong) s
def execKey1 (m : Master) (v : Word) (s : State) : Host.Outcome State Fault Refusal := run (Dev.viaBus m Reg.SAFE_KEY (safeKeyWrite v)) s
def execKey2 (m : Master) (v : Word) (s : State) : Host.Outcome State Fault Refusal := run (Dev.viaBus m Reg.SAFE_KEY (safeKeyWrite v)) s
def execArmedTimeout (s : State) : Host.Outcome State Fault Refusal := run armedTimeout s
def execSafeOutReqWrite (m : Master) (v : Word) (s : State) : Host.Outcome State Fault Refusal := run (Dev.viaBus m Reg.SAFE_OUT_REQ (safeOutReqWrite v)) s

end Sys2Proof.Machine
end

