-- ==== Sys2Proof/Machine/Power.lean ====
section
/-! DEFINITION. Power domains, start stages, resets and the Amber domain (spec/03_power_start_reset.md, R58 to R94). -/

namespace Sys2Proof.Machine

/-! ### Shared operations -/

/-- The power domain of a memory byte; 8 for the flacon, which keeps its contents (R39, R61). -/
def memDomain (a : Nat) : Nat :=
  if a < 0x10000000 then 2 else if a < 0x20000000 then 3 else if a < 0x30000000 then 5 else if a < 0x40000000 then 8 else 2

/-- A domain's registers back at their reset values and its memories at zero (R60, R61). -/
def Dev.clearRegs (i : Nat) (d : Dev) : Dev :=
  ((d.putRegs (d.regs.filter fun e => regDomain e.1 != i)).putMem (d.mem.filter fun e => memDomain e.1 != i)).putEcc (d.ecc.filter fun e => memDomain e.1 != i)

/-- What is left of a domain that is switched off: its outputs clamped, its registers and memories gone, its functions not ready
(R60, R61, R92). -/
def Dev.clearDomain (i : Nat) (d : Dev) : Dev :=
  let d := d.clearRegs i
  if i == 2 then (((d.setReady 8 false).putBoot { d.boot with runs := false, serving := false, halted := false }).putSup {}).putPer { d.per with rxq := [], txq := [], qspi := none }
  else if i == 3 then ((((((d.setReady 16 false).putEngs []).putXq []).putOutQ []).putSorts []).putSils []).putImg []
  else if i == 4 then
    (((((((d.setReady 14 false).setReady 15 false).setReady 17 false).putLanes []).putPorts []).putCells []).putAtm {}).putTwin {}
  else if i == 5 then (d.setReady 13 false).putNet {}
  else if i == 6 then (((d.setReady 10 false).putAdcs []).putSnap (d.snap.filter fun e => 64 ≤ e.1)).setLevel 82 false
  else if i == 7 then ((d.setReady 11 false).setReady 12 false).putMet {}
  else d

/-- The first switch of the request begins: a switch-off takes the domain's bit of ON at once, METER's only after its latch (R60,
R65). -/
def Dev.startSwitch (d : Dev) : Dev :=
  match d.pwr.queue with
  | (i, false) :: _ =>
    if i == 7 && d.pwr.latching then d
    else
      let d := (d.setB Reg.SYS_PWR_STAT i false).clearDomain i
      if i == 2 then ((d.setB Reg.SYS_PWR_CTL 2 true).putPwr { d.pwr with restart := true }) else d
  | _ => d

/-- Switches go behind those still to be made (R63). -/
def Dev.addSwitches (l : List (Nat × Bool)) (d : Dev) : Dev :=
  let q := d.pwr.queue
  let d : Dev := d.putPwr { d.pwr with queue := q ++ l }
  if q.isEmpty then d.startSwitch else d

/-- A supervisor restart with its cause: SUPV off and on again behind whatever is being switched (R66, R485). It shows in BUSY as one that a
write asks for does (DESIGN CHOICE, notes/assumptions/109). -/
def Dev.supvRestart (cause : Nat) (d : Dev) : Dev :=
  let d := (d.setB Reg.SYS_RST_CAUSE 4 true).setF Reg.SYS_SUPV_CAUSE 0 3 cause
  let d := d.setF Reg.SYS_SUPV_CAUSE 8 8 (min 255 (d.fld Reg.SYS_SUPV_CAUSE 8 8 + 1))
  if d.pwr.restart || d.pwr.queue.any fun e => e == (2, false) then d
  else (d.setB Reg.SYS_PWR_STAT 10 true).addSwitches [(2, false), (2, true)]

/-- SAFE comes out of reset where nothing holds it: the top-note stage (R59, R72, R83). The cause is copied to AMB_LAST_RST (R85), and a VBAT
outside its window is a fault from the start (R93). -/
def Dev.topNote (d : Dev) : Dev :=
  if !(d.pwr.mainGood && d.pwr.resetHi && !d.pwr.dbgHeld) || d.pwr.safeOn then d
  else
    let ok := bitsOf 6 fun i => !d.pwr.winOut.getLsbD i && (i == 0 || i == 2 || i == 4 || i == 5 || (i == 1 && d.pwr.pg.getLsbD 0) || (i == 3 && d.pwr.pg.getLsbD 1))
    let d := (d.putPwr { d.pwr with safeOn := true }).putFc { d.fc with errn := true }
    let d := (d.setB Reg.FC_STAT 2 true).setF Reg.SYS_SUPMON 0 6 ok
    let d := if d.amb.powered then d.wr Reg.AMB_LAST_RST (BitVec.ofNat 32 (256 + d.fld Reg.SYS_RST_CAUSE 0 4)) else d
    if d.pwr.winOut.getLsbD 5 then d.raise 87 else d

/-- A reset that clears SAFE and switches every other domain but AMBER off (R80, R84, R85). `cause` is the bit of SYS_RST_CAUSE;
`keepBoot` keeps SYS_BOOT (R510). -/
def Dev.bigReset (cause : Nat) (wdog keepBoot : Bool) (d : Dev) : Dev :=
  let d := d.flushLatches
  let boot := d.rd Reg.SYS_BOOT
  let d' : Dev := { Dev.reset with
    fm := d.fm, twinId := d.twinId, fused := d.fused, fmCal := d.fmCal, per := { flash := d.per.flash }, amb := d.amb, outbox := d.outbox, busResp := d.busResp, freeCtr := d.freeCtr,
    regs := d.regs.filter fun e => regDomain e.1 == 0, mem := d.mem.filter fun e => memDomain e.1 == 8,
    pwr := { mainGood := d.pwr.mainGood, resetHi := d.pwr.resetHi, dbgHeld := d.pwr.dbgHeld, pg := d.pwr.pg, winOut := d.pwr.winOut },
    pdrvLow := d.pdrvLow, grdyBad := d.grdyBad,
    boot := { policy := d.boot.policy, svnMin := d.boot.svnMin, hashes := d.boot.hashes, prog := d.boot.prog, revoked := d.boot.revoked,
              serial := d.boot.serial, tapIr := d.boot.tapIr, tapDr := d.boot.tapDr },
    tsrv := {} }
  let d' := d'.wr Reg.SYS_RST_CAUSE (BitVec.ofNat 32 (2 ^ cause + 32 * b2n wdog))
  let d' := if keepBoot then d'.wr Reg.SYS_BOOT boot else d'
  if d.amb.powered then d'.wr Reg.AMB_LAST_RST (BitVec.ofNat 32 (256 + 2 ^ cause)) else d'

/-- The holdover device time in whole nanoseconds. -/
def Dev.holdNs (d : Dev) : Nat := d.amb.hold / 65536 % 2 ^ 64

/-- A pending Amber write takes effect (R91). -/
def Dev.applyAmb (d : Dev) : Dev :=
  match d.amb.queue with
  | [] => d
  | (a, v) :: rest =>
    -- END_S 0 stores 1 (R371)
    let v := if a == Reg.AMB_BW_CTL then putField v 8 8 (max 1 (fieldOf v 8 8)) else v
    (d.putAmb { d.amb with queue := rest }).genWrite a v

/-- A write to the AMB block: it waits for its Amber clocks, replaces a pending write of the same register, and stalls behind the
oldest where eight are pending (R91). -/
def Dev.ambWrite (a : Nat) (v : Word) (d : Dev) : Dev :=
  if d.amb.queue.any fun e => e.1 == a then
    d.putAmb { d.amb with queue := d.amb.queue.map fun e => if e.1 == a then (a, v) else e }
  else
    let d := if 8 ≤ d.amb.queue.length then d.applyAmb else d
    d.putAmb { d.amb with queue := d.amb.queue ++ [(a, v)] }

/-! ### Start and reset commands -/

/-- MAIN_SUPPLIES_GOOD (R59, R72). -/
def mainSuppliesGood (d : Dev) : Dev :=
  if d.pwr.mainGood then d else (d.putPwr { d.pwr with mainGood := true }).topNote

/-- HEART_NOTE_ENTRY (R70, R73, R433): the top-note functions are ready, SUPV is switched on, the boot ROM writes CLK_BAND_0. -/
def heartNoteEntry (d : Dev) : Dev :=
  if !d.pwr.safeOn || d.fld Reg.SYS_STAGE 0 2 != 1 then d else
  let d := forN 5 (fun i d => d.setReady i true) d
  let d := (d.wr Reg.SYS_STAGE 2).setB Reg.SYS_PWR_CTL 2 true
  let d := d.wr (Reg.CLK_BAND 0) 0xBEAB86A0#32
  d.putPwr { d.pwr with queue := d.pwr.queue ++ [(2, true)] }

/-- MAIN_SUPPLY_LOSS (R59, R80, R89): a supply reset; the holdover time is stored in AMB_OFF. The TAP, unpowered, starts again with IDCODE
(R503; DEDUCED, notes/assumptions/114). -/
def mainSupplyLoss (d : Dev) : Dev :=
  if !d.pwr.mainGood then d else
  let d := (d.putPwr { d.pwr with mainGood := false, dbgHeld := false }).bigReset 0 false false
  let d := d.putBoot { d.boot with tapIr := 1, tapDr := 0x19144C5B }
  if !d.amb.powered then d
  else (d.wr Reg.AMB_OFF_LO (BitVec.ofNat 32 d.holdNs)).wr Reg.AMB_OFF_HI (BitVec.ofNat 32 (d.holdNs / 2 ^ 32))

/-- The refusals of a domain request, in the order key, busy, rails, atomizer (R62, R64): the bit of SYS_PWR_ERR. Where several apply the
first alone sets its flag (DESIGN CHOICE, notes/assumptions/109). -/
def Dev.pwrRefusal (d : Dev) (v : Word) : Option Nat :=
  let old := d.rd Reg.SYS_PWR_CTL
  let ons (i : Nat) : Bool := v.getLsbD i && !old.getLsbD i
  let offs (i : Nat) : Bool := !v.getLsbD i && old.getLsbD i
  if fieldOf v 24 8 != 0xA5 then some 0
  else if d.fld Reg.SYS_PWR_STAT 8 8 != 0 then some 1
  else if ((ons 4 || ons 5) && !d.pwr.pg.getLsbD 0) || (ons 6 && !d.pwr.pg.getLsbD 1) then some 2
  else if (offs 4 || offs 3) && d.atmRuns then some 3
  else none

/-- An accepted domain request: BUSY of every changed domain, the switches in order (R63, R66). The latch of METER is made by the
caller (R65). -/
def Dev.pwrAccept (v : Word) (d : Dev) : Dev :=
  let old := d.rd Reg.SYS_PWR_CTL
  let ids := [2, 3, 4, 5, 6, 7]
  let offs := ids.reverse.filter fun i => !v.getLsbD i && old.getLsbD i
  let ons := ids.filter fun i => (v.getLsbD i && !old.getLsbD i) || (i == 2 && offs.contains 2)
  let d := d.wr Reg.SYS_PWR_CTL (BitVec.ofNat 32 (3 + 4 * fieldOf v 2 6))
  let d := (offs ++ ons).foldl (fun d i => d.setB Reg.SYS_PWR_STAT (8 + i) true) d
  let d := if offs.contains 2 then
      let d := (d.setB Reg.SYS_RST_CAUSE 4 true).setF Reg.SYS_SUPV_CAUSE 0 3 1
      d.setF Reg.SYS_SUPV_CAUSE 8 8 (min 255 (d.fld Reg.SYS_SUPV_CAUSE 8 8 + 1))
    else d
  let d : Dev := d.putPwr { d.pwr with latching := offs.contains 7 }
  d.addSwitches (offs.map (·, false) ++ ons.map (·, true))

/-- DOMAIN_SWITCH_OFF_DONE (R61, R63). -/
def domainSwitchOffDone (d : Dev) : Dev :=
  match d.pwr.queue with
  | (i, false) :: rest =>
    if i == 7 && d.pwr.latching then d
    else
      let d := if rest.contains (i, true) then d else d.setB Reg.SYS_PWR_STAT (8 + i) false
      (d.putPwr { d.pwr with queue := rest }).startSwitch
  | _ => d

/-- DOMAIN_SWITCH_ON_DONE (R60, R63): memories zero, registers at reset, then the bit of ON. -/
def domainSwitchOnDone (d : Dev) : Dev :=
  match d.pwr.queue with
  | (i, true) :: rest =>
    let d := d.clearDomain i
    let d := Dev.watch [88] (fun d => (d.setB Reg.SYS_PWR_STAT i true).setB Reg.SYS_PWR_STAT (8 + i) (rest.any fun e => e.1 == i)) d
    let d := d.putPwr { d.pwr with queue := rest, restart := d.pwr.restart && i != 2 }
    let d := if i == 3 then d.setReady 16 true else if i == 5 then d.setReady 13 true else if i == 7 then d.setB Reg.MET_STAT 5 d.fm else d
    -- the fused registers, and the calibration of both converter groups without a request (R301, R309, R368)
    let d := d.fused.foldl (fun d e => if d.fm && regDomain e.1 == i then d.wr e.1 e.2 else d) d
    let d := if i == 6 then
        -- the reference settles for up to 80 us (R310): a free value (notes/assumptions/89)
        forN 2 (fun g d => (((d.setB (Reg.ADC_STAT g) 2 true).putAdcs (SMap.put d.adcs {} g { cal := 2, calAt := d.now + Config.freeNat d.freeCtr % 80001 })).putMet
          { d.met with calGap := SMap.put d.met.calGap 0 g 1 }).nextFree) d
      else d
    let d := if i == 2 then (d.putBoot { d.boot with granted := false }) else d
    let d := if (i == 4 || i == 5) && d.pwr.winOut.getLsbD 1 || i == 6 && d.pwr.winOut.getLsbD 3 then d.raise 87 else d
    d.startSwitch
  | _ => d

/-- SUPPLY_WINDOW_EXIT (R93): with `out` false, the supply is back in its window. A main supply makes a supply reset. -/
def supplyWindowExit (i : Nat) (out : Bool) (d : Dev) : Dev :=
  if out && (i == 0 || i == 2 || i == 4) then mainSupplyLoss d
  else
    let was := d.pwr.winOut.getLsbD i
    let d := d.putPwr { d.pwr with winOut := (d.pwr.winOut &&& ~~~(1#6 <<< i)) ||| (if out then 1#6 <<< i else 0) }
    if !d.pwr.safeOn then d else
    let d := d.setB Reg.SYS_SUPMON i (!out)
    if !out || was then d
    else
      let d := d.setB Reg.SYS_SUPMON (8 + i) true
      if i == 5 || (i == 1 && (d.domainOn 4 || d.domainOn 5)) || (i == 3 && d.domainOn 6) then d.raise 87 else d

/-- A write of SYS_CTL: MET_WAIVE, for which the SV9144-FM refuses the write (R76), then GO_BASE (R75). -/
def sysCtlWrite (v : Word) (d : Dev) : Dev :=
  if v.getLsbD 1 && d.fm then d.setB Reg.SYS_PWR_ERR 4 true else
  let d := if v.getLsbD 1 then d.setB Reg.SYS_CTL 1 true else d
  if !v.getLsbD 0 then d
  else if d.fld Reg.SYS_READY 5 4 == 15 && (d.bit Reg.SYS_READY 11 || d.bit Reg.SYS_CTL 1) then d.wr Reg.SYS_STAGE 3
  else d.setB Reg.SYS_PWR_ERR 5 true

/-- RESET_N_ASSERT (R80, R83): a low level past the glitch filter. -/
def resetNAssert (d : Dev) : Dev :=
  if !d.pwr.resetHi then d
  else
    let d := d.putPwr { d.pwr with resetHi := false }
    if d.pwr.safeOn then d.bigReset 1 false false else d

/-- RESET_N_RELEASE (R83): the top-note stage begins. -/
def resetNRelease (d : Dev) : Dev := (d.putPwr { d.pwr with resetHi := true }).topNote

/-- SOFTWARE_RESET, a write of SYS_RST_CTL (R80). -/
def softwareReset (v : Word) (d : Dev) : Dev :=
  if v.getLsbD 0 && fieldOf v 16 16 == 0x5A5A then (d.bigReset 2 false true).topNote else d

/-! ### Amber commands -/

/-- RESET_STUCK (R86): RESET_N has been low for 32,768 Amber clocks. -/
def resetStuck (d : Dev) : Dev :=
  if !(d.pwr.mainGood && !d.pwr.resetHi && d.amb.powered && d.bit Reg.AMB_CTL 1) then d else
  let d := d.setB Reg.AMB_STATUS 5 true
  let d := (d.wr Reg.AMB_RSTK_LO (BitVec.ofNat 32 d.holdNs)).wr Reg.AMB_RSTK_HI (BitVec.ofNat 32 (d.holdNs / 2 ^ 32))
  d.inc Reg.AMB_RSTK_CNT 8

/-- AMBER_SOURCE_SWITCH (R87): no state is lost. -/
def amberSourceSwitch (toVbat : Bool) (d : Dev) : Dev := if d.amb.powered then d.setB Reg.AMB_STATUS 0 toVbat else d

/-- VBAT_BROWN_OUT (R87, R88): while Amber runs from VBAT, a trip loses its state. -/
def vbatBrownOut (d : Dev) : Dev :=
  if d.amb.powered && d.bit Reg.AMB_STATUS 0 then
    (d.putAmb { powered := false }).putRegs (d.regs.filter fun e => regDomain e.1 != 0)
  else d

/-- AMBER_POWER_ON (R88, R94): AMB_LOST, HOLD_VALID clear, mirrors invalid, registers at reset. -/
def amberPowerOn (onVbat : Bool) (d : Dev) : Dev :=
  if d.amb.powered then d
  else (((d.putAmb {}).putRegs (d.regs.filter fun e => regDomain e.1 != 0)) : Dev).setB Reg.AMB_STATUS 0 onVbat

/-- HOLDOVER_TICK (R89): the count follows device time while it is valid and SYNC_EN is set, else advances by one tick. -/
def holdoverTick (d : Dev) : Dev :=
  if !d.amb.powered then d else
  let d := if d.amb.x32Ok then d else
    let n := d.amb.x32Run + 1
    d.putAmb { d.amb with x32Run := n }
  if d.pwr.safeOn && d.bit Reg.SYS_READY 9 && d.bit Reg.AMB_CTL 0 then
    (d.setB Reg.AMB_STATUS 6 true).putAmb { d.amb with hold := d.tb.dt / 2 ^ 32 }
  else
    let step : Int := 30517 * 65536 + 37888 + sext 20 (d.fld Reg.AMB_TRIM 0 20)
    d.putAmb { d.amb with hold := (d.amb.hold + step).toNat % 2 ^ 80 }

/-- X32_FAIL (R90): no tick for 4 ms. -/
def x32Fail (d : Dev) : Dev :=
  if !d.amb.powered then d else
  let d := (d.setB Reg.AMB_STATUS 4 true).setB Reg.AMB_STATUS 6 false
  d.putAmb { d.amb with x32Ok := false, x32Run := 0 }

/-- X32_RECOVERED (R90): 1,024 consecutive ticks; the Amber interface is back on the crystal. -/
def x32Recovered (d : Dev) : Dev := d.putAmb { d.amb with x32Ok := true, x32Run := 0 }

/-- AMB_WRITE_APPLY (R91): the oldest pending write takes effect. -/
def ambWriteApply (d : Dev) : Dev := if d.amb.powered then d.applyAmb else d

/-- BAT_MEASURE (R94, AMB_STATUS). -/
def batMeasure (mv : Nat) (d : Dev) : Dev :=
  if !d.amb.powered then d
  else (d.setB Reg.AMB_STATUS 1 (decide (mv < 2200))).setB Reg.AMB_STATUS 2 (decide (mv < 1500))


/-! ### Meanings -/

def execMainSuppliesGood (s : State) : Host.Outcome State Fault Refusal := run mainSuppliesGood s
def execHeartNoteEntry (s : State) : Host.Outcome State Fault Refusal := run heartNoteEntry s
def execMainSupplyLoss (s : State) : Host.Outcome State Fault Refusal := run mainSupplyLoss s
def execDomainSwitchOnDone (s : State) : Host.Outcome State Fault Refusal := run domainSwitchOnDone s
def execDomainSwitchOffDone (s : State) : Host.Outcome State Fault Refusal := run domainSwitchOffDone s
def execSupplyWindowExit (i : Fin 6) (out : Bool) (s : State) : Host.Outcome State Fault Refusal := run (supplyWindowExit i out) s
def execGoBase (m : Master) (v : Word) (s : State) : Host.Outcome State Fault Refusal := run (Dev.viaBus m Reg.SYS_CTL (sysCtlWrite v)) s
def execMetWaive (m : Master) (v : Word) (s : State) : Host.Outcome State Fault Refusal := run (Dev.viaBus m Reg.SYS_CTL (sysCtlWrite v)) s
def execResetNAssert (s : State) : Host.Outcome State Fault Refusal := run resetNAssert s
def execResetNRelease (s : State) : Host.Outcome State Fault Refusal := run resetNRelease s
def execSoftwareReset (m : Master) (v : Word) (s : State) : Host.Outcome State Fault Refusal := run (Dev.viaBus m Reg.SYS_RST_CTL (softwareReset v)) s
def execResetStuck (s : State) : Host.Outcome State Fault Refusal := run resetStuck s
def execAmberSourceSwitch (toVbat : Bool) (s : State) : Host.Outcome State Fault Refusal := run (amberSourceSwitch toVbat) s
def execVbatBrownOut (s : State) : Host.Outcome State Fault Refusal := run vbatBrownOut s
def execAmberPowerOn (onVbat : Bool) (s : State) : Host.Outcome State Fault Refusal := run (amberPowerOn onVbat) s
def execX32Fail (s : State) : Host.Outcome State Fault Refusal := run x32Fail s
def execX32Recovered (s : State) : Host.Outcome State Fault Refusal := run x32Recovered s
def execAmbWriteApply (s : State) : Host.Outcome State Fault Refusal := run ambWriteApply s
def execBatMeasure (millivolt : Nat) (s : State) : Host.Outcome State Fault Refusal := run (batMeasure millivolt) s
def execHoldoverTick (s : State) : Host.Outcome State Fault Refusal := run holdoverTick s

end Sys2Proof.Machine
end

