-- ==== Sys2Proof/Machine/Met.lean ====
section
/-! DEFINITION. The metering engine: bins, line cycles, energies, latches, pulse inputs and outputs, bypass watch, seal
(spec/10_metering.md, R328 to R371). -/

namespace Sys2Proof.Machine

/-! ### Inputs -/

/-- The current inputs (R328). -/
def isCurrent (j : Nat) : Bool := (decide (3 ≤ j) && decide (j < 7)) || (decide (11 ≤ j) && decide (j < 15)) || j == 16

/-- The point of an input. -/
def pointOf (j : Nat) : Nat := if j < 7 then 0 else if j < 15 then 1 else 2

/-- The elements with their voltage and current inputs. -/
def elements : List (Nat × Nat × Nat) := [(0, 0, 3), (1, 1, 4), (2, 2, 5), (4, 7, 11), (5, 8, 12), (6, 9, 13), (8, 15, 16)]

def Dev.inEn (d : Dev) (j : Nat) : Bool := d.bit (Reg.MET_CH j) 6

/-- The engine accumulates: metering has started, is enabled, and neither PFW_N nor a switch-off request has stopped it. -/
def Dev.metRun (d : Dev) : Bool := d.domainOn 7 && d.met.on && d.bit Reg.MET_CTL 0 && !d.bit Reg.MET_STAT 6 && !d.met.off

/-- MET_STAT.RUN. -/
def Dev.metStat (d : Dev) : Dev := d.setB Reg.MET_STAT 0 d.metRun

/-- A conversion that R303 delivers: every enabled input that names its channel takes it (R329 to R331); the bins before the one in progress
have ended. -/
def Dev.metSample (g ch : Nat) (code : Int) (stamp : Nat) (d : Dev) : Dev :=
  if !d.metRun || decide (stamp / 40000 < d.met.bin) then d else
  forN 17 (fun j d =>
    if d.inEn j && d.fld (Reg.MET_CH j) 0 5 == ch && d.fld (Reg.MET_CH j) 5 1 == g then
      let c := if isCurrent j && d.bit (Reg.MET_IN (pointOf j)) 31 then -code else code
      let c' := (16 * c - sext 16 (d.fld (Reg.MET_DCAL_OFS j) 0 16)) * (2 ^ 24 + sext 24 (d.fld (Reg.MET_DCAL_GAIN j) 0 24))
      d.putMet { d.met with raw := d.met.raw ++ [(j, stamp / 40000, c')] }
    else d) d

/-- The mean of a bin's corrected codes times K (R331), none without a conversion. -/
def Dev.binMean (d : Dev) (j bin : Nat) : Option Int :=
  let l := (d.met.raw.filter fun e => e.1 == j && e.2.1 == bin).map (·.2.2)
  if l.isEmpty then none else some (rnd (l.foldl (· + ·) 0 * (d.rd (Reg.MET_K j)).toNat) l.length)

/-- The corrected sample of an input from its samples, newest first (R333, R334). -/
def Dev.corrected (d : Dev) (j : Nat) (xs : List Int) : Int :=
  let s := SMap.getD d.met.seg 0 j
  let on := isCurrent j && d.fld (Reg.MET_IN (pointOf j)) 0 24 != 0
  let phi : Int := if on then sext 12 (d.fld (Reg.MET_SEG_P j s) 0 12) else 0
  let g : Int := if on then sext 24 (d.fld (Reg.MET_SEG_G j s) 0 24) else 0
  let tau := (clampI 0 16383 (1024 * d.fld (Reg.MET_DLY j) 10 4 + d.fld (Reg.MET_DLY j) 0 10 + phi)).toNat
  let x (k : Nat) : Int := (xs.drop k).headD 0
  let D := tau / 1024
  let y := x D + ((x (D + 1) - x D) * (tau % 1024 : Nat) + 512) / 1024
  if isCurrent j then rnd (y * (2 ^ 24 + g)) (2 ^ 24) else y

/-- MET_BIN_END (R331 to R333): the bin in progress ends. An enabled input without a conversion repeats its sample and makes a gap. -/
def metBinEnd (d : Dev) : Dev :=
  let bin := d.met.bin
  if !d.metRun || (d.tb.counting && decide (d.nextSeq < 40000 * (bin + 1))) then d else
  let missing (j : Nat) : Bool := d.inEn j && (d.binMean j bin).isNone
  let short := (List.range 17).any missing
  let shortIn (g : Nat) : Bool := (List.range 17).any fun j => missing j && d.fld (Reg.MET_CH j) 5 1 == g
  let xs := (List.range 17).foldl (fun m j =>
    let old := SMap.getD d.met.xs [] j
    if d.inEn j then SMap.put m [] j ((((d.binMean j bin).getD (old.headD 0)) :: old).take 17) else m) d.met.xs
  let y (j : Nat) : Int := d.corrected j (SMap.getD xs [] j)
  let addSq (m : SMap Nat) : SMap Nat := (List.range 17).foldl (fun m j => SMap.put m 0 j (SMap.getD m 0 j + (y j).natAbs ^ 2)) m
  let vi := elements.foldl (fun m e => SMap.put m 0 e.1 (SMap.getD m 0 e.1 + y e.2.1 * y e.2.2)) d.met.vi
  let cyc := (List.range 17).foldl (fun m j => SMap.put m [] j (y j :: SMap.getD m [] j)) d.met.cyc
  let d := if short && !d.met.gapBin then d.setB Reg.MET_EVT 1 true else d
  (d.putMet { d.met with
    raw := d.met.raw.filter (fun e => decide (bin < e.2.1)), bin := bin + 1, xs := xs, vi := vi, cyc := cyc, sq := addSq d.met.sq, n := d.met.n + 1,
    hq := addSq d.met.hq, hn := d.met.hn + 1, wq := addSq d.met.wq, wn := d.met.wn + 1, gapBin := d.met.gapBin || short,
    gap := d.met.gap + (if short then 40000 else 0), calGap := d.met.calGap.map fun e => (e.1, e.2 + (if shortIn e.1 then 40000 else 0)) })

/-! ### Energies -/

/-- The square root of a number of up to 512 bits, rounded down. -/
def isqrt (v : Nat) : Nat := (List.range 256).foldl (fun r i => let t := r + 2 ^ (255 - i); if t * t ≤ v then t else r) 0

/-- Energy in 2^-32 mWh of a sum of v × i over bins of 40 us (R337). -/
def viEnergy (s : Int) : Int := rnd s (90000 * 2 ^ 64)

/-- Energy in 2^-32 mWh of a power in 2^-96 W over a time in ns. -/
def powEnergy (p : Int) (t : Nat) : Int := rnd (p * (t : Int)) (3600000000 * 2 ^ 64)

/-- The registers that the powers of one kind feed, by sign (R337, R338). -/
def feeds (e k : Nat) (p q s : Int) : List (Nat × Nat) :=
  let r (i : Nat) (v : Int) : Nat × Nat := (16 * e + k + i, v.natAbs)
  let quad := if 0 ≤ p then (if 0 ≤ q then 2 else 5) else if 0 ≤ q then 3 else 4
  [r (if 0 ≤ p then 0 else 1) p, r quad q, r (if 0 ≤ p then 6 else 7) s]

/-- 2^30 times the cosine of k / 256 of a turn, to the nearest, for the first quarter. -/
def cosQuarter : List Int :=
  [1073741824, 1073418433, 1072448455, 1070832474, 1068571464, 1065666786, 1062120190, 1057933813, 1053110176, 1047652185, 1041563127] ++
  [1034846671, 1027506862, 1019548121, 1010975242, 1001793390, 992008094, 981625251, 970651112, 959092290, 946955747, 934248793] ++
  [920979082, 907154608, 892783698, 877875009, 862437520, 846480531, 830013654, 813046808, 795590213, 777654384, 759250125] ++
  [740388522, 721080937, 701339000, 681174602, 660599890, 639627258, 618269338, 596538995, 574449320, 552013618, 529245404] ++
  [506158392, 482766489, 459083786, 435124548, 410903207, 386434353, 361732726, 336813204, 311690799, 286380643, 260897982] ++
  [235258165, 209476638, 183568930, 157550647, 131437462, 105245103, 78989349, 52686014, 26350943, 0]

/-- The cosine of k / 256 of a turn in 2^-30, within one unit of the nearest: the spec gives the engine's phasors no rounding (R337; DESIGN
CHOICE, notes/assumptions/54). -/
def cos256 (k : Nat) : Int :=
  let k := k % 256
  let q (i : Nat) : Int := (cosQuarter.drop i).headD 0
  let c := if k ≤ 64 then q k else if k ≤ 128 then -(q (128 - k)) else if k ≤ 192 then -(q (k - 128)) else q (256 - k)
  c + clampI (-1) 1 (Config.cosError k)

/-- 256 points at even distances over a cycle, linear between its samples, oldest first, in 256ths of a sample unit; none of a cycle without a
sample (R337). The first point is the first sample; after the last one it holds (DESIGN CHOICE, notes/assumptions/54). -/
def resample (xs : List Int) : List Int :=
  if xs.isEmpty then [] else
  let n := xs.length
  (List.range 256).map fun m =>
    let r := xs.drop (m * n / 256)
    let a := r.headD 0
    256 * a + ((r.drop 1).headD a - a) * (m * n % 256 : Nat)

/-- The sums of a phasor of order `h` over resampled points: 256 × 256 × 2^30 / √2 times V_h, real and imaginary (R337). -/
def phasor (pts : List Int) (h : Nat) : Int × Int :=
  (pts.zipIdx).foldl (fun (a : Int × Int) x => (a.1 + x.1 * cos256 (h * x.2), a.2 + x.1 * cos256 (h * x.2 + 64))) (0, 0)

/-- The points of the cycle of an input. -/
def Dev.cyclePoints (d : Dev) (j : Nat) : List Int := resample (SMap.getD d.met.cyc [] j).reverse

/-- The energies P, Q, S of an element over a cycle, total and fundamental: active and apparent total from the samples, the others from the
phasors (R337). -/
def Dev.elemEnergies (d : Dev) (e v i t : Nat) : (Int × Int × Int) × (Int × Int × Int) :=
  let p := viEnergy (SMap.getD d.met.vi 0 e)
  let s := powEnergy ((isqrt (SMap.getD d.met.sq 0 v * SMap.getD d.met.sq 0 i) / max 1 d.met.n : Nat) : Int) t
  let vp := d.cyclePoints v; let ip := d.cyclePoints i
  let re (a b : Int × Int) : Int := a.1 * b.1 + a.2 * b.2
  let im (a b : Int × Int) : Int := a.2 * b.1 - a.1 * b.2
  let pow (x : Int) : Int := powEnergy (x / 2 ^ 91) t
  let q := (List.range 63).foldl (fun s h => s + im (phasor vp (h + 1)) (phasor ip (h + 1))) 0
  let v1 := phasor vp 1; let i1 := phasor ip 1
  ((p, pow q, s), (pow (re v1 i1), pow (im v1 i1), pow (isqrt ((re v1 v1).natAbs * (re i1 i1).natAbs) : Nat)))

/-- What a cycle of duration `t` adds to the energy registers. -/
def Dev.cycleFeeds (d : Dev) (t : Nat) : List (Nat × Nat) :=
  let l : List (Nat × (Int × Int × Int) × (Int × Int × Int)) := elements.map fun x => (x.1, d.elemEnergies x.1 x.2.1 x.2.2 t)
  let add (a b : Int × Int × Int) : Int × Int × Int := (a.1 + b.1, a.2.1 + b.2.1, a.2.2 + b.2.2)
  let tot (lo : Nat) : (Int × Int × Int) × (Int × Int × Int) :=
    (l.filter fun e => decide (lo ≤ e.1) && decide (e.1 < lo + 3)).foldl (fun a e => (add a.1 e.2.1, add a.2 e.2.2)) ((0, 0, 0), (0, 0, 0))
  let full (e : Nat) (x : (Int × Int × Int) × (Int × Int × Int)) : List (Nat × Nat) :=
    feeds e 0 x.1.1 x.1.2.1 x.1.2.2 ++ feeds e 8 x.2.1 x.2.2.1 x.2.2.2
  (l.map fun e => if e.1 == 8 then (feeds 8 0 e.2.1.1 0 0).take 1 else full e.1 e.2).flatten ++ full 3 (tot 0) ++ full 7 (tot 4)

def Dev.energy (d : Dev) (q : Nat) : Nat := SMap.getD d.met.e 0 q

/-- MET_E, MET_I and MET_IW of a quantity (R338, R342). -/
def Dev.metE (d : Dev) (q : Nat) : Nat := d.energy q / 2 ^ 32 % 2 ^ 64
def Dev.metInterval (d : Dev) (q : Nat) : Nat := d.metE q - SMap.getD d.met.ibase 0 q
def Dev.metI (d : Dev) (q : Nat) : Word := BitVec.ofNat 32 (d.metInterval q)
def Dev.metIw (d : Dev) (q : Nat) : Word :=
  let n := d.metInterval q / 2 ^ 32
  BitVec.ofNat 32 (n % 256 + 256 * b2n (n != 0) + 65536 * (d.met.iseq % 65536))

/-- Adds growth to a pulse output's accumulator: pulses of EPP mWh, at most 255 pending (R361, R362). -/
def Dev.poutAdd (q x : Nat) (d : Dev) : Dev :=
  forN 4 (fun n d =>
    if !(d.bit Reg.POUT_CTL n && d.fld (Reg.POUT_SRC n) 0 8 == q) then d else
    let epp := (d.rd (Reg.POUT_EPP n)).toNat * 2 ^ 32
    let a := SMap.getD d.met.pacc 0 n + x
    let p := SMap.getD d.met.ppend 0 n + a / max 1 epp
    let d := if 255 < p then (d.incBy (Reg.POUT_LOST n) (p - 255)).setB Reg.POUT_EVT n true else d
    (d.putMet { d.met with pacc := SMap.put d.met.pacc 0 n (a % max 1 epp), ppend := SMap.put d.met.ppend 0 n (min 255 p) })) d

/-- Adds energies to the registers (R337, R338, R342, R361). -/
def Dev.addEnergy (l : List (Nat × Nat)) (d : Dev) : Dev :=
  l.foldl (fun d e =>
    let was := d.metInterval e.1 / 2 ^ 32
    let d := d.putMet { d.met with e := SMap.put d.met.e 0 e.1 (d.energy e.1 + e.2) }
    let d := if d.metInterval e.1 / 2 ^ 32 != was then d.setB Reg.MET_EVT 7 true else d
    d.poutAdd e.1 e.2) d

/-- The energies of the cycle in progress up to an instant (R339): active energies from the samples, the bin in progress with its elapsed
time; every other quantity from the last complete cycle. -/
def Dev.partFeeds (d : Dev) (t : Nat) : List (Nat × Nat) :=
  if !d.metRun then [] else
  let bin := d.met.bin
  let y (j : Nat) : Int :=
    match d.binMean j bin with
    | some x => d.corrected j (x :: SMap.getD d.met.xs [] j)
    | none => 0
  let act (x : Nat × Nat × Nat) : Int := viEnergy (SMap.getD d.met.vi 0 x.1) + rnd (y x.2.1 * y x.2.2 * (t % 40000 : Nat)) (90000 * 2 ^ 64 * 40000)
  let l : List (Nat × Int) := elements.map fun x => (x.1, act x)
  let tot (lo : Nat) : Int := (l.filter fun e => decide (lo ≤ e.1) && decide (e.1 < lo + 3)).foldl (fun a e => a + e.2) 0
  let a := (l ++ [(3, tot 0), (7, tot 4)]).map fun (e : Nat × Int) => (16 * e.1 + (if 0 ≤ e.2 then 0 else 1), e.2.natAbs)
  let dt := t - d.met.lastT
  let o := d.met.dq.filterMap fun e => if e.1 % 16 < 2 then none else some (e.1, e.2 * dt / max 1 d.met.dT)
  a ++ o

/-! ### Latches -/

/-- Entry `i` of the selection (MET_SEL). -/
def Dev.selQ (d : Dev) (i : Nat) : Nat := d.fld (Reg.MET_SEL_0 + i / 4 * 4) (8 * (i % 4)) 8

def Dev.cfgCnt (d : Dev) : Nat := d.fld Reg.MET_STAT 8 8

/-- A register image (R352). -/
def Dev.metImage (d : Dev) (iseq rseq time : Nat) : List Byte :=
  let b := leBytes 4 0x4946 ++ leBytes 4 iseq ++ leBytes 4 rseq ++ leBytes 4 0 ++ leBytes 8 time ++ leBytes 4 (d.rd Reg.MET_LCYC).toNat ++
    leBytes 4 0 ++ ((List.range 130).map fun q => leBytes 8 (d.metE q)).flatten ++
    ((List.range 8).map fun n => leBytes 4 (d.rd (Reg.PCNT_CNT n)).toNat).flatten ++ leBytes 4 d.cfgCnt
  b ++ leBytes 4 (crc32 b)

/-- A custody record (R350). -/
def Dev.metRecord (d : Dev) (kind flags rseq time : Nat) : List Byte :=
  let freq := if d.met.cycT == 0 then (d.rd Reg.MET_FREQ).toNat else 512000000000 * d.met.cycN / d.met.cycT
  let gap := min 65535 ((d.met.gap + 999999) / 1000000)
  let h := leBytes 2 0x4346 ++ [BitVec.ofNat 8 kind, BitVec.ofNat 8 flags] ++ leBytes 4 rseq ++ leBytes 8 time ++
    leBytes 4 (d.rd Reg.MET_LCYC).toNat ++ leBytes 2 freq ++ leBytes 2 gap ++ [BitVec.ofNat 8 d.cfgCnt, d.met.pbrk, 0, 0]
  let b := ((List.range 24).map fun i => leBytes 8 (d.metE (d.selQ i))).flatten ++
    ((List.range 8).map fun n => leBytes 4 (d.rd (Reg.PCNT_CNT n)).toNat).flatten
  h ++ leBytes 4 (crc32 (h ++ b)) ++ b

/-- FLAGS that follow from the state: GAP, FREQ_NOM, TIME_HOLD, TIME_INVALID, SEAL_BAD. -/
def Dev.metFlags (d : Dev) : Nat :=
  8 * b2n (d.met.gap != 0) + 16 * b2n d.met.nomF + 32 * b2n (d.bit Reg.TIME_STATUS 4) + 64 * b2n (!d.bit Reg.SYS_READY 9) +
    128 * b2n (!d.bit Reg.MET_STAT 4)

/-- A latch (R344 to R346): registers and pulse counters captured, the interval's counts restart; the record goes to the flacon with
MET_RECORD_WRITTEN. -/
def Dev.latch (kind flags time t : Nat) (d : Dev) : Dev :=
  let last := match d.met.recs.getLast? with | some r => r.rseq | none => (d.rd Reg.FLC_RSEQ).toNat
  let rseq := (last + 1) % 2 ^ 32
  let img := kind != 1 || decide (d.met.imgAt + 1000000000 ≤ t)
  let iseq := if img then (d.met.imgSeq + 1) % 2 ^ 32 else d.met.imgSeq
  let r : MetRec := { kind := kind, rseq := rseq, data := d.metRecord kind (flags + d.metFlags) rseq time, img := d.metImage iseq rseq time, putImg := img }
  let d := if kind == 4 then d.setB Reg.MET_EVT 3 true else d
  (d.putMet { d.met with
    recs := d.met.recs ++ [r], imgSeq := iseq, imgAt := if img then t else d.met.imgAt,
    eAt := d.met.e, pAt := (List.range 8).foldl (fun m n => SMap.put m 0 n (d.rd (Reg.PCNT_CNT n)).toNat) [],
    cycN := 0, cycT := 0, gap := 0, gapBin := false, nomF := d.bit Reg.MET_STAT 2, pbrk := 0 })

/-- A latch at the engine's own time. -/
def Dev.latchNow (kind t : Nat) (d : Dev) : Dev := d.latch kind 0 (d.metTime t) t

/-- Growth of a selected quantity in whole mWh since the last latch. -/
def Dev.grown (d : Dev) (q : Nat) : Nat := d.metE q - SMap.getD d.met.eAt 0 q / 2 ^ 32 % 2 ^ 64

/-- The trigger of LIMIT (R344). -/
def Dev.limitHit (d : Dev) : Bool :=
  ((List.range 24).any fun i => decide (2 ^ 31 ≤ d.grown (d.selQ i))) ||
    (List.range 8).any fun n => decide (2 ^ 15 ≤ ((d.rd (Reg.PCNT_CNT n)).toNat + 2 ^ 32 - SMap.getD d.met.pAt 0 n) % 2 ^ 32)

/-- MET_RECORD_WRITTEN (R346, R355, R65): the oldest latch reaches the flacon; a switch-off of METER that waited begins. -/
def metRecordWritten (d : Dev) : Dev :=
  match d.met.recs with
  | [] => d
  | r :: rest =>
    let d := (d.putMet { d.met with recs := rest }).putLatch r
    if rest.isEmpty && d.pwr.latching then (d.putPwr { d.pwr with latching := false }).startSwitch else d

/-! ### Line cycles -/

/-- One nominal period, ns. -/
def Dev.nomT (d : Dev) : Nat := if d.bit Reg.MET_CTL 1 then 16666667 else 20000000

/-- The segment of a current input from the cycle that ends (R334). -/
def Dev.pickSeg (d : Dev) (j : Nat) : Nat :=
  let i := d.fld (Reg.MET_IN (pointOf j)) 0 24
  let q := SMap.getD d.met.sq 0 j
  ([1, 2, 5, 10, 20, 50, 100].filter fun p => decide (d.met.n * (p * i * 2 ^ 48) ^ 2 ≤ q * 10000)).length

/-- The RMS of a sum of squares over `n` samples, in 2^-8 primary units. -/
def rms8 (q n : Nat) : Nat := isqrt (q / max 1 n) / 2 ^ 40

/-- A harmonic window ends (R340). -/
def Dev.windowEnd (d : Dev) : Dev :=
  let d := forN 17 (fun j d =>
    let d := d.wr (Reg.MET_RMS j) (BitVec.ofNat 32 (rms8 (SMap.getD d.met.wq 0 j) d.met.wn))
    forN 63 (fun h d => d.wr (Reg.MET_HARM j h) (Config.harmGroup (SMap.getD d.met.win [] j) (h + 1))) d) d
  let d := (d.wr Reg.MET_WSEQ (d.rd Reg.MET_WSEQ + 1)).setB Reg.MET_EVT 8 true
  d.putMet { d.met with wq := [], wn := 0, wc := 0, win := [] }

/-- The fundamental amplitude of the reference over the cycle is at least 655 codes (R335). -/
def Dev.refAmplitude (d : Dev) : Bool :=
  let j := d.fld Reg.MET_CTL 2 5
  let v := phasor (d.cyclePoints j) 1
  decide ((655 * (d.rd (Reg.MET_K j)).toNat) ^ 2 * 2 ^ 146 ≤ (v.1 * v.1 + v.2 * v.2).natAbs)

/-- A line period lies from 42.5 Hz to 69 Hz (R335). -/
def lineValid (t : Nat) : Bool := decide (14492754 ≤ t) && decide (t ≤ 23529411)

/-- A zero crossing of the reference while FREQ_NOM is set: it is valid since the crossing before where the half or whole period is in range and
the amplitude holds (R335, R336). -/
def Dev.crossing (t : Nat) (d : Dev) : Dev :=
  if !d.bit Reg.MET_STAT 2 || t == d.met.crossT then d else
  let dt := t - d.met.crossT
  let ok := d.met.ampOk && (lineValid dt || lineValid (2 * dt))
  (d.putMet { d.met with crossT := t, okFrom := if ok then some (d.met.okFrom.getD d.met.crossT) else none }).setB Reg.MET_STAT 1 ok

/-- The reference has been valid for four nominal periods (R336). -/
def Dev.refBack (t : Nat) (d : Dev) : Bool := match d.met.okFrom with | some f => decide (f + 4 * d.nomT ≤ t) | none => false

/-- The cycle ends at `t`: the energies of its duration, the segments of the next (R334, R337, R338). -/
def Dev.endCycle (t : Nat) (d : Dev) : Dev :=
  let dur := t - d.met.lastT
  let d := (d.wr Reg.MET_FREQ (BitVec.ofNat 32 (min 65535 (512000000000 / max 1 dur)))).wr Reg.MET_LCYC (d.rd Reg.MET_LCYC + 1)
  let fs := d.cycleFeeds dur
  let amp := d.refAmplitude
  let win := (List.range 17).foldl (fun m j => SMap.put m [] j (SMap.getD m [] j ++ d.cyclePoints j)) d.met.win
  let d := d.addEnergy fs
  let seg := (List.range 17).foldl (fun m j => if isCurrent j then SMap.put m 0 j (d.pickSeg j) else m) []
  d.putMet { d.met with
    dq := fs.foldl (fun m (e : Nat × Nat) => SMap.put m 0 e.1 e.2) [], dT := dur, lastT := t, seg := seg, ampOk := amp,
    vi := [], sq := [], n := 0, cyc := [], win := win, wc := d.met.wc + 1, cycN := d.met.cycN + 1, cycT := d.met.cycT + dur }

/-- What falls on a cycle end: a window's end, an interval restart, SYS_READY.MET, a latch (R340, R342, R344, R357). -/
def Dev.atCycleEnd (t : Nat) (d : Dev) : Dev :=
  let d := if (if d.bit Reg.MET_CTL 1 then 12 else 10) ≤ d.met.wc then d.windowEnd else d
  let d := if d.met.irstP then
      let base := (List.range 130).foldl (fun m q => SMap.put m 0 q (d.metE q)) []
      d.putMet { d.met with irstP := false, iseq := (d.met.iseq + 1) % 65536, ibase := base }
    else d
  let d := if d.met.ready == 1 then d.setReady 11 true else d
  let d := d.putMet { d.met with ready := d.met.ready - 1 }
  let sched := d.met.armed && decide (d.pair Reg.MET_LATCH_AT_LO Reg.MET_LATCH_AT_HI ≤ t)
  let kind := if sched then 2 else if d.met.forced then 3 else if d.limitHit then 4
    else if d.fld Reg.MET_LATCH 0 16 ≤ d.met.cycN then 1 else 0
  let d := d.putMet { d.met with armed := d.met.armed && !sched, forced := false }
  if kind == 0 then d else d.latchNow kind t

/-- LINE_CYCLE_END (R335 to R338, R344). While FREQ_NOM is set, the nominal timer ends the cycles, at whole nominal periods from the last end; a
crossing ends one once the reference has been valid for four nominal periods, and crossings govern again. -/
def lineCycleEnd (t : Nat) (d : Dev) : Dev :=
  if !d.metRun then d else
  let dur := t - d.met.lastT
  if !d.bit Reg.MET_STAT 2 then
    let d := d.endCycle t
    (d.setB Reg.MET_STAT 1 (lineValid dur && d.met.ampOk)).atCycleEnd t
  else if dur != 0 && dur % d.nomT == 0 then
    let d := d.endCycle t
    let d : Dev := if d.met.ampOk then d else d.putMet { d.met with okFrom := none }
    (d.setB Reg.MET_STAT 1 d.met.okFrom.isSome).atCycleEnd t
  else
    let d := d.crossing t
    if d.refBack t then (((d.setB Reg.MET_STAT 2 false).flcEvent 0x04 (leBytes 4 1)).endCycle t).atCycleEnd t else d

/-- FREQ_NOM_TIMEOUT (R336). -/
def freqNomTimeout (d : Dev) : Dev :=
  if !d.metRun || d.bit Reg.MET_STAT 2 then d else
  let d := ((d.setB Reg.MET_STAT 2 true).setB Reg.MET_STAT 1 false).setB Reg.MET_EVT 2 true
  (d.putMet { d.met with nomF := true, crossT := d.met.lastT, okFrom := none }).flcEvent 0x04 (leBytes 4 0)

/-- MIRROR_WRITE (R340, R354): at each zero crossing the unlatched growth goes to a mirror bank, and MET_RMSH is refreshed. -/
def mirrorWrite (t : Nat) (d : Dev) : Dev :=
  if !d.metRun then d else
  let d := d.crossing t
  let part := d.partFeeds t
  let partOf (q : Nat) : Nat := (part.filter fun e => e.1 == q).foldl (fun s e => s + e.2) 0
  let inc (q : Nat) : Nat := (d.energy q + partOf q) / 2 ^ 32 - SMap.getD d.met.eAt 0 q / 2 ^ 32
  let h := (d.met.hseq + 1) % 2 ^ 32
  let last := match d.met.recs.getLast? with | some r => r.rseq | none => (d.rd Reg.FLC_RSEQ).toNat
  let d := d.putMirror h last (d.metTime t) ((List.range 24).map fun i => inc (d.selQ i))
    ((List.range 8).map fun n => (d.rd (Reg.PCNT_CNT n)).toNat + 2 ^ 32 - SMap.getD d.met.pAt 0 n)
  let d := forN 17 (fun j d =>
    d.wr (Reg.MET_RMSH j) (BitVec.ofNat 32 (rms8 (SMap.getD d.met.hq 0 j + SMap.getD d.met.hq1 0 j) (d.met.hn + d.met.hn1)))) d
  d.putMet { d.met with hseq := h, hq1 := d.met.hq, hn1 := d.met.hn, hq := [], hn := 0 }

/-! ### Commands -/

/-- A write of MET_CMD: LATCH, ARM, DISARM, IRST (R342, R344, R345). -/
def metCmdWrite (v : Word) (d : Dev) : Dev :=
  let d := if v.getLsbD 0 then (d.putMet { d.met with forced := true }) else d
  let d := if !v.getLsbD 1 then d
    else if !d.bit Reg.SYS_READY 9 || d.pair Reg.MET_LATCH_AT_LO Reg.MET_LATCH_AT_HI ≤ d.now then d.setB Reg.MET_EVT 5 true
    else d.putMet { d.met with armed := true }
  let d := if v.getLsbD 2 then (d.putMet { d.met with armed := false }) else d
  if v.getLsbD 3 then (d.putMet { d.met with irstP := true }) else d

/-- A write of MET_LATCH: N 0 stores 1. -/
def metLatchWrite (v : Word) (d : Dev) : Dev := d.genWrite Reg.MET_LATCH (if fieldOf v 0 16 == 0 then 1 else v)

/-- A latch that METER's switch-off or PFW_N asks for: the part-cycle energy is booked first (R339, R355). -/
def Dev.lastLatch (kind t : Nat) (d : Dev) : Dev := ((d.flushLatches).addEnergy (d.partFeeds t)).latchNow kind t

/-- EMERGENCY_LATCH (R355). -/
def emergencyLatch (t : Nat) (d : Dev) : Dev :=
  if !(d.domainOn 7 && d.met.on) || d.bit Reg.MET_STAT 6 then d else
  let d := d.lastLatch 5 t
  let d := ((d.setB Reg.MET_STAT 6 true).setB Reg.MET_EVT 4 true).metStat
  d.putMet { d.met with stopAt := t, raw := [], vi := [], sq := [], n := 0, cyc := [], lastT := t }

/-- PFW_N_RETURN (R356): accumulation resumes at the next bin; the stop counts as gap. -/
def pfwNReturn (d : Dev) : Dev :=
  if !(d.domainOn 7 && d.met.on) || !d.bit Reg.MET_STAT 6 then d else
  let d := d.setB Reg.MET_STAT 6 false
  let bin := d.now / 40000 + 1
  (d.putMet { d.met with gap := d.met.gap + (40000 * bin - d.met.stopAt), lastT := 40000 * bin, raw := [], bin := bin }).metStat

/-- SYS_PWR_CTL_WRITE (R62 to R66): refused, or accepted; a METER switch-off first latches as an emergency does, KIND 6 (R65, R344). -/
def sysPwrCtlWrite (v : Word) (d : Dev) : Dev :=
  match d.pwrRefusal v with
  | some b => d.setB Reg.SYS_PWR_ERR b true
  | none =>
    let off := d.bit Reg.SYS_PWR_CTL 7 && !v.getLsbD 7 && d.met.on
    let d := if off then
        let d := d.lastLatch 6 d.now
        (d.putMet { d.met with raw := [], off := true }).metStat
      else d
    let d := d.pwrAccept v
    -- with nothing to write, the switch-off waits for no latch
    if d.pwr.latching && d.met.recs.isEmpty then (d.putPwr { d.pwr with latching := false }).startSwitch else d

/-! ### Start -/

/-- The newest good entry of a sector: its slot. -/
def Dev.lastGood (d : Dev) (s count size tag : Nat) : Option Nat :=
  (List.range count).reverse.find? fun i =>
    let a := sectAddr s + 0x100 + size * i
    d.mrd a 2 == tag &&
      (if size == 256 then d.mrd (a + 0x1C) 4 == crc32 (d.flcBytes a 0x1C ++ d.flcBytes (a + 0x20) 0xE0)
       else d.mrd (a + 0x1C) 4 == crc32 (d.flcBytes a 0x1C))

/-- The current sector of a kind (R349). -/
def Dev.newestSect (d : Dev) (kind : Nat) : Option Nat :=
  (List.range 62).foldl (fun r s =>
    if d.sectKind s != kind then r
    else match r with
      | some b => if d.sectSeq b < d.sectSeq s then some s else r
      | none => some s) none

/-- The flacon is mounted (R349). -/
def Dev.mount (d : Dev) : Dev :=
  let r := d.newestSect 1; let e := d.newestSect 2
  let seq (s : Option Nat) : Nat := match s with | some s => d.sectSeq s | none => 0
  let retired := ((List.range 62).filter fun s => d.sectKind s == 0xFF).length
  let good (s : Option Nat) (count size tag : Nat) : Option (Nat × Nat) :=
    match s with | some s => (d.lastGood s count size tag).map (s, ·) | none => none
  let gr := good r 31 256 0x4346; let ge := good e 248 32 0x4546
  let d := (d.putMet { d.met with
    rsect := r, rslot := (match gr with | some (_, i) => i + 1 | none => 0), esect := e, eslot := (match ge with | some (_, i) => i + 1 | none => 0),
    claim := if seq r < seq e then e else r, sseq := max (seq r) (seq e) })
  let d := d.wr Reg.FLC_STAT (BitVec.ofNat 32 (1 + 4 * b2n (decide (8 ≤ retired)) + 256 * r.getD 0 + 65536 * e.getD 0 + 2 ^ 24 * min 15 retired))
  let show' (x : Option (Nat × Nat)) (size seqR adrR : Nat) (d : Dev) : Dev :=
    match x with
    | some (s, i) => let a := sectAddr s + 0x100 + size * i; (d.wr seqR (BitVec.ofNat 32 (d.mrd (a + 4) 4))).wr adrR (BitVec.ofNat 32 a)
    | none => d
  (show' ge 32 Reg.FLC_ESEQ Reg.FLC_EADDR (show' gr 256 Reg.FLC_RSEQ Reg.FLC_RADDR d)).setReady 12 true

/-- The newest valid register image: its address (R352). -/
def Dev.newestImage (d : Dev) : Option Nat :=
  let ok (a : Nat) : Bool := d.mrd a 2 == 0x4946 && d.mrd (a + 0x454) 4 == crc32 (d.flcBytes a 0x454)
  let a := sectAddr 62 + 0x100; let b := sectAddr 63 + 0x100
  if ok a && ok b then some (if d.mrd (a + 4) 4 < d.mrd (b + 4) 4 then b else a)
  else if ok a then some a else if ok b then some b else none

/-- A mirror bank as bytes. -/
def Dev.mirrorBytes (d : Dev) (k : Nat) : List Byte := ((List.range 32).map fun j => leBytes 4 (d.rd (Reg.AMB_MIRROR k j)).toNat).flatten

/-- A little-endian field of a list of bytes. -/
def leAt (l : List Byte) (i n : Nat) : Nat := beVal ((l.drop i).take n).reverse

/-- A mirror bank is valid (R354). -/
def mirrorOk (b : List Byte) : Bool := leAt b 6 2 == crc16 (b.take 6 ++ [0, 0] ++ b.drop 8)

/-- Bypass-watch entries not yet copied go to the flacon as event 0x09 (R364). -/
def Dev.copyBypass : Nat → Dev → Dev
  | 0, d => d
  | n + 1, d =>
    let cp := d.fld Reg.AMB_BW_STAT 12 3
    if d.amb.bwUnc == 0 then d
    else
      let data := ((List.range 3).map fun j => leBytes 4 (d.rd (Reg.AMB_BW_EV cp j)).toNat).flatten
      let d := ((d.flcEvent 0x09 data).setF Reg.AMB_BW_STAT 12 3 ((cp + 1) % 8)).setB Reg.AMB_BW_STAT 16 false
      Dev.copyBypass n (d.putAmb { d.amb with bwUnc := d.amb.bwUnc - 1 })

/-- A RESTART record with its TIME and FLAGS (R357), written at once. -/
def Dev.restart (flags time : Nat) (d : Dev) : Dev := ((d.latch 7 flags time d.now)).flushLatches

/-- The registers from the newest image (R352). -/
def Dev.fromImage (d : Dev) : Dev :=
  match d.newestImage with
  | none => d
  | some a =>
    let e := (List.range 130).foldl (fun m q => SMap.put m 0 q (d.mrd (a + 0x20 + 8 * q) 8 * 2 ^ 32)) []
    let d1 := forN 8 (fun n (x : Dev) => x.wr (Reg.PCNT_CNT n) (BitVec.ofNat 32 (d.mrd (a + 0x430 + 4 * n) 4))) d
    let d2 := d1.setF Reg.MET_STAT 8 8 (d.mrd (a + 0x450) 1)
    d2.putMet { d2.met with e := e, imgSeq := d.mrd (a + 4) 4 }

/-- The selected registers and pulse counters from the newest record, at address `ra` (R357). -/
def Dev.fromRecord (ra : Nat) (d : Dev) : Dev :=
  let e := (List.range 24).foldl (fun m i => if d.selQ i < 130 then SMap.put m 0 (d.selQ i) (d.mrd (ra + 0x20 + 8 * i) 8 * 2 ^ 32) else m) d.met.e
  let d1 : Dev := d.putMet { d.met with e := e }
  forN 8 (fun n (x : Dev) => x.wr (Reg.PCNT_CNT n) (BitVec.ofNat 32 (d.mrd (ra + 0xE0 + 4 * n) 4))) d1

/-- The increments of a mirror bank added (R354, R357). -/
def Dev.fromMirror (b : List Byte) (d : Dev) : Dev :=
  let e := (List.range 24).foldl (fun m i => if d.selQ i < 130 then
    SMap.put m 0 (d.selQ i) (SMap.getD m 0 (d.selQ i) + leAt b (16 + 4 * i) 4 * 2 ^ 32) else m) d.met.e
  let d1 : Dev := d.putMet { d.met with e := e }
  forN 8 (fun n (x : Dev) => x.wr (Reg.PCNT_CNT n) (x.rd (Reg.PCNT_CNT n) + BitVec.ofNat 32 (leAt b (0x70 + 2 * n) 2))) d1

/-- The newer valid mirror bank that belongs to the newest record (R354, R357). -/
def Dev.mirrorBank (d : Dev) (ra : Nat) : Option (List Byte) :=
  let b0 := d.mirrorBytes 0
  let b1 := d.mirrorBytes 1
  let fits (b : List Byte) : Bool := mirrorOk b && ra != 0 && leAt b 4 2 == d.mrd (ra + 4) 2
  if d.bit Reg.AMB_STATUS 3 then none
  else if fits b0 && (!fits b1 || leAt b1 0 4 < leAt b0 0 4) then some b0 else if fits b1 then some b1 else none

/-- The seal's verdict at the start (R365). -/
def Dev.sealStart (d : Dev) : Dev :=
  let sealOk := !d.fm || d.fmCal
  let d := d.setB Reg.MET_STAT 4 sealOk
  if sealOk then d else (d.raise 96).setB Reg.MET_EVT 6 true

/-- The start's record and events (R357, R364). -/
def Dev.startRecord (ra : Nat) (bank : Option (List Byte)) (noWarn invalid : Bool) (d : Dev) : Dev :=
  let merged := match bank with | some b => (List.range 112).any fun i => byteAt b (16 + i) != 0 | none => false
  let flags := b2n merged + 2 * b2n noWarn + 4 * b2n invalid
  let d := if invalid then d.setB Reg.MET_STAT 3 true else d
  let hseq := match bank with | some b => leAt b 0 4 | none => 0
  let time := match bank with | some b => leAt b 8 8 | none => if ra != 0 then d.mrd (ra + 8) 8 else 0
  let d : Dev := d.putMet { d.met with hseq := hseq, ibase := (List.range 130).foldl (fun m q => SMap.put m 0 q (d.metE q)) [] }
  let d := d.restart flags time
  let d := d.flcEvent 0x01 (leBytes 4 (d.rd Reg.FLC_RSEQ).toNat ++ leBytes 4 (flags + d.metFlags))
  let d := if noWarn then d.flcEvent 0x03 (leBytes 4 (d.rd Reg.AMB_OFF_LO).toNat ++ leBytes 4 (d.rd Reg.AMB_OFF_HI).toNat ++ leBytes 4 hseq) else d
  (d.copyBypass 8).metStat

/-- METERING_START (R349, R357, R364, R365): the newest image, then the newest record, then the mirror's increments. -/
def meteringStart (d : Dev) : Dev :=
  if !d.domainOn 7 || d.met.on then d else
  let d : Dev := d.putMet { d.met with on := true, ready := 2, lastT := d.now, bin := d.now / 40000 + 1 }
  let d := ((d.setB Reg.MET_STAT 5 d.fm).mount).sealStart.fromImage
  let ra := (d.rd Reg.FLC_RADDR).toNat
  let kind := if ra != 0 then d.mrd (ra + 2) 1 else 5
  let d := if ra == 0 then d else d.fromRecord ra
  let bank := d.mirrorBank ra
  let invalid := d.bit Reg.AMB_STATUS 3 || !(mirrorOk (d.mirrorBytes 0) || mirrorOk (d.mirrorBytes 1))
  let d := match bank with | none => d | some b => d.fromMirror b
  d.startRecord ra bank (ra != 0 && kind != 5 && kind != 6) invalid

/-- FLACON_VERIFY (R353): one sector; corrected words are rewritten, a double-bit error raises FLT_ECC_UNCORR. -/
def flaconVerify (d : Dev) : Dev :=
  if !(d.domainOn 7 && d.bit Reg.FLC_CTL 0 && d.bit Reg.FLC_STAT 0) then d else
  let s := d.met.vSect
  let here (e : Nat × Nat) : Bool := decide (sectAddr s ≤ e.1) && decide (e.1 < sectAddr (s + 1))
  let ce := (d.ecc.filter fun e => here e && e.2 == 1).length
  let ue := d.ecc.any fun e => here e && decide (2 ≤ e.2)
  let d := (d.putEcc (d.ecc.filter fun e => !(here e && e.2 == 1))).putMet { d.met with vSect := (s + 1) % 64 }
  let d := if ce == 0 then d else (d.incBy Reg.FLC_CNT_CE ce).setB Reg.FLC_EVT 0 true
  if ue then (d.setB Reg.FLC_EVT 1 true).raise 93 else d

/-! ### Pulse inputs and outputs -/

def pbandNum : PBand → Nat
  | .short => 0 | .closed => 1 | .opened => 2 | .broken => 3

/-- PCIN_CHANGE (R359). -/
def pcinChange (n : Nat) (toClosed : Bool) (d : Dev) : Dev :=
  if !d.domainOn 7 then d else
  let d := d.setF Reg.PCNT_STAT (2 * n) 2 (if toClosed then 1 else 2)
  if d.bit Reg.PCNT_CTL n && !d.met.susp.getLsbD n && toClosed != d.bit Reg.PCNT_CTL (8 + n) then
    d.wr (Reg.PCNT_CNT n) (d.rd (Reg.PCNT_CNT n) + 1)
  else d

/-- PCIN_BAND_FAULT (R360): SHORT or BREAK has held for 100 ms. -/
def pcinBandFault (n : Nat) (band : PBand) (d : Dev) : Dev :=
  if !d.domainOn 7 || band == .closed || band == .opened then d else
  let d := (d.setF Reg.PCNT_STAT (2 * n) 2 (pbandNum band)).setB Reg.PCNT_EVT (if band == .short then 8 + n else n) true
  let d := d.flcEvent 0x08 (leBytes 4 n ++ leBytes 4 (pbandNum band))
  d.putMet { d.met with susp := d.met.susp ||| (1#8 <<< n), pbrk := d.met.pbrk ||| (1#8 <<< n) }

/-- PCIN_COUNT_RESUME (R360): OPEN or CLOSED has held for 100 ms. -/
def pcinCountResume (n : Nat) (toClosed : Bool) (d : Dev) : Dev :=
  if !d.domainOn 7 then d
  else (d.setF Reg.PCNT_STAT (2 * n) 2 (if toClosed then 1 else 2)).putMet { d.met with susp := d.met.susp &&& ~~~(1#8 <<< n) }

/-- POUT_PULSE (R361). -/
def poutPulse (n : Nat) (d : Dev) : Dev :=
  let p := SMap.getD d.met.ppend 0 n
  if !d.domainOn 7 || p == 0 || !d.bit Reg.POUT_CTL n then d
  else
    let d := (d.send (.pout n)).wr (Reg.POUT_CNT n) (d.rd (Reg.POUT_CNT n) + 1)
    d.putMet { d.met with ppend := SMap.put d.met.ppend 0 n (p - 1), pend := SMap.put d.met.pend 0 n (d.now + d.fld (Reg.POUT_SRC n) 16 8 * 1000000) }

/-- A write of POUT_CTL: clearing EN drives the pin low and discards what is pending (R362). -/
def poutCtlWrite (v : Word) (d : Dev) : Dev :=
  let d := d.genWrite Reg.POUT_CTL v
  forN 4 (fun n d => if v.getLsbD n then d else (d.putMet { d.met with pacc := SMap.put d.met.pacc 0 n 0, ppend := SMap.put d.met.ppend 0 n 0, pend := SMap.put d.met.pend 0 n 0 })) d

/-- Writes of POUT_SRC and POUT_EPP: Q above 129 refused, WIDTH and EPP 0 store 1. -/
def poutSrcWrite (n : Nat) (v : Word) (d : Dev) : Dev :=
  if 129 < fieldOf v 0 8 then d else d.genWrite (Reg.POUT_SRC n) (putField v 16 8 (max 1 (fieldOf v 16 8)))
def poutEppWrite (n : Nat) (v : Word) (d : Dev) : Dev := d.genWrite (Reg.POUT_EPP n) (if v == 0 then 1 else v)

/-! ### Bypass watch -/

/-- BW_WAKE (R363). -/
def bwWake (inputs : BitVec 3) (d : Dev) : Dev :=
  let on := inputs &&& (d.rd Reg.AMB_BW_CTL).setWidth 3
  if !d.amb.powered || d.amb.bwOn || on == 0 || !(!d.pwr.mainGood || d.bit Reg.AMB_BW_CTL 3) then d else
  let d := (d.setB Reg.AMB_BW_STAT 0 true).setF Reg.AMB_BW_STAT 1 3 on.toNat
  let mah := (List.range 3).foldl (fun s i => s + (d.rd (Reg.AMB_BW_AH i)).toNat) 0
  d.putAmb { d.amb with bwOn := true, bwFrom := d.holdNs / 1000000000, bwSecs := 0, bwLow := 0, bwMah := mah }

/-- BW_SECOND (R363): RMS × 1 s in primary amperes to mAh; what is less than one mAh stays for the next second. -/
def bwSecond (rms : List Nat) (d : Dev) : Dev :=
  if !(d.amb.powered && d.amb.bwOn) then d else
  let below := (List.range 3).all fun i => !d.bit Reg.AMB_BW_CTL i || decide ((rms.drop i).headD 0 < d.fld Reg.AMB_BW_TH 16 12)
  let d := d.putAmb { d.amb with bwSecs := d.amb.bwSecs + 1, bwLow := if below then d.amb.bwLow + 1 else 0 }
  forN 3 (fun i d =>
    if !d.bit Reg.AMB_BW_CTL i then d else
    let a := SMap.getD d.amb.bwAcc 0 i + 10 * ((rms.drop i).headD 0 * d.fld (Reg.AMB_BW_K i) 0 24)
    let d := d.wr (Reg.AMB_BW_AH i) (d.rd (Reg.AMB_BW_AH i) + BitVec.ofNat 32 (a / 9216))
    (d.putAmb { d.amb with bwAcc := SMap.put d.amb.bwAcc 0 i (a % 9216) })) d

/-- BW_END (R364): every enabled input has stayed low for END_S seconds, or the main supplies are back while ALWAYS is clear; one entry of the
ring of eight. -/
def bwEnd (d : Dev) : Dev :=
  let up := d.pwr.mainGood && !d.bit Reg.AMB_BW_CTL 3
  if !(d.amb.powered && d.amb.bwOn && (up || decide (d.fld Reg.AMB_BW_CTL 8 8 ≤ d.amb.bwLow))) then d else
  let w := d.fld Reg.AMB_BW_STAT 8 3
  let mah := (List.range 3).foldl (fun s i => s + (d.rd (Reg.AMB_BW_AH i)).toNat) 0
  let d := ((d.wr (Reg.AMB_BW_EV w 0) (BitVec.ofNat 32 d.amb.bwFrom)).wr (Reg.AMB_BW_EV w 1) (BitVec.ofNat 32 d.amb.bwSecs)).wr (Reg.AMB_BW_EV w 2)
    (BitVec.ofNat 32 (mah - d.amb.bwMah))
  let d := d.wr (Reg.AMB_BW_EV w 3) (BitVec.ofNat 32 (d.fld Reg.AMB_BW_STAT 1 3 + 8 * b2n up + d.amb.bwEvN * 65536))
  let d := (d.setF Reg.AMB_BW_STAT 8 3 ((w + 1) % 8)).setB Reg.AMB_BW_STAT 0 false
  -- an entry overwritten before it was copied
  let lost := decide (8 ≤ d.amb.bwUnc)
  let d := if lost then (d.setF Reg.AMB_BW_STAT 12 3 ((w + 1) % 8)).setB Reg.AMB_BW_STAT 16 true else d
  d.putAmb { d.amb with bwOn := false, bwEvN := (d.amb.bwEvN + 1) % 65536, bwUnc := if lost then 8 else d.amb.bwUnc + 1 }

/-! ### Configuration and seal -/

/-- A write to a sealed item (R365): refused; FLT_METER_SEAL for this clock, MET_EVT.SEAL, event 0x06. -/
def Dev.sealViolation (off : Nat) (v : Word) (d : Dev) : Dev :=
  let d := d.raise 96
  if d.domainOn 7 then (d.setB Reg.MET_EVT 6 true).flcEvent 0x06 (leBytes 4 off ++ leBytes 4 v.toNat) else d

/-- A write of MET_UNLOCK (R367). -/
def metUnlock (v : Word) (d : Dev) : Dev :=
  if fieldOf v 0 32 == 0x4D45 then (d.putMet { d.met with unlock := some d.now }) else d

/-- A register of the metrology configuration (R367). -/
def isMetCfg (a : Nat) : Bool :=
  a == Reg.MET_CTL || (decide (Reg.MET_SEL_0 ≤ a) && decide (a ≤ Reg.MET_SEL_5)) || (decide (Reg.MET_CH 0 ≤ a) && decide (a ≤ Reg.MET_CH 16)) ||
    (decide (Reg.MET_K 0 ≤ a) && decide (a ≤ Reg.MET_DCAL_GAIN 16)) || (decide (Reg.MET_IN 0 ≤ a) && decide (a ≤ Reg.MET_IN 2)) ||
    (decide (Reg.MET_SEG_G 0 0 ≤ a) && decide (a ≤ Reg.MET_SEG_P 16 7)) || (decide (Reg.PCNT_PRESET 0 ≤ a) && decide (a ≤ Reg.PCNT_PRESET 7))

/-- MET_CH, MET_DCAL: sealed on the SV9144-FM (R365). -/
def isMetSealed (a : Nat) : Bool :=
  (decide (Reg.MET_CH 0 ≤ a) && decide (a ≤ Reg.MET_CH 16)) ||
    (decide (Reg.MET_K 0 ≤ a) && decide (a ≤ Reg.MET_DCAL_GAIN 16) && (a % 16 == 8 || a % 16 == 12))

/-- A configuration write whose value is refused: REF no voltage input of MP0 or MP1, a channel another enabled input names, a preset of
an enabled pulse input (R329, R335, R360). -/
def Dev.metCfgBad (a : Nat) (v : Word) (d : Dev) : Bool :=
  if a == Reg.MET_CTL then !([0, 1, 2, 7, 8, 9].contains (fieldOf v 2 5))
  else if Reg.MET_CH 0 ≤ a && a ≤ Reg.MET_CH 16 then
    (List.range 17).any fun j => Reg.MET_CH j != a && d.inEn j && d.fld (Reg.MET_CH j) 0 6 == fieldOf v 0 6
  else if Reg.PCNT_PRESET 0 ≤ a && a ≤ Reg.PCNT_PRESET 7 then d.bit Reg.PCNT_CTL ((a - Reg.PCNT_PRESET 0) / 4)
  else false

/-- MET_CONFIG_WRITE (R365, R367): one write within 1 ms of the key, counted and logged. -/
def metConfigWrite (a : Nat) (v : Word) (d : Dev) : Dev :=
  if d.fm && isMetSealed a then d.sealViolation (a % 65536) v
  else
    let open' := match d.met.unlock with | some t => decide (d.now ≤ t + 1000000) | none => false
    let d := d.putMet { d.met with unlock := none }
    if !open' || d.metCfgBad a v then d.setB Reg.MET_EVT 5 true
    else
      let preset := Reg.PCNT_PRESET 0 ≤ a && a ≤ Reg.PCNT_PRESET 7
      let tgt := if preset then a - 0x20 else a
      let old := d.rd tgt
      let d := if preset then d.wr tgt v else d.genWrite a v
      let d := d.setF Reg.MET_STAT 8 8 ((d.cfgCnt + 1) % 256)
      (d.flcEvent 0x07 (leBytes 4 (a % 65536) ++ leBytes 4 old.toNat ++ leBytes 4 (d.rd tgt).toNat)).metStat

/-- A ring sector is marked free: its header keeps SSEQ and WCOUNT and has KIND 0 (R347, R369; DESIGN CHOICE, notes/assumptions/105). -/
def Dev.freeSect (s : Nat) (d : Dev) : Dev :=
  let known := d.mrd (sectAddr s) 2 == 0x5346
  let h (o : Nat) : Nat := if known then d.mrd (sectAddr s + o) 4 else 0
  d.flcPut (sectAddr s) (sectHeader 0 (h 4) (h 8))

/-- FLC_FORMAT (R369): on the SV9144-FE every ring sector, a retired one too, is marked free. -/
def flcFormat (v : Word) (d : Dev) : Dev :=
  if d.fm then d.sealViolation 0x24 v
  else if fieldOf v 0 16 != 0x464D then d.setB Reg.FLC_EVT 5 true
  else
    let d := forN 62 (fun s d => d.freeSect s) d
    let d := (d.setF Reg.FLC_STAT 24 4 0).setB Reg.FLC_STAT 2 false
    let d := d.putMet { d.met with rsect := none, esect := none, rslot := 0, eslot := 0, claim := none }
    ((d.flushLatches).restart 0 (d.metTime d.now)).flcEventN 4 0x0C []

/-- A write of FLC_CTL: VINT 0 stores 1. -/
def flcCtlWrite (v : Word) (d : Dev) : Dev := d.genWrite Reg.FLC_CTL (putField v 8 8 (max 1 (fieldOf v 8 8)))

/-- A write of PCNT_DEB: 0 stores 1. -/
def pcntDebWrite (n : Nat) (v : Word) (d : Dev) : Dev := d.genWrite (Reg.PCNT_DEB n) (if fieldOf v 0 8 == 0 then 1 else v)


/-! ### Meanings -/

def execSysPwrCtlWrite (m : Master) (v : Word) (s : State) : Host.Outcome State Fault Refusal := run (Dev.viaBus m Reg.SYS_PWR_CTL (sysPwrCtlWrite v)) s
def execMetBinEnd (s : State) : Host.Outcome State Fault Refusal := run metBinEnd s
def execLineCycleEnd (t : Nat) (s : State) : Host.Outcome State Fault Refusal := run (lineCycleEnd t) s
def execFreqNomTimeout (s : State) : Host.Outcome State Fault Refusal := run freqNomTimeout s
def execMirrorWrite (t : Nat) (s : State) : Host.Outcome State Fault Refusal := run (mirrorWrite t) s
def execMetRecordWritten (s : State) : Host.Outcome State Fault Refusal := run metRecordWritten s
def execForcedLatch (m : Master) (v : Word) (s : State) : Host.Outcome State Fault Refusal := run (Dev.viaBus m Reg.MET_CMD (metCmdWrite v)) s
def execLatchArm (m : Master) (v : Word) (s : State) : Host.Outcome State Fault Refusal := run (Dev.viaBus m Reg.MET_CMD (metCmdWrite v)) s
def execLatchDisarm (m : Master) (v : Word) (s : State) : Host.Outcome State Fault Refusal := run (Dev.viaBus m Reg.MET_CMD (metCmdWrite v)) s
def execIrst (m : Master) (v : Word) (s : State) : Host.Outcome State Fault Refusal := run (Dev.viaBus m Reg.MET_CMD (metCmdWrite v)) s
def execEmergencyLatch (t : Nat) (s : State) : Host.Outcome State Fault Refusal := run (emergencyLatch t) s
def execPfwNReturn (s : State) : Host.Outcome State Fault Refusal := run pfwNReturn s
def execMeteringStart (s : State) : Host.Outcome State Fault Refusal := run meteringStart s
def execFlaconVerify (s : State) : Host.Outcome State Fault Refusal := run flaconVerify s
def execPcinChange (n : Fin 8) (toClosed : Bool) (s : State) : Host.Outcome State Fault Refusal := run (pcinChange n toClosed) s
def execPcinBandFault (n : Fin 8) (band : PBand) (s : State) : Host.Outcome State Fault Refusal := run (pcinBandFault n band) s
def execPcinCountResume (n : Fin 8) (toClosed : Bool) (s : State) : Host.Outcome State Fault Refusal := run (pcinCountResume n toClosed) s
def execPcntPreset (m : Master) (n : Fin 8) (v : Word) (s : State) : Host.Outcome State Fault Refusal := run (Dev.viaBus m (Reg.PCNT_PRESET n) (metConfigWrite (Reg.PCNT_PRESET n) v)) s
def execPoutPulse (n : Fin 4) (s : State) : Host.Outcome State Fault Refusal := run (poutPulse n) s
def execBwWake (inputs : BitVec 3) (s : State) : Host.Outcome State Fault Refusal := run (bwWake inputs) s
def execBwSecond (rms : List Nat) (s : State) : Host.Outcome State Fault Refusal := run (bwSecond rms) s
def execBwEnd (s : State) : Host.Outcome State Fault Refusal := run bwEnd s
def execMetUnlock (m : Master) (v : Word) (s : State) : Host.Outcome State Fault Refusal := run (Dev.viaBus m Reg.MET_UNLOCK (metUnlock v)) s
def execFlcFormat (m : Master) (v : Word) (s : State) : Host.Outcome State Fault Refusal := run (Dev.viaBus m Reg.FLC_FORMAT (flcFormat v)) s

end Sys2Proof.Machine
end

