-- ==== Sys2Proof/Machine/Adc.lean ====
section
/-! DEFINITION. Converter groups, fast comparators, die temperature (spec/09_measurement.md, R292 to R327). -/

namespace Sys2Proof.Machine

def Dev.adc (d : Dev) (g : Nat) : Adc := SMap.getD d.adcs {} g
def Dev.setAdc (g : Nat) (f : Adc → Adc) (d : Dev) : Dev := d.putAdcs (SMap.put d.adcs {} g (f (d.adc g)))

def Dev.adcEvt (g i : Nat) (d : Dev) : Dev := d.setB (Reg.ADC_EVT g) i true

/-- A refused write (R325). -/
def Dev.adcErr (g : Nat) (d : Dev) : Dev := d.adcEvt g 9

/-- A channel is a metering channel (R301). -/
def Dev.isMetCh (d : Dev) (g ch : Nat) : Bool := decide (ch < 24) && d.bit (Reg.ADC_MET_MASK g) ch

/-- An entry of the active table. -/
def Dev.actEntry (d : Dev) (g e : Nat) : Word := SMap.getD (d.adc g).act 0 e

def repOf (w : Word) : Nat := let r := fieldOf w 8 8; if r == 0 then 256 else r

/-- ADC_RES of an entry follows R302: a control entry, or a raw metering result made visible on the SV9144-FE (R303). -/
def Dev.resShown (d : Dev) (g e : Nat) : Bool :=
  !d.isMetCh g (fieldOf (d.actEntry g e) 0 5) || (!d.fm && d.bit (Reg.ADC_CTL g) 2)

/-- ADC_STAT beside CAL_OK and BG_HOLD. -/
def Dev.adcStat (g : Nat) (d : Dev) : Dev :=
  let a := d.adc g
  let w := d.rd (Reg.ADC_STAT g)
  let w := putField w 0 1 (b2n (d.bit (Reg.ADC_CTL g) 0 && a.going && a.cal != 2))
  let w := putField (putField w 1 1 (b2n (a.cal == 1))) 2 1 (b2n (a.cal == 2))
  d.wr (Reg.ADC_STAT g) (putField (putField (putField w 5 3 a.inj.length) 8 5 a.e) 16 8 a.rep)

/-! ### The sequence -/

/-- The result and stamp of entries that have become metering entries leave the system domain (R22, R303). -/
def Dev.dropMetering (g : Nat) (d : Dev) : Dev :=
  d.setAdc g fun a => { a with snap := a.snap.filter fun x => !d.isMetCh g (fieldOf (d.actEntry g x.1) 0 5) }

/-- Entry 0 starts at `t`: a COMMIT accepted in an earlier converter clock takes effect (R298). -/
def Dev.takeTable (g t : Nat) (d : Dev) : Dev :=
  let a := d.adc g
  if !a.commitP || t / 10 ≤ a.commitAt / 10 then d
  else
    ((d.setAdc g fun a => { a with act := a.nextT, last := a.nextLast, rstOfs := a.nextOfs, commitP := false }).adcEvt g 10).dropMetering g

/-- The entry in progress is abandoned and its partial result discarded. -/
def Dev.adcAbandon (g : Nat) (d : Dev) : Dev := d.setAdc g fun a => { a with going := false, e := 0, rep := 0, sum := 0, stamps := 0, dlyTo := 0 }

/-- The sequence restarts at entry 0; a pass that has not ended is cut (R297). -/
def Dev.adcRestart (g : Nat) (d : Dev) : Dev :=
  let d := if (d.adc g).going then (d.adcEvt g 0).inc (Reg.ADC_CNT_CUT g) 32 else d
  ((d.adcAbandon g).setAdc g fun a => { a with going := true, rstP := false }).takeTable g d.now

/-- A restart instant that waited for injected conversions or a calibration is taken in the first slot after them (R308, R310). -/
def Dev.adcLateRestart (g : Nat) (d : Dev) : Dev :=
  let a := d.adc g
  if a.rstP && a.inj.isEmpty && a.cal != 2 && d.bit (Reg.ADC_CTL g) 0 then d.adcRestart g else d

/-- The restart instant of the period in progress (R297). -/
def Dev.restartAt (d : Dev) (g : Nat) : Nat := d.tb.bnd + 10 * (d.adc g).rstOfs % d.tb.tP

/-- SEQUENCE_RESTART (R297): once in every period, at B_k + (10 × RST_OFS mod T_P), due once the instants of the sequencer before it are
over. The slot boundary at or behind it is taken as that instant itself (DESIGN CHOICE, notes/assumptions/87). -/
def sequenceRestart (g : Nat) (d : Dev) : Dev :=
  let b := d.tb.bnd
  if !(d.domainOn 6 && d.bit (Reg.ADC_CTL g) 0 && d.bit (Reg.ADC_CTL g) 1) || !d.tb.inPeriod || (d.adc g).rstOf == some b ||
      decide (d.nextSeq < d.restartAt g) then d
  else (((d.advTo (d.restartAt g)).setAdc g fun a => { a with rstP := true, rstOf := some b }).adcLateRestart g).adcStat g

/-- The staged table holds something that a COMMIT refuses (R299). -/
def Dev.tableBad (d : Dev) (g : Nat) : Bool :=
  (List.range 32).any fun e =>
    let w := d.rd (Reg.ADC_SEQ g e)
    let ch := fieldOf w 0 5
    decide (26 ≤ ch) || (w.getLsbD 5 && repOf w != 2 ^ (repOf w).log2) ||
      (w.getLsbD 6 && (ch != d.fld (Reg.ADC_PLAUS 0) 0 5 || (d.fm && d.isMetCh g ch)))

/-- A write to a raw metering conversion, ADC_RES of a metering entry: sealed on the SV9144-FM, else read-only (R303, R365). -/
def adcResWrite (g e : Nat) (v : Word) (d : Dev) : Dev :=
  if d.fm && d.isMetCh g (fieldOf (d.actEntry g e) 0 5) then d.sealViolation ((Reg.ADC_RES g e) % 65536) v else d

/-- A write of ADC_SEQ_CTL (R298, R299). An accepted COMMIT takes the staged table as it has been checked; a refused one leaves an accepted
one that waits (DESIGN CHOICE, notes/assumptions/88). -/
def adcSeqCtlWrite (g : Nat) (v : Word) (d : Dev) : Dev :=
  let d := d.genWrite (Reg.ADC_SEQ_CTL g) v
  if !v.getLsbD 8 then d else if d.tableBad g then d.adcErr g
  else
    let t := (List.range 32).foldl (fun m e => SMap.put m 0 e (d.rd (Reg.ADC_SEQ g e))) []
    d.setAdc g fun a => { a with
      commitP := true, commitAt := d.now, nextT := t, nextLast := d.fld (Reg.ADC_SEQ_CTL g) 0 5, nextOfs := d.fld (Reg.ADC_SEQ_CTL g) 16 16 }

/-- ADC_PLAUS.EN is set and both groups run (R313). -/
def Dev.plausRuns (d : Dev) : Bool := d.bit (Reg.ADC_PLAUS 0) 7 && d.bit (Reg.ADC_CTL 0) 0 && d.bit (Reg.ADC_CTL 1) 0

/-- The millisecond without a comparison begins with the running of both groups under EN, and ends with it (R313). -/
def Dev.plausFollow (was : Bool) (d : Dev) : Dev :=
  if d.plausRuns == was then d
  else if was then d.setLevel 82 false
  else d.setAdc 0 fun a => { a with plausAt := d.now }

/-- A write of ADC_CTL (R297, R300, R303). A pass that idles until its restart loops again where RESTART is cleared. -/
def adcCtlWrite (g : Nat) (v : Word) (d : Dev) : Dev :=
  if d.fm && v.getLsbD 2 then d.adcErr g
  else
    let runs := d.plausRuns
    let d := d.genWrite (Reg.ADC_CTL g) v
    let d :=
      if !v.getLsbD 0 then (d.adcAbandon g).setAdc g fun a => { a with rstP := false }
      else if v.getLsbD 1 || (d.adc g).going then d
      else (d.setAdc g fun a => { a with going := true }).takeTable g d.now
    (d.plausFollow runs).adcStat g

/-- A write of ADC_MET_MASK (R301, R303). -/
def adcMetMaskWrite (g : Nat) (v : Word) (d : Dev) : Dev :=
  if d.fm then d.sealViolation (Reg.ADC_MET_MASK g % 65536) v else (d.genWrite (Reg.ADC_MET_MASK g) v).dropMetering g

/-! ### Results -/

/-- A result register's word. -/
def resWord (code : Int) : Word := BitVec.ofNat 32 (low 16 code + 2 ^ 31)

/-- The code of a conversion (R294): channels 24 and 25 have inputs of their own, zero and 0.625 V (R293); a calibrated slice adds no error
(DESIGN CHOICE, notes/assumptions/90). -/
def convCode (ch : Nat) (microvolt : Int) : Int :=
  clampI (-32768) 32767 (rnd (65536 * (if ch == 24 then 0 else if ch == 25 then 625000 else microvolt)) 2500000)

/-- One conversion enters its entry's accumulator (R305). -/
def Dev.accumulate (g e : Nat) (code : Int) (d : Dev) : Dev :=
  let x := SMap.getD (d.adc g).accs {} e
  if x.cnt == 0xFFFFFFFF then d
  else
    let y : AdcAcc := if x.cnt == 0 then ⟨code, 1, code, code⟩ else ⟨x.sum + code, x.cnt + 1, min x.mn code, max x.mx code⟩
    let d := d.setAdc g fun a => { a with accs := SMap.put a.accs {} e y }
    if y.cnt == 0xFFFFFFFF then d.setB (Reg.ADC_ACC_HI g e) 31 true else d

/-- A plausibility comparison of the two groups' codes (R312, R313). -/
def Dev.compare (a b : Int) (d : Dev) : Dev :=
  let d := (d.setLevel 82 false).setAdc 0 fun x => { x with plausAt := d.now }
  let miss := decide ((d.fld (Reg.ADC_PLAUS 0) 16 16 : Int) < ((a - b).natAbs : Int))
  let was := d.fld (Reg.ADC_PLAUS_DIFF 0) 24 4
  let run := if miss then min 15 (was + 1) else 0
  let d := d.wr (Reg.ADC_PLAUS_DIFF 0) (BitVec.ofNat 32 (low 17 (a - b) + run * 2 ^ 24))
  if !miss then d
  else
    let d := (d.inc (Reg.ADC_CNT_PLAUS 0) 32).adcEvt 0 7
    let n := d.fld (Reg.ADC_PLAUS 0) 8 4
    if was < n && n ≤ run then d.raise 82 else d

/-- A plausibility conversion arrives: it is compared with the latest one of the other group, if that is near enough (R312). -/
def Dev.plausible (g : Nat) (code : Int) (stamp : Nat) (d : Dev) : Dev :=
  let d := d.setAdc g fun a => { a with plaus := some (code, stamp) }
  match (d.adc (1 - g)).plaus with
  | none => d
  | some (c, t) =>
    if d.bit (Reg.ADC_PLAUS 0) 7 && decide (stamp - t ≤ d.fld (Reg.ADC_PLAUS_WIN 0) 0 16) && decide (t - stamp ≤ d.fld (Reg.ADC_PLAUS_WIN 0) 0 16) then
      if g == 0 then d.compare code c else d.compare c code
    else d

/-- PLAUS_STALE (R313): 1 ms after the last comparison, due once the instants of the sequencer before it are over. -/
def plausStale (d : Dev) : Dev :=
  let t := (d.adc 0).plausAt + 1000000
  if d.domainOn 6 && d.plausRuns && !d.fc.level.getLsbD 82 && !(d.tb.counting && decide (d.nextSeq < t)) then
    (((if d.tb.counting then d.advTo t else d).adcEvt 0 8).setLevel 82 true)
  else d

/-- The pass of an entry has completed: its result and stamp (R302, R303). -/
def Dev.entryDone (g e : Nat) (w : Word) (code : Int) (stamp : Nat) (d : Dev) : Dev :=
  let a := d.adc g
  let j := (repOf w).log2
  let res : Int := if w.getLsbD 5 then (2 * a.sum + 2 ^ j) / 2 ^ (j + 1) else code
  let ts : Nat := if w.getLsbD 5 then a.stamps / repOf w else stamp
  let r := resWord res
  let t : Word := BitVec.ofNat 32 ts
  let d := if d.resShown g e then (d.wr (Reg.ADC_RES g e) r).wr (Reg.ADC_TS g e) t else d
  if d.isMetCh g (fieldOf w 0 5) then d else d.setAdc g fun a => { a with snap := SMap.put a.snap (0, 0) e (wordI res, t) }

/-- One conversion of the entry in progress (R296, R302 to R305, R312). -/
def Dev.seqConversion (g : Nat) (microvolt : Int) (stamp : Nat) (d : Dev) : Dev :=
  let d := if (d.adc g).e == 0 && (d.adc g).rep == 0 && !d.bit (Reg.ADC_CTL g) 1 then d.takeTable g stamp else d
  let e := (d.adc g).e
  let w := d.actEntry g e
  let ch := fieldOf w 0 5
  let code := convCode ch microvolt
  let d := d.accumulate g e code
  let d := if d.isMetCh g ch then d.metSample g ch code stamp else d
  let d := if w.getLsbD 6 then d.plausible g code stamp else d
  let d := d.setAdc g fun a => { a with rep := a.rep + 1, sum := a.sum + code, stamps := a.stamps + stamp }
  if (d.adc g).rep < repOf w then d
  else
    let d := d.entryDone g e w code stamp
    let more := decide (e < (d.adc g).last)
    d.setAdc g fun a => { a with
      e := if more then e + 1 else 0, rep := 0, sum := 0, stamps := 0, going := more || !d.bit (Reg.ADC_CTL g) 1,
      dlyTo := if fieldOf w 16 10 == 0 then 0 else stamp + 50 * (1 + fieldOf w 16 10) }

/-! ### Calibration and injection -/

/-- A calibration begins its chunks once no request is ahead of it (R310); the metering engine is notified of the gap. The reference settles
for up to 80 us first: a free value (notes/assumptions/89). -/
def Dev.calGo (g : Nat) (d : Dev) : Dev :=
  let a := d.adc g
  if !(a.cal == 1 && a.calWait == 0) then d
  else
    let d := (d.setAdc g fun a => { a with
      cal := 2, calAt := d.now + Config.freeNat d.freeCtr % 80001, chunks := 0, dlyLeft := a.dlyTo - d.now }).nextFree
    d.putMet { d.met with calGap := SMap.put d.met.calGap 0 g 1 }

/-- Chunks of the run in progress that are over at an instant; a chunk lasts 64 slots (R310). -/
def Adc.chunksBy (a : Adc) (t : Nat) : Nat := (t - a.calAt) / 3200

/-- ADC_CAL.CHUNK: the chunks completed in the current or last calibration (R325). -/
def Dev.chunkNow (d : Dev) (g : Nat) : Nat := let a := d.adc g; if a.cal == 2 then min 1536 (a.chunks + a.chunksBy d.now) else a.chunks

/-- A request queued at `q` is converted in a slot at `t`: it reached the group a converter clock before it, and while a calibration runs the
slot lies between two chunks, behind one that was over at or after the request (R307, R310). -/
def Adc.injSlot (a : Adc) (q t : Nat) : Bool :=
  decide (q + 10 ≤ t) && (a.cal != 2 || (decide (a.calAt ≤ t) && decide (q + 10 ≤ a.calAt + 3200 * a.chunksBy t)))

/-- An injected conversion (R307, R308): the sequence is frozen for its slot, a delay lasts a slot longer; the chunks of a calibration go on
behind it. -/
def Dev.injConversion (g ch tag : Nat) (rest : List (Nat × Nat × Nat)) (microvolt : Int) (stamp : Nat) (d : Dev) : Dev :=
  let d := ((d.wr (Reg.ADC_INJ_RES g tag) (resWord (convCode ch microvolt))).wr (Reg.ADC_INJ_TS g tag) (BitVec.ofNat 32 stamp)).adcEvt g 3
  let d := d.setAdc g fun a =>
    { a with
      inj := rest, calWait := a.calWait - 1, dlyTo := if stamp < a.dlyTo then a.dlyTo + 50 else a.dlyTo,
      chunks := if a.cal == 2 then a.chunks + a.chunksBy stamp else a.chunks, calAt := if a.cal == 2 then stamp + 50 else a.calAt }
  (d.calGo g).adcLateRestart g

/-- A conversion takes its slot: the run of slots without a free one goes on or begins (R295). -/
def Dev.slotTaken (g stamp : Nat) (d : Dev) : Dev :=
  d.setAdc g fun a => { a with lastS := stamp, runFrom := if stamp ≤ a.lastS + 50 then a.runFrom else stamp }

/-- CONVERSION_COMPLETE (R294, R302, R304, R307): the result reaches the system domain 240 ns after its sampling instant, due once the instants
of the sequencer before that are over. It is of a queued request first, else of the sequence; in a delay slot, or while the sequence is
frozen, there is none. -/
def conversionComplete (g : Nat) (microvolt : Int) (stamp : Nat) (d : Dev) : Dev :=
  if !d.domainOn 6 || (d.tb.counting && decide (d.nextSeq < stamp + 240)) then d
  else
    let d := if d.tb.counting then d.advTo (stamp + 240) else d
    let a := d.adc g
    let seq := d.bit (Reg.ADC_CTL g) 0 && a.going && decide (a.dlyTo ≤ stamp) && (a.cal != 2 || decide (stamp < a.calAt))
    let d := match a.inj with
      | (ch, tag, q) :: rest =>
        if a.injSlot q stamp then (d.slotTaken g stamp).injConversion g ch tag rest microvolt stamp
        else if seq then (d.slotTaken g stamp).seqConversion g microvolt stamp else d
      | [] => if seq then (d.slotTaken g stamp).seqConversion g microvolt stamp else d
    d.adcStat g

/-- A request for an injected conversion (R306). One queued in the converter clock in which a calibration was started goes before it
(R310). -/
def Dev.inject (g ch tag : Nat) (d : Dev) : Dev :=
  if 26 ≤ ch || (d.fm && d.isMetCh g ch) then (d.adcEvt g 2).inc (Reg.ADC_CNT_INJREF g) 32
  else if 4 ≤ (d.adc g).inj.length then (d.adcEvt g 1).inc (Reg.ADC_CNT_INJREF g) 32
  else
    (d.setAdc g fun a =>
      let l := a.inj ++ [(ch, tag, d.now)]
      if a.cal != 0 && a.startAt / 10 == d.now / 10 then { a with inj := l, cal := 1, calWait := l.length } else { a with inj := l }).adcStat g

/-- A write of ADC_INJ (R306). -/
def adcInj (g : Nat) (v : Word) (d : Dev) : Dev := d.inject g (fieldOf v 0 5) (fieldOf v 8 2)

/-- The first valley of carrier `n` from an instant on, or with `peak` its first peak, half a period behind a valley (R186); none while the
local carrier is disabled (R187). -/
def Dev.carrierPoint (d : Dev) (n : Nat) (peak : Bool) (t : Nat) : Option Nat :=
  let p := max 1 (d.fld (Reg.ATM_CL_CPER n) 0 24)
  if n == 6 && !d.bit (Reg.ATM_CL_CTL 6) 0 then none
  else some (gridFrom t ((d.rd (Reg.ATM_CL_ANCH_ACT n)).toNat + (if peak then (p + 1) / 2 else 0)) p)

/-- INJ_TRIGGER (R306): the next valley or peak of the selected carrier, due once the instants of the sequencer before it are over. -/
def injTrigger (g : Nat) (peak : Bool) (d : Dev) : Dev :=
  let w := d.rd (Reg.ADC_INJ_TRIG g)
  if !(d.domainOn 6 && d.domainOn 4 && d.tb.counting && w.getLsbD 0 && w.getLsbD (if peak then 5 else 4)) then d else
  match d.carrierPoint (fieldOf w 1 3) peak (max d.now (d.adc g).trigAt) with
  | none => d
  | some t =>
    if d.nextSeq < t then d
    else ((d.advTo t).setAdc g fun a => { a with trigAt := t + 1 }).inject g (fieldOf w 8 5) (fieldOf w 16 2)

/-- A write of ADC_INJ_TRIG: carrier 7 refused. -/
def adcInjTrigWrite (g : Nat) (v : Word) (d : Dev) : Dev := if fieldOf v 1 3 == 7 then d.adcErr g else d.genWrite (Reg.ADC_INJ_TRIG g) v

/-- Writes of ADC_PLAUS and ADC_PLAUS_WIN, which exist in group A only. An N lowered to the run in progress is reached by it (R313, R374). -/
def adcPlausWrite (g : Nat) (v : Word) (d : Dev) : Dev :=
  if g != 0 then d else if 26 ≤ fieldOf v 0 5 then d.adcErr 0
  else
    d.watch [82] fun d => (d.genWrite (Reg.ADC_PLAUS 0) (if fieldOf v 8 4 == 0 then putField v 8 4 1 else v)).plausFollow d.plausRuns
def adcPlausWinWrite (g : Nat) (v : Word) (d : Dev) : Dev :=
  if g != 0 then d else d.genWrite (Reg.ADC_PLAUS_WIN 0) (if fieldOf v 0 16 == 0 then putField v 0 16 50 else v)

/-- ADC_ACC_LATCH (R305). The extremes of an interval without a conversion are free values: the spec states none (DESIGN CHOICE,
safe, notes/assumptions/51). -/
def adcAccLatch (g : Nat) (v : Word) (d : Dev) : Dev :=
  if !v.getLsbD 0 then d
  else
    let c := d.freeCtr
    let d := forN 32 (fun e (x : Dev) =>
      let a := SMap.getD (d.adc g).accs {} e
      let mm : Word := if a.cnt == 0 then Config.freeWord (c + e) else BitVec.ofNat 32 (low 16 a.mn + low 16 a.mx * 65536)
      (((x.wr (Reg.ADC_ACC_LO g e) (BitVec.ofNat 32 (low 48 a.sum))).wr (Reg.ADC_ACC_HI g e) (BitVec.ofNat 32 (low 48 a.sum / 2 ^ 32))).wr
        (Reg.ADC_ACC_CNT g e) (BitVec.ofNat 32 a.cnt)).wr (Reg.ADC_ACC_MM g e) mm) d
    (d.putFreeCtr (c + 32)).setAdc g fun a => { a with accs := [] }

/-- The corrections of a slice: offset, gain, skew, and their ranges (R325). -/
def Dev.slice (d : Dev) (g s i : Nat) : Int := sext 16 (d.fld (Reg.ADC_SLICE_OFS g s + 4 * i) 0 16)
def sliceHi (i : Nat) : Int := if i == 2 then 256 else 32767
def sliceLo (i : Nat) : Int := if i == 2 then -256 else -32768
def Dev.setSlice (g s i : Nat) (x : Int) (d : Dev) : Dev := d.setF (Reg.ADC_SLICE_OFS g s + 4 * i) 0 16 (low 16 x)

/-- The group has had no free slot for 2^16 slots (R295). -/
def Dev.noFreeSlot (d : Dev) (g : Nat) : Bool := let a := d.adc g; decide (3276800 ≤ a.lastS + 50 - a.runFrom) && decide (d.now ≤ a.lastS + 350)

/-- BG_CORRECTION (R295): what the background conversions of a slice ask for. A slice makes a conversion each 200 ns, so 2^18 of them take
52,428,800 ns: it moves again no sooner. -/
def bgCorrection (g s : Nat) (dOfs dGain dSkew : Int) (slope : Bool) (d : Dev) : Dev :=
  if !(d.domainOn 6 && d.bit (Reg.ADC_CTL g) 3) then d
  else if !slope || d.noFreeSlot g then d.setB (Reg.ADC_STAT g) 4 true
  else if SMap.getD (d.adc g).bgAt 0 s != 0 && decide (d.now + 1 < SMap.getD (d.adc g).bgAt 0 s + 52428800) then d
  else
    let d := (d.setB (Reg.ADC_STAT g) 4 false).setAdc g fun a => { a with bgAt := SMap.put a.bgAt 0 s (d.now + 1) }
    forN 3 (fun i (d : Dev) =>
      let was := d.slice g s i
      let now := clampI (sliceLo i) (sliceHi i) (was + clampI (-1) 1 (if i == 0 then dOfs else if i == 1 then dGain else dSkew))
      let d := d.setSlice g s i now
      if now != was && (now == sliceHi i || now == sliceLo i) then (d.adcEvt g 6).raise 83 else d) d

/-- A write of ADC_CAL (R310, R311). -/
def adcCalStart (g : Nat) (v : Word) (d : Dev) : Dev :=
  if !v.getLsbD 0 then d
  else if (d.adc g).cal != 0 then d.adcErr g
  else ((d.setAdc g fun a => { a with cal := 1, calWait := a.inj.length, startAt := d.now }).calGo g).adcStat g

/-- ADC_CAL_DONE (R309 to R311): fails where a correction of some slice lies outside its range. A request that has waited for a whole chunk is
converted before it. The sequence goes on with the delay it had left. -/
def adcCalDone (g : Nat) (ofs gain skew : List Int) (d : Dev) : Dev :=
  if (d.adc g).cal != 2 || (d.adc g).inj.any (fun r => decide (r.2.2 + 3210 ≤ d.now)) then d
  else
    let val (i s : Nat) : Int := ((if i == 0 then ofs else if i == 1 then gain else skew).drop s).headD 0
    let ok := (List.range 3).all fun i => (List.range 4).all fun s => decide (sliceLo i ≤ val i s) && decide (val i s ≤ sliceHi i)
    let gap := SMap.getD d.met.calGap 0 g - 1
    let d : Dev := d.putMet { d.met with calGap := SMap.put d.met.calGap 0 g 0 }
    let d := if gap == 0 then d else d.flcEvent 0x05 (leBytes 4 g ++ leBytes 4 (gap / 1000))
    let d := ((d.setAdc g fun a => { a with cal := 0, chunks := 1536, dlyTo := if a.dlyLeft == 0 then 0 else d.now + a.dlyLeft })).setB (Reg.ADC_STAT g) 3 ok
    let d := if ok then
        let d := (forN 3 (fun i d => forN 4 (fun s (d : Dev) => d.setSlice g s i (val i s)) d) d).adcEvt g 4
        if d.bit (Reg.ADC_STAT 0) 3 && d.bit (Reg.ADC_STAT 1) 3 then d.setReady 10 true else d
      else (d.adcEvt g 5).raise 83
    (d.adcLateRestart g).adcStat g

/-! ### Fast comparators -/

/-- A half guards (R315). -/
def Dev.mainGuards (d : Dev) (n : Nat) : Bool := !d.cmp.maskM.getLsbD n
def Dev.shadowGuards (d : Dev) (n : Nat) : Bool := !d.cmp.maskS.getLsbD n

/-- The output of comparator `n` (R315). -/
def Dev.cmpWant (d : Dev) (n : Nat) : Bool :=
  d.bit Reg.CMP_CTL n && ((d.bit Reg.CMP_STAT (8 + n) && d.mainGuards n) || (d.bit Reg.CMP_STAT (16 + n) && d.shadowGuards n))

/-- The output follows its halves; on assertion it counts, cuts and raises FLT_CMPn (R214, R315). -/
def Dev.cmpFollow (n : Nat) (d : Dev) : Dev :=
  let want := d.cmpWant n
  if want == d.bit Reg.CMP_STAT n then d
  else
    let d := d.setB Reg.CMP_STAT n want
    if !want then d
    else
      let d := ((d.setB Reg.CMP_EVT n true).inc (Reg.CMP_CNT n) 32).cutAll n
      if d.bit Reg.CMP_CTL (8 + n) then d.raise (40 + n) else d

def halfBit (h : Half) (n : Nat) : Nat := match h with | .main => 8 + n | .shadow => 16 + n

/-- The thresholds that a half has in force (R316). -/
def Dev.cmpTh (d : Dev) (n : Nat) (h : Half) : Word :=
  match h with | .shadow => d.rd (Reg.CMP_TH n) | .main => SMap.getD d.cmp.thM (regReset (Reg.CMP_TH n)) n

/-- The hysteresis of CMP_CFG_n in microvolts (R314, R326). -/
def Dev.cmpHyst (d : Dev) (n : Nat) : Int :=
  let h := d.fld (Reg.CMP_CFG n) 0 2
  if h == 0 then 0 else if h == 1 then 5000 else if h == 2 then 10000 else 20000

/-- An input lies above HI, or below LO, of a half by more than `m` microvolts (R314): code c stands for (c - 512) × 2.5 V / 1,024. -/
def Dev.cmpBeyond (d : Dev) (n : Nat) (h : Half) (uv m : Int) : Bool :=
  let th := d.cmpTh n h
  let v (c : Nat) : Int := ((c : Int) - 512) * 2500000
  decide (v (fieldOf th 16 10) < (uv - m) * 1024) || decide ((uv + m) * 1024 < v (fieldOf th 0 10))

/-- COMPARATOR_ASSERT and COMPARATOR_RELEASE of a half (R314, R315): the input of the half has been at this level for so long. It asserts
beyond its thresholds, and releases where it lies inside them by the hysteresis; the filter holds both back (DEDUCED for the release,
notes/assumptions/91). -/
def comparatorHalf (n : Nat) (on : Bool) (x : HalfInput) (d : Dev) : Dev :=
  if !d.pwr.safeOn || x.held < d.fld (Reg.CMP_CFG n) 8 8 then d
  else if (if on then !d.cmpBeyond n x.half x.microvolt 0 else d.cmpBeyond n x.half x.microvolt (-d.cmpHyst n)) then d
  else (d.setB Reg.CMP_STAT (halfBit x.half n) on).cmpFollow n

def setBit8 (b : BitVec 8) (n : Nat) (x : Bool) : BitVec 8 := if x then b ||| (1#8 <<< n) else b &&& ~~~(1#8 <<< n)

/-- Masks or unmasks a half. -/
def Dev.mask (h : Half) (n : Nat) (x : Bool) (d : Dev) : Dev :=
  match h with
  | .main => d.putCmp { d.cmp with maskM := setBit8 d.cmp.maskM n x }
  | .shadow => d.putCmp { d.cmp with maskS := setBit8 d.cmp.maskS n x }

/-- A self-test of the comparator runs (R318). -/
def Dev.cmpTesting (d : Dev) (n : Nat) : Bool := d.bit Reg.CMP_STAT (24 + n)

/-- A write of CMP_TH (R316): the shadow half takes it at once. -/
def cmpThWrite (n : Nat) (v : Word) (d : Dev) : Dev :=
  if d.cmp.thP.getLsbD n || d.cmpTesting n || fieldOf v 16 10 ≤ fieldOf v 0 10 then d.setB Reg.CMP_ERR 0 true
  else
    let d := d.genWrite (Reg.CMP_TH n) v
    (((d.putCmp { d.cmp with thP := setBit8 d.cmp.thP n true }).mask .shadow n true)).cmpFollow n

/-- CMP_TH_MAIN_APPLY (R316). -/
def cmpThMainApply (n : Nat) (d : Dev) : Dev :=
  if !d.cmp.thP.getLsbD n then d
  else (((d.putCmp { d.cmp with thP := setBit8 d.cmp.thP n false, thM := SMap.put d.cmp.thM (regReset (Reg.CMP_TH n)) n (d.rd (Reg.CMP_TH n)) }).mask .main n true)).cmpFollow n

/-- CMP_MASK_END (R316); in a self-test, the shadow guards again and the main half is isolated (R318 step 6). -/
def cmpMaskEnd (n : Nat) (h : Half) (d : Dev) : Dev :=
  if d.cmpTesting n then
    (match h with | .shadow => ((d.mask .shadow n false).mask .main n true).cmpFollow n | .main => d)
  else (d.mask h n false).cmpFollow n

/-- CMP_DISAGREE (R317). -/
def cmpDisagree (n : Nat) (d : Dev) : Dev :=
  if d.pwr.safeOn && d.mainGuards n && d.shadowGuards n && d.bit Reg.CMP_STAT (8 + n) != d.bit Reg.CMP_STAT (16 + n) then
    let d := d.setB Reg.CMP_EVT (8 + n) true
    if d.bit Reg.CMP_CTL 16 then d.raise 97 else d
  else d

/-- A write of CMP_TEST (R318): the shadow half is isolated, the main half guards. -/
def cmpTest (v : Word) (d : Dev) : Dev :=
  forN 8 (fun n (d : Dev) =>
    if !v.getLsbD n then d
    else if d.cmpTesting n || d.cmp.thP.getLsbD n then d.setB Reg.CMP_ERR 1 true
    else (((d.setB Reg.CMP_STAT (24 + n) true).mask .main n false).mask .shadow n true).cmpFollow n) d

/-- CMP_SELFTEST_DONE (R318, R319). -/
def cmpSelftestDone (n : Nat) (mainOk shadowOk : Bool) (d : Dev) : Dev :=
  if !d.cmpTesting n then d
  else
    let d := (((d.setB Reg.CMP_STAT (24 + n) false).mask .main n false).mask .shadow n false).cmpFollow n
    let t := (d.fld (Reg.CMP_ST_RES n) 16 16 + 1) % 65536
    let d := (d.wr (Reg.CMP_ST_RES n) (BitVec.ofNat 32 (1 + 2 * b2n mainOk + 4 * b2n shadowOk + 65536 * t))).setB Reg.CMP_EVT (16 + n) true
    if mainOk && shadowOk then d else (d.setB Reg.CMP_EVT (24 + n) true).raise 97

/-- A write of CMP_CTL: a comparator not enabled has its output released (R315). -/
def cmpCtlWrite (v : Word) (d : Dev) : Dev := forN 8 (fun n (d : Dev) => d.cmpFollow n) (d.genWrite Reg.CMP_CTL v)

/-! ### Die temperature -/

def Dev.tmonHigh (d : Dev) : Int := sext 16 (d.fld Reg.TMON_LIM 0 16)

/-- A reading against the limits (R320, R322). -/
def Dev.reading (t : Int) (d : Dev) : Dev :=
  let d := d.setF Reg.TMON_TEMP 0 16 (low 16 t)
  let hi := d.tmonHigh
  let d := if hi - 160 ≤ t then d.setB Reg.TMON_STAT 0 true else if t < hi - 192 then d.setB Reg.TMON_STAT 0 false else d
  let d := if sext 16 (d.fld Reg.TMON_LIM 16 16) ≤ t then d.setB Reg.TMON_EVT 3 true else d
  let hot := if hi ≤ t then d.tmon.hot + 1 else 0
  let d : Dev := d.putTmon { d.tmon with hot := hot }
  if 2 ≤ hot && !d.bit Reg.TMON_STAT 2 then ((d.setB Reg.TMON_STAT 2 true).setB Reg.TMON_EVT 0 true).raise 84
  else if t < hi - 32 then d.setB Reg.TMON_STAT 2 false else d

/-- TMON_SAMPLE (R320 to R322). -/
def tmonSample (t : Int) (broken : Bool) (d : Dev) : Dev :=
  if !d.pwr.safeOn then d
  else if broken then
    let n := d.tmon.broken + 1
    let d : Dev := d.putTmon { d.tmon with broken := n, intact := 0 }
    if d.bit Reg.TMON_STAT 1 then d.reading 0x7FFF
    else if 2 ≤ n then (((d.setB Reg.TMON_STAT 1 true).setB Reg.TMON_EVT 2 true).raise 86).reading 0x7FFF
    else d.putTmon { d.tmon with hot := 0 }
  else
    let n := d.tmon.intact + 1
    let d : Dev := d.putTmon { d.tmon with broken := 0, intact := n, sum := d.tmon.sum + t, cnt := d.tmon.cnt + 1 }
    let d := if sext 16 (d.fld Reg.TMON_MAX 0 16) < t then d.setF Reg.TMON_MAX 0 16 (low 16 t) else d
    if !d.bit Reg.TMON_STAT 1 then d.reading t
    else if 16 ≤ n then (d.setB Reg.TMON_STAT 1 false).reading t
    else d.reading 0x7FFF

/-- TMON_RATE_WINDOW (R323). -/
def tmonRateWindow (d : Dev) : Dev :=
  if !d.pwr.safeOn then d
  else
    let s := d.tmon.sum
    let c := d.tmon.cnt
    let prev := d.tmon.prev
    let d : Dev := d.putTmon { d.tmon with sum := 0, cnt := 0, prev := if c == 0 then none else some (s, c) }
    match prev with
    | none => d
    | some (s0, c0) =>
      if c == 0 then d
      else
        let rate := clampI (-32768) 32767 (rnd (10 * (s * c0 - s0 * c)) (c * c0))
        let d := d.setF Reg.TMON_RATE 0 16 (low 16 rate)
        if rate ≤ (d.fld Reg.TMON_RISE 0 16 : Int) then d
        else
          let d := d.setB Reg.TMON_EVT 1 true
          if d.bit Reg.TMON_CTL 0 then d.raise 85 else d

/-- A write of TMON_LIM: -40 to +130 degrees C (R322). -/
def tmonLimWrite (v : Word) (d : Dev) : Dev :=
  let bad (x : Int) : Bool := decide (x < -640) || decide (2080 < x)
  if bad (sext 16 (fieldOf v 0 16)) || bad (sext 16 (fieldOf v 16 16)) then d.setB Reg.TMON_EVT 4 true else d.genWrite Reg.TMON_LIM v

/-- A write of TMON_RISE: 0 stores 1; a limit below the last rate makes FLT_TEMP_RISE active (R324, R374). -/
def tmonRiseWrite (v : Word) (d : Dev) : Dev := d.watch (if d.bit Reg.TMON_CTL 0 then [85] else []) (Dev.genWrite Reg.TMON_RISE (if fieldOf v 0 16 == 0 then 1 else v))


/-! ### Meanings -/

def execConversionComplete (g : Fin 2) (microvolt : Int) (stamp : Nat) (s : State) : Host.Outcome State Fault Refusal := run (Dev.inConv (conversionComplete g microvolt stamp)) s
def execPlausStale (s : State) : Host.Outcome State Fault Refusal := run plausStale s
def execSequenceRestart (g : Fin 2) (s : State) : Host.Outcome State Fault Refusal := run (sequenceRestart g) s
def execCommit (m : Master) (g : Fin 2) (v : Word) (s : State) : Host.Outcome State Fault Refusal := run (Dev.viaBus m (Reg.ADC_SEQ_CTL g) (adcSeqCtlWrite g v)) s
def execAdcCtlWrite (m : Master) (g : Fin 2) (v : Word) (s : State) : Host.Outcome State Fault Refusal := run (Dev.viaBus m (Reg.ADC_CTL g) (adcCtlWrite g v)) s
def execAdcMetMaskWrite (m : Master) (g : Fin 2) (v : Word) (s : State) : Host.Outcome State Fault Refusal := run (Dev.viaBus m (Reg.ADC_MET_MASK g) (adcMetMaskWrite g v)) s
def execAdcAccLatch (m : Master) (g : Fin 2) (v : Word) (s : State) : Host.Outcome State Fault Refusal := run (Dev.viaBus m (Reg.ADC_ACC_LATCH g) (adcAccLatch g v)) s
def execAdcInj (m : Master) (g : Fin 2) (v : Word) (s : State) : Host.Outcome State Fault Refusal := run (Dev.viaBus m (Reg.ADC_INJ g) (adcInj g v)) s
def execInjTrigger (g : Fin 2) (peak : Bool) (s : State) : Host.Outcome State Fault Refusal := run (injTrigger g peak) s
def execBgCorrection (g : Fin 2) (slice : Fin 4) (dOfs dGain dSkew : Int) (slope : Bool) (s : State) : Host.Outcome State Fault Refusal := run (bgCorrection g slice dOfs dGain dSkew slope) s
def execAdcCalStart (m : Master) (g : Fin 2) (v : Word) (s : State) : Host.Outcome State Fault Refusal := run (Dev.viaBus m (Reg.ADC_CAL g) (adcCalStart g v)) s
def execAdcCalDone (g : Fin 2) (ofs gain skew : List Int) (s : State) : Host.Outcome State Fault Refusal := run (Dev.inConv (adcCalDone g ofs gain skew)) s
def execComparatorAssert (n : Fin 8) (x : HalfInput) (s : State) : Host.Outcome State Fault Refusal := run (comparatorHalf n true x) s
def execComparatorRelease (n : Fin 8) (x : HalfInput) (s : State) : Host.Outcome State Fault Refusal := run (comparatorHalf n false x) s
def execCmpThWrite (m : Master) (n : Fin 8) (v : Word) (s : State) : Host.Outcome State Fault Refusal := run (Dev.viaBus m (Reg.CMP_TH n) (cmpThWrite n v)) s
def execCmpThMainApply (n : Fin 8) (s : State) : Host.Outcome State Fault Refusal := run (cmpThMainApply n) s
def execCmpMaskEnd (n : Fin 8) (h : Half) (s : State) : Host.Outcome State Fault Refusal := run (cmpMaskEnd n h) s
def execCmpDisagree (n : Fin 8) (s : State) : Host.Outcome State Fault Refusal := run (cmpDisagree n) s
def execCmpTest (m : Master) (v : Word) (s : State) : Host.Outcome State Fault Refusal := run (Dev.viaBus m Reg.CMP_TEST (cmpTest v)) s
def execCmpSelftestDone (n : Fin 8) (mainOk shadowOk : Bool) (s : State) : Host.Outcome State Fault Refusal := run (cmpSelftestDone n mainOk shadowOk) s
def execTmonSample (sixteenths : Int) (broken : Bool) (s : State) : Host.Outcome State Fault Refusal := run (tmonSample sixteenths broken) s
def execTmonRateWindow (s : State) : Host.Outcome State Fault Refusal := run tmonRateWindow s
def execTmonLimWrite (m : Master) (v : Word) (s : State) : Host.Outcome State Fault Refusal := run (Dev.viaBus m Reg.TMON_LIM (tmonLimWrite v)) s

end Sys2Proof.Machine
end

