-- ==== Sys2Proof/Machine/Lanes.lean ====
section
/-! DEFINITION. Ring and twin lanes: blocks, lock and slip, tap training, eye and error monitors (spec/04_ring_lanes.md, R95 to
R127). Lanes 24 and 25 are the twin lanes (R122, R124). -/

namespace Sys2Proof.Machine

/-! ### Shared operations -/

/-- A register of a lane by the offset of R125. -/
def Dev.ln (d : Dev) (n off lo w : Nat) : Nat := d.fld (laneReg n off) lo w

/-- The WRITE of 0 to OFS_A or OFS_B, to every node, that one end sends when the other end leaves RUN (R158, R169, R175). -/
def Dev.ofsClear (p : Nat) (endB : Bool) (d : Dev) : Dev :=
  d.svcSend p ([0x00#8, 0x04#8, 0#8, 0#8] ++ beBytes 2 (if endB then 0x0108 else 0x0104) ++ beBytes 2 4 ++ beBytes 8 0)

/-- The other port of a solo ring (R128). -/
def Dev.partner (d : Dev) (p : Nat) : Option Nat :=
  if d.bit (Reg.RING_LINK_CTL p) 31 then some (d.fld (Reg.RING_LINK_CTL p) 24 5 % 24) else none

/-- A port leaves RUN: its link state goes, the nodes' offsets of this end become invalid, and a partner that still runs takes
over alone (R131, R158). -/
def Dev.leaveRun (p : Nat) (d : Dev) : Dev :=
  let d := d.setF (Reg.RING_LINK_STAT p) 0 5 0
  let d := forN 12 (fun i d => d.setB (Reg.RING_OFS p i) 31 false) d
  let d := d.setPort p fun q =>
    { q with runSince := 0, startDone := false, calSum := [], calN := [], hrSum := 0, hrN := 0, calP := 0, applyLeft := none, meas := [], svcWait := [], readWait := [] }
  match d.partner p with
  | none => d
  | some q =>
    if d.inRun q then
      let d := (d.setB (Reg.RING_LINK_STAT q) 1 true).setB (Reg.RING_LINK_EVT q) 9 true
      d.ofsClear q (d.bit (Reg.RING_LINK_CTL p) 1)
    else d

/-- SYS_READY.RING and TWIN follow the lanes: a ring port in block lock; both twin lanes trained (SYS_READY table). -/
def Dev.laneReady (d : Dev) : Dev :=
  let up := decide (3 ≤ d.lstate 24) && decide (3 ≤ d.lstate 25)
  -- t_tl is measured when the link has trained: a free value (R30 to R34; DESIGN CHOICE, notes/assumptions/64)
  let d := if up && !d.bit Reg.SYS_READY 15 then (d.setF Reg.TWIN_TL 0 16 (Config.freeNat d.freeCtr % 65536)).nextFree else d
  (d.setReady 14 ((List.range 24).any fun p => d.bit (laneReg p 4) 3)).setReady 15 up

/-- Moves a lane to another state; leaving RUN takes the link with it. -/
def Dev.setLstate (n st : Nat) (d : Dev) : Dev :=
  let was := d.lstate n
  let d := d.setF (laneReg n 4) 0 3 st
  let d := if was == 4 && st != 4 && decide (n < 24) then d.leaveRun n else d
  d.laneReady

/-- An event of RING_EVT: the bit, and the fault where it is enabled; LOL, HI_BER, EYE_LOW, EB_ERR and SIGLOSS count only in RUN,
CFG_ERR and SLIP_ERR never (R121, R122). Events of one system clock raise it once. -/
def Dev.laneEvent (n i : Nat) (run : Bool) (d : Dev) : Dev :=
  let d := d.setB (laneReg n 8) i true
  let src := if n < 24 then 48 + n else 89
  let counts := i == 3 || i == 8 || (run && (i == 0 || i == 1 || i == 2 || i == 4 || i == 7))
  let once := d.fc.forming.contains src && sameClock d.fc.formedAt d.now
  if counts && !once && d.bit (laneReg n 0xC) i then d.raise src else d

/-- SLIP_POS as the register shows it; on a twin lane bit 8 is ALIGNED (R103, R124). -/
def Dev.setSlip (n pos : Nat) (d : Dev) : Dev :=
  let d := d.setLane n fun l => { l with slip := pos }
  if n < 24 then d.setF (laneReg n 4) 8 7 pos else d.setF (laneReg n 4) 9 6 (pos / 2)

/-- The taps of a lane: PRE, MAIN, POST. -/
def Dev.taps (d : Dev) (n : Nat) : Nat × Nat × Nat := (d.ln n 0x20 0 4, d.ln n 0x20 8 6, d.ln n 0x20 16 5)

/-- The condition of R110. -/
def tapsOk (t : Int × Int × Int) : Bool :=
  let (p, m, q) := t
  decide (0 ≤ p) && decide (p ≤ 15) && decide (24 ≤ m) && decide (m ≤ 63) && decide (0 ≤ q) && decide (q ≤ 31) &&
    decide (p + m + q ≤ 63) && decide (12 ≤ m - p - q)

def Dev.setTaps (n : Nat) (t : Int × Int × Int) (d : Dev) : Dev :=
  d.wr (laneReg n 0x20) (BitVec.ofNat 32 (t.1.toNat + 256 * t.2.1.toNat + 65536 * t.2.2.toNat))

/-- A tap field of a request: its change (R111). -/
def tapMove (f : Nat) : Int := if f == 1 then 1 else if f == 2 then -1 else 0

/-- Applies a request byte (byte 2 of a TRAIN block) and gives the answer byte 4 (R112, R113). -/
def Dev.applyReq (n : Nat) (req : Byte) (d : Dev) : Byte × Dev :=
  let b := req.toNat
  let mp := tapMove (b / 64 % 4); let mm := tapMove (b / 16 % 4); let mq := tapMove (b / 4 % 4)
  let kinds := b2n (nbit b 1) + b2n (nbit b 0) + b2n (mp != 0) + b2n (mm != 0) + b2n (mq != 0)
  if 1 < kinds then (0xFC, d)
  else if nbit b 1 then (0x54, d.setTaps n (0, 63, 0))
  else if nbit b 0 then (0x54, d.setTaps n (2, 50, 8))
  else if kinds == 0 then (0, d)
  else
    let (p, m, q) := d.taps n
    let t : Int × Int × Int := ((p : Int) + mp, (m : Int) + mm, (q : Int) + mq)
    let ok := tapsOk t
    let st := if ok then 1 else 2
    let ans := BitVec.ofNat 8 (if mp != 0 then 64 * st else if mm != 0 then 16 * st else 4 * st)
    (ans, if ok then d.setTaps n t else d)

/-- A request byte asks for something: a preset, the initial setting, or a tap (R111). -/
def isRequest (req : Byte) : Bool :=
  let b := req.toNat
  nbit b 1 || nbit b 0 || tapMove (b / 64 % 4) != 0 || tapMove (b / 16 % 4) != 0 || tapMove (b / 4 % 4) != 0

/-- The TRAIN block a lane sends: its request, its answer, RX_READY and NO_TRAIN, which a search begun by START clears too (R111). -/
def Dev.sendTrain (n : Nat) (st : Byte) (ready : Bool) (d : Dev) : Dev :=
  let l := d.lane n
  let noTrain := l.search == 0 && !l.startReq && (!d.bit (laneReg n 0) 2 || l.ended)
  let b := [0x2D#8, l.mySeq, l.myReq, l.farSeq.getD 0, st, BitVec.ofNat 8 (128 * b2n ready + 64 * b2n noTrain)]
  d.send (.block n (b ++ beBytes 2 (crc16 b)))

/-- Sends a new request of the search (R112): a new REQ_SEQ, counted in NREQ. -/
def Dev.request (n : Nat) (req : Byte) (next : Nat) (d : Dev) : Dev :=
  let d := d.setLane n fun l => { l with mySeq := l.mySeq + 1, myReq := req, search := next, nreq := l.nreq + 1, waitN := 0 }
  let d := d.setF (laneReg n 0x28) 8 8 (min 255 (d.lane n).nreq)
  d.sendTrain n (d.lane n).ansSt (d.lane n).rxReady

/-- READY when the own receiver is ready and the far RX_READY is seen (R107). The twin lanes run as one link once both are READY: no other
condition is stated for them (R122; DEDUCED, notes/assumptions/92). -/
def Dev.tryReady (n : Nat) (d : Dev) : Dev :=
  if !(d.lstate n == 2 && (d.lane n).rxReady && d.bit (laneReg n 4) 5) then d else
  let d := d.setLstate n 3
  if n < 24 || d.lstate (49 - n) < 3 then d else (d.setLstate n 4).setLstate (49 - n) 4

/-- A training fails: TRAIN_FAIL, its cause, back to SEARCH with the taps kept (R116). LOCK clears without LOL (DESIGN CHOICE,
notes/assumptions/93). -/
def Dev.trainFail (n cause : Nat) (d : Dev) : Dev :=
  let d := (d.setF (laneReg n 0x28) 0 2 3).setF (laneReg n 0x28) 2 2 cause
  let d := d.setLane n fun l => { l with search := 0, ended := true, startReq := false, rxReady := false, myReq := 0, good := 0 }
  let d := (d.setB (laneReg n 4) 3 false).setLstate n 1
  d.laneEvent n 3 false

/-- The request byte that moves a tap one step: post, pre or main (R111). -/
def tapReq (tap : Nat) (plus : Bool) : Byte :=
  BitVec.ofNat 8 ((if plus then 1 else 2) * (if tap == 0 then 4 else if tap == 1 then 64 else 16))

/-- The first direction of a tap: down for main, up for the others (R115). -/
def tapPlus (tap : Nat) (second : Bool) : Bool := if tap == 2 then second else !second

/-- The search ends: ready where the kept eye meets the limits, failed with cause 2 otherwise (R115). -/
def Dev.searchEnd (n : Nat) (d : Dev) : Dev :=
  let l := d.lane n
  if decide (d.ln n 0x30 0 6 ≤ l.w) && decide (d.ln n 0x30 8 7 ≤ l.h) then
    let d := (d.setF (laneReg n 0x28) 0 2 2).setF (laneReg n 0x28) 2 2 0
    let d := d.setLane n fun l => { l with search := 0, ended := true, startReq := false, rxReady := true, myReq := 0 }
    (d.sendTrain n l.ansSt true).tryReady n
  else d.trainFail n 2

/-- The request limit: MAXREQ, 0 meaning 256 (R125). -/
def Dev.maxReq (d : Dev) (n : Nat) : Nat := if d.ln n 0x24 16 8 == 0 then 256 else d.ln n 0x24 16 8

/-- One direction of a tap is done: the other direction, the next tap, the next round, or the end, where a time-out that has passed fails the
search with cause 1 (R115). -/
def Dev.searchNext (n : Nat) (d : Dev) : Dev :=
  let l := d.lane n
  if !l.moved && !l.second then
    (d.setLane n fun l => { l with second := true, moved := false }).request n (tapReq l.tap (tapPlus l.tap true)) 3
  else if l.tap < 2 then
    (d.setLane n fun l => { l with tap := l.tap + 1, second := false, moved := false }).request n
      (tapReq (l.tap + 1) (tapPlus (l.tap + 1) false)) 3
  else if l.tout then d.trainFail n 1
  else if !l.improved || decide (d.maxReq n ≤ l.nreq) then d.searchEnd n
  else
    (d.setLane n fun l => { l with tap := 0, second := false, moved := false, improved := false }).request n
      (tapReq 0 (tapPlus 0 false)) 3

/-- TRAIN begins: a tap search on an electrical segment that has had none since EN, or after START; else only RX_READY is
exchanged (R108). -/
def Dev.enterTrain (n : Nat) (d : Dev) : Dev :=
  let l := d.lane n
  let d := (d.setLane n fun l => { l with rxReady := false }).setLstate n 2
  if (d.bit (laneReg n 0) 2 && !l.ended) || l.startReq then
    let d := d.wr (laneReg n 0x28) (BitVec.ofNat 32 (1 + d.ln n 0x28 16 8 * 65536))
    (d.setLane n fun l => { l with nreq := 0, tap := 0, second := false, moved := false, improved := false, tout := false }).request n 1 1
  else d

/-! ### Receiver -/

/-- Block lock (R101, R107): a port in SEARCH goes to TRAIN. -/
def Dev.lockGained (n : Nat) (d : Dev) : Dev :=
  let d := (d.setB (laneReg n 4) 3 true).setLane n fun l => { l with good := max 64 l.good, win := 0 }
  if d.lstate n == 1 then d.enterTrain n else d.laneReady

/-- Loss of lock (R101, R107): LOL, counted; the port returns to SEARCH, from TRAIN and READY as from RUN (DESIGN CHOICE,
notes/assumptions/94). -/
def Dev.lockLost (n : Nat) (d : Dev) : Dev :=
  let inRun := d.lstate n == 4
  let d := (d.setB (laneReg n 4) 3 false).inc (laneReg n 0x44) 32
  let d := d.setLane n fun l => { l with good := 0, search := 0, rxReady := false, myReq := 0, mark := none, lag := none, frm := 0, win := 0 }
  let d := if n < 24 then d else d.setB (laneReg n 4) 8 false
  (d.setLstate n 1).laneEvent n 0 inRun

/-- HI_BER, once in a window (R119). -/
def Dev.hiBer (n : Nat) (d : Dev) : Dev :=
  let th := d.ln n 0x38 0 16
  let l := d.lane n
  if th == 0 || l.berHit || l.berBad < th then d
  else ((d.setLane n fun l => { l with berHit := true }).setB (laneReg n 4) 4 true).laneEvent n 1 (d.lstate n == 4)

/-- The window of R119 ends; one with fewer invalid headers than TH clears HI_BER. -/
def Dev.berEnd (n : Nat) (d : Dev) : Dev :=
  let d := d.hiBer n
  let hit := (d.lane n).berHit
  let d := d.setLane n fun l => { l with berBad := 0, berN := 0, berHit := false }
  if hit || d.ln n 0x38 0 16 == 0 then d else d.setB (laneReg n 4) 4 false

/-- One lane clock, which a received block counts out: in TRAIN, and in READY until the far end shows RX_READY, every 8th block sent is a
TRAIN block; a request without an answer within 4,096 blocks fails the training with cause 3; after 1,024 pairs the twin lanes send a
marker pair (R107, R114, R123; DESIGN CHOICE, notes/assumptions/95). -/
def Dev.laneClock (n : Nat) (d : Dev) : Dev :=
  let st := d.lstate n
  let l := d.lane n
  let d :=
    if st == 2 || (st == 3 && !d.bit (laneReg n 4) 5) then
      let d := d.setLane n fun l => { l with txN := (l.txN + 1) % 8 }
      if (d.lane n).txN == 0 then d.sendTrain n l.ansSt l.rxReady else d
    else d
  let d :=
    if st == 2 && l.search % 2 == 1 then
      let d := d.setLane n fun l => { l with waitN := l.waitN + 1 }
      if 4096 ≤ (d.lane n).waitN then d.trainFail n 3 else d
    else d
  if n != 24 || d.lstate 25 == 0 then d else
  let d := d.setLane 24 fun l => { l with pairs := l.pairs + 1 }
  if (d.lane 24).pairs < 1024 then d
  else
    let c := (d.lane 24).markTx
    let m (k : Nat) : List Byte := [0x1E#8, BitVec.ofNat 8 (0x80 + k)] ++ beBytes 2 c ++ List.replicate 4 0
    ((d.setLane 24 fun l => { l with pairs := 0, markTx := (c + 1) % 65536 }).send (.block 24 (m 0))).send (.block 25 (m 1))

/-- A sync header (R101, R102, R119): the count of good ones, the last 64, the window of R119, slip, lock, loss of lock. -/
def Dev.headerSeen (n : Nat) (bad : Bool) (d : Dev) : Dev :=
  let lock := d.bit (laneReg n 4) 3
  let d := d.setLane n fun l =>
    { l with
      good := if bad then 0 else l.good + 1, win := (2 * l.win + b2n bad) % 2 ^ 64, rxN := l.rxN + 1, berN := l.berN + 1, berBad := l.berBad + b2n bad }
  let d := if bad then (d.inc (laneReg n 0x3C) 32).hiBer n else d
  let d := if (d.lane n).berN < 65536 then d else d.berEnd n
  if lock then
    if 16 ≤ ((List.range 64).filter (nbit (d.lane n).win)).length then d.lockLost n else d
  else if bad then
    if d.bit (laneReg n 0x10) 0 then d else d.setSlip n (((d.lane n).slip + 1) % 66)
  else if 64 ≤ (d.lane n).good then d.lockGained n else d

/-- A twin alignment marker (R123): successive ones of a lane count up by one; the two of a pair lie within 16 blocks, the later lane as far
behind as in the pair before. A pair that keeps to this sets ALIGNED; one that does not clears it, with ALIGN_LOST. -/
def Dev.marker (n c : Nat) (d : Dev) : Dev :=
  let l := d.lane n
  let o := d.lane (49 - n)
  let lost (d : Dev) : Dev :=
    (forN 2 (fun k d => d.setB (laneReg (24 + k) 4) 8 false) d).laneEvent n 8 (d.lstate n == 4)
  let d := d.setLane n fun l => { l with mark := some c, markAt := l.rxN }
  if l.mark.any fun p => c != (p + 1) % 65536 then lost d
  else if o.mark != some c then d
  else
    let lag := o.rxN - o.markAt
    let moved := l.lag.any fun x => x != lag
    let d := d.setLane n fun l => { l with lag := some lag }
    if 16 < lag || moved then lost d else forN 2 (fun k d => d.setB (laneReg (24 + k) 4) 8 true) d

/-- A received control block (R98 to R100, R132, R133): an unknown type is counted and not used, and so is a TRIP block or PROBE request
whose CRC-8 is bad; SOF opens a frame, TERM closes it, any other but TRIP ends it as bad. An IDLE block is discarded, whatever its bytes
1 to 7 (DESIGN CHOICE, notes/assumptions/96). -/
def Dev.controlBlock (n : Nat) (bs : List Byte) (d : Dev) : Dev :=
  let ty := byteAt bs 0
  let inFrame := (d.lane n).frm == 1
  let frm (st : Nat) (d : Dev) : Dev := d.setLane n fun l => { l with frm := st }
  let d :=
    if ty == 0x78 then frm (if inFrame then 2 else 1) d
    else if ty == 0x87 then (if inFrame then frm 0 d else d)
    else if ty != 0x55 && inFrame then frm 2 d else d
  if ty == 0x1E then (if decide (24 ≤ n) && byteAt bs 1 == 0x80 + (n - 24) then d.marker n (fieldAt bs 2 2) else d)
  else if ty == 0x55 || (ty == 0x4B && !nbit (byteAt bs 1) 7) then (if (bs.drop 7).headD 0 == crc8 (bs.take 7) then d else d.inc (laneReg n 0x40) 32)
  else if ty == 0x78 || ty == 0x87 || ty == 0x2D || ty == 0x33 || ty == 0x4B then d
  else d.inc (laneReg n 0x40) 32

/-! ### Commands -/

/-- BLOCK_RECEIVED (R98 to R104, R119, R123, R132, R133): the header is judged; the contents count only in block lock, an unknown type
before it is not counted (DESIGN CHOICE, notes/assumptions/97). A buffer error shows and discards the frame in progress. -/
def blockReceived (n : Nat) (hdr : BitVec 2) (payload : BitVec 64) (ebErr : Bool) (d : Dev) : Dev :=
  if d.lstate n == 0 then d else
  let lock := d.bit (laneReg n 4) 3
  let d := (d.setB (laneReg n 4) 7 true).laneClock n
  let d := if ebErr then (d.setLane n fun l => { l with frm := if l.frm == 1 then 3 else l.frm }).laneEvent n 4 (d.lstate n == 4) else d
  let d := d.headerSeen n (hdr == 0 || hdr == 3)
  let d := if 24 ≤ n && lock && (hdr == 1 || hdr == 2) then d.twinHeard else d
  if lock && hdr == 2 then d.controlBlock n (payloadBytes payload) else d

/-- BLOCK_LOCK (R101, R107): what is missing of 64 consecutive valid headers has come, in blocks that carry nothing else
(DESIGN CHOICE, notes/assumptions/98). -/
def blockLock (n : Nat) (d : Dev) : Dev := if d.lstate n == 0 || d.bit (laneReg n 4) 3 then d else d.lockGained n

/-- LOSS_OF_LOCK (R101, R107): what is missing of 16 invalid headers within 64 blocks has come. -/
def lossOfLock (n : Nat) (d : Dev) : Dev := if d.bit (laneReg n 4) 3 then d.lockLost n else d

/-- SLIP_STEP, a write of RING_SLIP (R102). The MODE of the same write judges STEP, and is stored where STEP is ignored (DESIGN CHOICE,
notes/assumptions/99). -/
def slipStep (n : Nat) (v : Word) (d : Dev) : Dev :=
  let d := d.setB (laneReg n 0x10) 0 (v.getLsbD 0)
  if !v.getLsbD 1 then d
  else if !v.getLsbD 0 then d.laneEvent n 6 false
  else (d.setSlip n (((d.lane n).slip + 1) % 66)).setLane n fun l => { l with good := 0 }

/-- SIGNAL_LOSS (R106). -/
def signalLoss (n : Nat) (d : Dev) : Dev :=
  if !d.bit (laneReg n 4) 7 then d else (d.setB (laneReg n 4) 7 false).laneEvent n 7 (d.lstate n == 4)

/-- RING_CTL_WRITE (R107, R126). Clearing EN clears LOCK, HI_BER, FAR_READY and EYE_LOW too (DESIGN CHOICE, notes/assumptions/100). -/
def ringCtlWrite (n : Nat) (v : Word) (d : Dev) : Dev :=
  let old := d.rd (laneReg n 0)
  let wasEn := old.getLsbD 0; let en := v.getLsbD 0
  if fieldOf (old ^^^ v) 1 5 != 0 && (wasEn || en) then d.laneEvent n 5 false
  else
    let d := d.genWrite (laneReg n 0) v
    if wasEn == en then d
    else if en then (d.setLane n fun l => { l with ended := false, good := 0, search := 0, rxReady := false, win := 0, rxN := 0, berN := 0, berBad := 0, berHit := false, frm := 0 }).setLstate n 1
    else
      let d := d.setLstate n 0
      let d := (d.andNot (laneReg n 4) 0x78#32).laneReady
      d.setLane n fun l => { l with good := 0, search := 0, rxReady := false, myReq := 0, farSeq := none, mark := none, lag := none, frm := 0 }

/-- TRAIN_BLOCK_RECEIVED (R109 to R115): a bad CRC is counted; the far RX_READY is noted; a new request is applied once and answered;
the answer to the own request moves the search on. In RUN every request is refused. -/
def trainBlockReceived (n : Nat) (payload : BitVec 64) (d : Dev) : Dev :=
  let bs := payloadBytes payload
  if d.lstate n == 0 || !d.bit (laneReg n 4) 3 then d
  else if byteAt bs 0 != 0x2D || fieldAt bs 6 2 != crc16 (bs.take 6) then d.inc (laneReg n 0x40) 32
  else
    let seq := (bs.drop 1).headD 0; let req := (bs.drop 2).headD 0
    let d := d.setB (laneReg n 4) 5 (nbit (byteAt bs 5) 7)
    let isNew := (d.lane n).farSeq != some seq
    -- an answered request counts; a hold asks for nothing
    let d := if isNew && isRequest req then d.setF (laneReg n 0x28) 16 8 (min 255 (d.ln n 0x28 16 8 + 1)) else d
    if d.lstate n == 4 then
      (d.setLane n fun l => { l with farSeq := some seq, ansSt := 0xFC }).sendTrain n 0xFC true
    else
      let d := if isNew then let (ans, d) := d.applyReq n req; d.setLane n fun l => { l with farSeq := some seq, ansSt := ans } else d
      let l := d.lane n
      let d :=
        if l.search == 0 || (bs.drop 3).headD 0 != l.mySeq then d
        else
          let st := byteAt bs 4 / (if l.tap == 0 then 4 else if l.tap == 1 then 64 else 16) % 4
          if l.search == 1 then d.setLane n fun l => { l with search := 2, myReq := 0 }
          else if l.search == 3 then
            if st == 1 then d.setLane n fun l => { l with search := 4, myReq := 0 } else d.searchNext n
          else if l.search == 5 then d.searchNext n
          else d
      let d := if isNew then d.sendTrain n (d.lane n).ansSt (d.lane n).rxReady else d
      d.tryReady n

/-- TRAIN_START, a write of RING_TRAIN (R108). -/
def trainStart (n : Nat) (v : Word) (d : Dev) : Dev :=
  let start := v.getLsbD 0
  if start && d.lstate n == 4 then d.laneEvent n 5 false
  else
    let tout := max 1 (fieldOf v 8 8); let gain := max 1 (fieldOf v 24 4)
    let d := d.wr (laneReg n 0x24) (BitVec.ofNat 32 (tout * 256 + fieldOf v 16 8 * 65536 + gain * 2 ^ 24))
    if !start then d
    else
      let d := d.setLane n fun l => { l with startReq := true }
      if d.lstate n == 3 || (d.lstate n == 2 && (d.lane n).search == 0) then d.enterTrain n else d

/-- QUICK_EYE_DONE (R115, R116): the first measurement starts the moves; a move is kept when M rises by GAIN percent, else undone.
Where no search runs, a port in TRAIN becomes ready when its eye meets the limits (R108). -/
def quickEyeDone (n w h : Nat) (d : Dev) : Dev :=
  let l := d.lane n
  if d.lstate n != 2 then d
  else if l.search == 0 then
    if decide (d.ln n 0x30 0 6 ≤ w) && decide (d.ln n 0x30 8 7 ≤ h) then
      ((d.setLane n fun l => { l with rxReady := true }).sendTrain n l.ansSt true).tryReady n
    else d
  else if l.search == 2 then
    (d.setLane n fun l => { l with w := w, h := h }).request n (tapReq 0 (tapPlus 0 false)) 3
  else if l.search == 4 then
    if (l.w * l.h) * (100 + d.ln n 0x24 24 4) ≤ 100 * (w * h) then
      (d.setLane n fun l => { l with w := w, h := h, moved := true, improved := true }).request n (tapReq l.tap (tapPlus l.tap l.second)) 3
    else d.request n (tapReq l.tap (!tapPlus l.tap l.second)) 5
  else d

/-- TRAIN_TIMEOUT (R114 to R116): the training time-out, which fails the search at the end of the round in progress, or 4,096 blocks without
an answer to the request that waits, cause 3. -/
def trainTimeout (n : Nat) (silent : Bool) (d : Dev) : Dev :=
  if d.lstate n != 2 || (d.lane n).search == 0 then d
  else if !silent then d.setLane n fun l => { l with tout := true }
  else if (d.lane n).search % 2 == 1 then d.trainFail n 3 else d

/-- RING_TAPS_WRITE (R127). -/
def ringTapsWrite (n : Nat) (v : Word) (d : Dev) : Dev :=
  let t : Int × Int × Int := (fieldOf v 0 4, fieldOf v 8 6, fieldOf v 16 5)
  if d.lstate n == 2 || !tapsOk t then d.laneEvent n 5 false else d.setTaps n t

/-- EYE_SCAN_DONE (R118): RING_EYE, and EYE_LOW by the limits. In OFF no scan is made (DESIGN CHOICE, notes/assumptions/101). -/
def eyeScanDone (n w h : Nat) (d : Dev) : Dev :=
  if d.lstate n == 0 || d.lstate n == 2 then d else
  let scans := (d.ln n 0x34 16 16 + 1) % 65536
  let d := d.wr (laneReg n 0x34) (BitVec.ofNat 32 (w % 128 + h % 128 * 256 + scans * 65536))
  if decide (w < d.ln n 0x30 0 6) || decide (h < d.ln n 0x30 8 7) then (d.setB (laneReg n 4) 6 true).laneEvent n 2 (d.lstate n == 4)
  else d.setB (laneReg n 4) 6 false

/-- BER_WINDOW_END (R119): what is missing of the window's 65,536 blocks has come, with valid headers. -/
def berWindowEnd (n : Nat) (d : Dev) : Dev := if d.lstate n == 0 then d else d.berEnd n

/-- A write of RING_FLT_EN: a bit that it selects may be set already (R121, R374). -/
def ringFltEnWrite (n : Nat) (v : Word) (d : Dev) : Dev := d.watch (if n < 24 then [48 + n] else []) (Dev.genWrite (laneReg n 0xC) v)

/-! ### Meanings -/

def execBlockReceived (lane : Fin 26) (hdr : BitVec 2) (payload : BitVec 64) (ebErr : Bool) (s : State) : Host.Outcome State Fault Refusal := run (Dev.inLanes (blockReceived lane hdr payload ebErr)) s
def execBlockLock (lane : Fin 26) (s : State) : Host.Outcome State Fault Refusal := run (Dev.inLanes (blockLock lane)) s
def execLossOfLock (lane : Fin 26) (s : State) : Host.Outcome State Fault Refusal := run (Dev.inLanes (lossOfLock lane)) s
def execSlipStep (m : Master) (lane : Fin 26) (v : Word) (s : State) : Host.Outcome State Fault Refusal := run (Dev.viaBus m (laneReg lane 0x10) (slipStep lane v)) s
def execSignalLoss (lane : Fin 26) (s : State) : Host.Outcome State Fault Refusal := run (signalLoss lane) s
def execRingCtlWrite (m : Master) (lane : Fin 26) (v : Word) (s : State) : Host.Outcome State Fault Refusal := run (Dev.viaBus m (laneReg lane 0) (ringCtlWrite lane v)) s
def execTrainBlockReceived (lane : Fin 26) (payload : BitVec 64) (s : State) : Host.Outcome State Fault Refusal := run (Dev.inLanes (trainBlockReceived lane payload)) s
def execTrainStart (m : Master) (lane : Fin 26) (v : Word) (s : State) : Host.Outcome State Fault Refusal := run (Dev.viaBus m (laneReg lane 0x24) (trainStart lane v)) s
def execQuickEyeDone (lane : Fin 26) (w h : Nat) (s : State) : Host.Outcome State Fault Refusal := run (Dev.inLanes (quickEyeDone lane w h)) s
def execTrainTimeout (lane : Fin 26) (silent : Bool) (s : State) : Host.Outcome State Fault Refusal := run (Dev.inLanes (trainTimeout lane silent)) s
def execRingTapsWrite (m : Master) (lane : Fin 26) (v : Word) (s : State) : Host.Outcome State Fault Refusal := run (Dev.viaBus m (laneReg lane 0x20) (ringTapsWrite lane v)) s
def execEyeScanDone (lane : Fin 26) (w h : Nat) (s : State) : Host.Outcome State Fault Refusal := run (Dev.inLanes (eyeScanDone lane w h)) s
def execBerWindowEnd (lane : Fin 26) (s : State) : Host.Outcome State Fault Refusal := run (Dev.inLanes (berWindowEnd lane)) s

end Sys2Proof.Machine
end

