-- ==== Sys2Proof/Machine/Link.lean ====
section
/-! DEFINITION. The cell link at the device: frames and records, ring time and calibration, discovery, trips written by software, the
cell table's requests (spec/05_cell_link.md, R128 to R181). Lengths are in 1/16 ns, or in 1/80 ns where a block time enters. -/

namespace Sys2Proof.Machine

/-! ### Shared operations -/

/-- Fields of SOF bytes 1 to 7 (R137). -/
def fKind (f : Frame) : Nat := byteAt f.sof 0 / 16
def fHolder (f : Frame) : Bool := nbit (byteAt f.sof 0) 3
def fEpoch (f : Frame) : Nat := byteAt f.sof 1
def fPeriod (f : Frame) : Nat := fieldAt f.sof 2 4
def fDir (f : Frame) : Bool := nbit (byteAt f.sof 6) 7
def fOrigin (f : Frame) : Bool := nbit (byteAt f.sof 6) 6
def fNslots (f : Frame) : Nat := byteAt f.sof 6 % 16

/-- A frame is bad when FCRC is wrong, NBLK differs from the blocks received, or a block was lost inside it (R140). NBLK has eight bits: a
longer frame of the twin link counts modulo 256. -/
def fBad (f : Frame) : Bool :=
  f.lost || f.fcrc.toNat != crc32 (f.sof ++ f.data) || f.data.length % 8 != 0 || f.nblk.toNat != f.data.length / 8 % 256

/-- The newest epoch seen on a ring port or the twin link; a unit that does not hold command uses it in its frames (R137, R420). Another HOLDER
under a newer epoch makes a holder yield (R423). -/
def Dev.seeEpoch (f : Frame) (d : Dev) : Dev :=
  let past := (fEpoch f + 256 - d.fld Reg.TWIN_STAT 16 8) % 256
  let d : Dev := if !fBad f && d.role == 2 && fHolder f != d.twinId && 1 ≤ past && past ≤ 127 then d.putTwin { d.twin with yieldDue := true } else d
  let ahead := (fEpoch f + 256 - d.twin.seen) % 256
  if fBad f || ahead == 0 || 127 < ahead then d
  else
    let d : Dev := d.putTwin { d.twin with seen := fEpoch f }
    if d.role == 1 || d.role == 3 || d.role == 4 then d.setF Reg.TWIN_STAT 16 8 (fEpoch f) else d

/-- A link event. -/
def Dev.linkEvt (p i : Nat) (d : Dev) : Dev := d.setB (Reg.RING_LINK_EVT p) i true

/-- A SERVICE request from this device to a node: header, payload padded to whole blocks, and a zeroed reply area, in a gap that holds it
(R29, R169). -/
def Dev.svcRequest (p target op rlen addr : Nat) (payload : List Byte) (d : Dev) : Dev :=
  let tag := (d.port p).svcTag
  let pad := List.replicate ((8 - payload.length % 8) % 8) (0 : Byte)
  let hdr := [BitVec.ofNat 8 target, BitVec.ofNat 8 op, tag, BitVec.ofNat 8 rlen] ++ beBytes 2 addr ++ beBytes 2 payload.length
  (d.setPort p fun q => { q with svcTag := q.svcTag + 1 }).svcSend p (hdr ++ payload ++ pad ++ List.replicate (8 * rlen) 0)

/-- The upstream record of a slot with the bytes from 2 + LEN to 21 read as zero (R146). -/
def recClean (r : List Byte) : List Byte :=
  let n := 2 + byteAt r 1
  r.take n ++ List.replicate (22 - n) 0 ++ (r.drop 22).take 2

/-- What becomes of an upstream slot of a frame for a position (R145 to R147): 0 accepted, 1 no record (a placeholder), 2 refused for
LEN, 3 refused otherwise. -/
def recCheck (f : Frame) (pos : Nat) (r : List Byte) : Nat :=
  if r.length != 24 then 3
  else if byteAt r 0 % 16 == 0 then 1
  else if fieldAt r 22 2 != crc16 (f.sof.take 6 ++ r.take 22) then 3
  else if byteAt r 0 % 16 != 1 || byteAt r 0 / 16 != pos || byteAt r 17 != (fPeriod f) % 256 then 3
  else if byteAt r 1 < 16 || 20 < byteAt r 1 then 2
  else 0

/-- An accepted record enters the filling image; a later copy that differs in any byte is counted (R147). CELL_STAT and CELL_SEEN
show it (R181). -/
def Dev.acceptRec (p c : Nat) (f : Frame) (r : List Byte) (repoll : Bool) (d : Dev) : Dev :=
  let r := recClean r
  if (d.cell c).acc then (if (d.cell c).fill == r then d else d.inc (Reg.RING_CNT_MISM p) 32)
  else
    let d := if repoll then d.inc (Reg.RING_CNT_RPOK p) 32 else d
    let d := d.setCell c fun x => { x with acc := true, fill := r, age := 0 }
    let d := d.setF (Reg.CELL_STAT c) 16 8 (byteAt r 15)
    let d := d.setF (Reg.CELL_STAT c) 8 3 (byteAt r 14 % 8)
    let d := d.setF (Reg.CELL_STAT c) 11 5 (byteAt r 14 / 8)
    let d := d.setF (Reg.CELL_STAT c) 4 4 0
    d.wr (Reg.CELL_SEEN c) (BitVec.ofNat 32 (fPeriod f))

/-- One slot of a COLLECT or REPOLL copy. `open'` says that the window up to ENG_START of the record's period is open (R23, R24). -/
def Dev.takeSlot (p : Nat) (f : Frame) (open' repoll : Bool) (pos : Nat) (r : List Byte) (d : Dev) : Dev :=
  match recCheck f pos r with
  | 1 => d
  | 2 => d.inc (Reg.RING_CNT_RLEN p) 32
  | 3 => d.inc (Reg.RING_CNT_RCRC p) 32
  | _ =>
    if !open' then d.inc (Reg.RING_CNT_LATE p) 32
    else match d.cellAt (d.ringOf p) pos with
      | none => d
      | some c => d.acceptRec p c f r repoll

/-- The window for records of a frame's period is open: it is the period in progress and its ENG_START has not occurred (R23, R24); in a
period without ENG_START (R536) it stays open. -/
def Dev.recOpen (d : Dev) (f : Frame) : Bool := d.tb.inPeriod && !d.tb.engPast && (fPeriod f) == d.tb.k

/-- The slack registers and the flags of R34 and R154, from H_r and the staged phases. t_twin sums F_M over the ports in RUN at the calibration
with a ring number up to the port's (R33; DESIGN CHOICE, notes/assumptions/102). -/
def Dev.ringSlacks (p : Nat) (d : Dev) : Dev :=
  let n := d.nslot p
  let h80 : Int := 5 * (d.rd (Reg.RING_HR p)).toNat
  let tb : Int := d.tBlk80 p
  let eng : Int := 80 * (10 * d.fld Reg.TIME_PHASES 0 16 : Nat)
  let out : Int := 80 * (10 * d.fld Reg.TIME_PHASES 16 16 : Nat)
  let twin : Int :=
    if d.bit (Reg.RING_LINK_CTL p) 31 then 0
    else 80 * (d.rd Reg.TWIN_TL).toNat / 16 +
      256 * (List.range 24).foldl (fun s q => if d.inRun q && decide (d.ringOf q ≤ d.ringOf p) then s + 2 + 2 * d.nslot q else s) 0
  let sc := eng - (80 * 40 + h80 + (3 + 3 * n) * tb + 80 * 60)
  let sm := 80 * d.tb.tP - (out + 80 * 600 + 80 * 40 + h80 + (2 + 2 * n) * tb + 80 * 500 + twin)
  let sw := eng - (80 * 40 + 2 * h80 + (3 + 3 * n) * tb + 80 * 60)
  let d := ((d.wr (Reg.RING_SLACK_C p) (wordI (sc / 5))).wr (Reg.RING_SLACK_M p) (wordI (sm / 5))).wr (Reg.RING_SLACK_W p) (wordI (sw / 5))
  let d := if sc < 0 || sm < 0 then d.linkEvt p 0 else d
  let d := if sw < 0 then d.linkEvt p 1 else d
  d.setB (Reg.RING_LINK_STAT p) 4 (decide (sc < 0) || decide (sm < 0) || decide (sw < 0))

/-- The record deadline of position `i` from the end of port `q`, in 1/80 ns (R158). -/
def Dev.deadline (d : Dev) (q i : Nat) : Option Nat :=
  let o := d.rd (Reg.RING_OFS q (i - 1))
  if o.getLsbD 31 then
    let j := if d.endB q then i - 1 else d.nslot q - i
    some (5 * fieldOf o 0 24 + (2 + 3 * j) * d.tBlk80 q)
  else none

/-- Bit i - 1 of RING_REC_EARLY: the earlier deadline is less than T_REC of the node (R158). -/
def Dev.recEarly (p i : Nat) (d : Dev) : Dev :=
  match d.cellAt (d.ringOf p) i with
  | none => d
  | some c =>
    let tRec := 80 * d.fld (Reg.CELL_DESC c 11) 0 16
    let ea := d.deadline p i
    let eb := (d.partner p).bind fun q => d.deadline q i
    let e := match ea, eb with | some a, some b => some (min a b) | some a, none => some a | none, b => b
    match e with
    | none => d
    | some e =>
      let was := d.bit (Reg.RING_REC_EARLY p) (i - 1)
      let d := d.setB (Reg.RING_REC_EARLY p) (i - 1) (decide (e < tRec))
      if !was && decide (e < tRec) then d.linkEvt p 8 else d

/-- One position of a calibration: the new offset, and its write to the node with OFS_APPLY four periods on (R156 to R158). -/
def Dev.calPosition (p i : Nat) (d : Dev) : Dev :=
  let n := SMap.getD (d.port p).calN 0 i
  if n == 0 then d else
  let want : Int := 640 + rnd (SMap.getD (d.port p).calSum 0 i : Nat) (2 * n : Nat)
  let d := d.setPort p fun q => { q with meas := SMap.put q.meas 0 i want.toNat }
  let o := d.rd (Reg.RING_OFS p (i - 1))
  let cur : Int := fieldOf o 0 24
  let diff := want - cur
  let d := if o.getLsbD 31 && (80 < diff || diff < -80) then d.linkEvt p 3 else d
  let val : Option Int :=
    if !o.getLsbD 31 then some want
    else if 4 ≤ diff || diff ≤ -4 then some (cur + clampI (-16) 16 diff)
    else none
  let d := match val with
    | none => d
    | some x =>
      let d := d.wr (Reg.RING_OFS p (i - 1)) (BitVec.ofNat 32 (low 24 x + 2 ^ 31))
      let d := d.svcRequest p i 4 1 (if d.endB p then 0x0108 else 0x0104) (beBytes 4 (low 24 x + 2 ^ 31))
      d.svcRequest p i 4 1 0x010C (beBytes 4 (d.tb.k + 4))
  -- the solo check of both ends' measured F against H_r, with CUT of the node's descriptor
  match d.partner p, d.cellAt (d.ringOf p) i with
  | some q, some c =>
    let mq := SMap.getD (d.port q).meas 0 i
    let cut : Int := if d.bit (Reg.RING_CTL p) 1 then d.fld (Reg.CELL_DESC c 10) 16 16 else d.fld (Reg.CELL_DESC c 10) 0 16
    let e := want - 640 + cut + ((mq : Int) - 640) - (d.rd (Reg.RING_HR p)).toNat
    if mq != 0 && (d.cell c).disc && (32 < e || e < -32) then d.linkEvt p 4 else d
  | _, _ => d

/-- The parameters every node is given at ring start: TIME_HI and T_P (R135, R156 step 2). -/
def Dev.startWrites (p : Nat) (d : Dev) : Dev :=
  (d.svcRequest p 0 4 0 0x0100 (beBytes 4 (d.tb.bnd / 2 ^ 48))).svcRequest p 0 4 0 0x0110 (beBytes 4 d.tb.tP)

/-! ### Commands -/

/-- LINK_RUN_START (R131): READY to RUN; a port whose partner end does not run works its ring alone. The other unit's end of a twin is taken
to run while its TIME or COLLECT arrives (DEDUCED, notes/assumptions/103). -/
def linkRunStart (p : Nat) (d : Dev) : Dev :=
  if !(d.bit (Reg.RING_LINK_CTL p) 0 && d.lstate p == 3 && d.fld Reg.SYS_STAGE 0 2 == 3 && d.bit Reg.SYS_READY 9) then d else
  let d := (d.setLstate p 4).setB (Reg.RING_LINK_STAT p) 0 true
  let d := d.setPort p fun q =>
    { q with runSince := 0, startDone := false, calSum := [], calN := [], hrSum := 0, hrN := 0, calDue := 0, calP := 0, applyLeft := none, discAgo := none }
  let alone := match d.partner p with | some q => !d.inRun q | none => !(d.port p).farSeen
  let d := if alone then (d.setB (Reg.RING_LINK_STAT p) 1 true).linkEvt p 9 else d
  match d.partner p with
  | some q => if d.inRun q then d.setB (Reg.RING_LINK_STAT q) 1 false else d
  | none => d

/-- TIME_BLOCK_RECEIVED (R133, R156): the incoming transit of the far end's TIME blocks, mean of 16 from P0 + 1 to P0 + 16 of a ring start. -/
def timeBlockReceived (p : Nat) (payload : BitVec 64) (stamp16 : Nat) (wrapped : Bool) (d : Dev) : Dev :=
  let bs := payloadBytes payload
  if byteAt bs 0 != 0x33 || (bs.drop 7).headD 0 != crc8 (bs.take 7) then d.inc (Reg.RING_CNT_TYPE p) 32
  else if wrapped then (if d.inRun p then d.setPort p fun q => { q with wrapped := true } else d)
  else
    let d := d.setPort p fun q => { q with farSeen := true }
    if !d.inRun p || (d.port p).runSince < 2 || 17 < (d.port p).runSince || 16 ≤ (d.port p).hrN || stamp16 < 16 * d.tb.bnd + 640 then d
    else d.setPort p fun q => { q with hrSum := q.hrSum + (stamp16 - 16 * d.tb.bnd - 640), hrN := q.hrN + 1 }

/-- PROBE_REPLY_RECEIVED (R133, R157): RT - TURN of a reply to this end's request. -/
def probeReplyReceived (p : Nat) (payload : BitVec 64) (rt16 : Nat) (d : Dev) : Dev :=
  let bs := payloadBytes payload
  if byteAt bs 0 != 0x4B || (bs.drop 7).headD 0 != crc8 (bs.take 7) then d.inc (Reg.RING_CNT_TYPE p) 32
  else
    let i := byteAt bs 1 % 16; let turn := fieldAt bs 3 3
    if !d.inRun p || !nbit (byteAt bs 1) 7 || nbit (byteAt bs 1) 6 != d.endB p || i == 0 || 12 < i ||
        byteAt bs 2 != (d.port p).pseq.toNat || rt16 < turn then d
    else d.setPort p fun q =>
      { q with calSum := SMap.put q.calSum 0 i (SMap.getD q.calSum 0 i + (rt16 - turn)), calN := SMap.put q.calN 0 i (SMap.getD q.calN 0 i + 1) }

/-- A copy with the port's own DIR and ORIGIN is a wrapped one (R153); one of the other unit tells that its end runs (R131). -/
def Dev.copyIn (p : Nat) (f : Frame) (d : Dev) : Dev :=
  d.setPort p fun q => { q with
    wrapped := q.wrapped || (fDir f == d.endB p && fOrigin f == d.twinId), farSeen := q.farSeen || (fOrigin f != d.twinId && !fBad f) }

/-- COLLECT_FRAME_RECEIVED (R139, R140, R147, R153): every slot is judged, in slot order; DIR 0 slot j holds position NSLOT - j, DIR 1
slot j position j + 1. -/
def collectFrameReceived (p : Nat) (f : Frame) (d : Dev) : Dev :=
  let n := (fNslots f)
  if (fKind f) != 1 || n == 0 || 12 < n then d else
  let d := (if (fBad f) then d.inc (Reg.RING_CNT_FCRC p) 32 else d).seeEpoch f
  let d := d.copyIn p f
  let op := d.recOpen f
  forN n (fun j d => d.takeSlot p f op false (if (fDir f) then j + 1 else n - j) ((f.data.drop (24 * j)).take 24)) d

/-- The position a REPOLL slot was pre-filled with may be one of these: those of the REPOLLs of the frame's period and length (R147). -/
def Dev.slotAsked (d : Dev) (p : Nat) (f : Frame) (j : Nat) : List Nat :=
  (d.port p).asked.filterMap fun a =>
    if a.1 == fPeriod f && a.2.length == fNslots f then (if fDir f then a.2.reverse else a.2)[j]? else none

/-- REPOLL_FRAME_RECEIVED (R147, R166). A record counts as in its slot where the slot was pre-filled with its POS. -/
def repollFrameReceived (p : Nat) (f : Frame) (d : Dev) : Dev :=
  let n := (fNslots f)
  if (fKind f) != 4 || n == 0 || 12 < n then d else
  let d := (if (fBad f) then d.inc (Reg.RING_CNT_FCRC p) 32 else d).seeEpoch f
  let d := d.copyIn p f
  let op := d.recOpen f
  forN n (fun j d =>
    let r := (f.data.drop (24 * j)).take 24
    let l := d.slotAsked p f j
    d.takeSlot p f op true (if l.contains (byteAt r 0 / 16) then byteAt r 0 / 16 else l.headD 0) r) d

/-- A later calibration of a port has been asked for, or has fallen due; it runs from the next boundary on (R156). -/
def Dev.calWanted (d : Dev) (p : Nat) : Bool :=
  let int := d.fld (Reg.RING_CAL p) 0 16
  (d.port p).calReq || (int != 0 && decide (int ≤ (d.port p).calDue))

/-- RING_CALIBRATION (R34, R154, R156 to R158), in the period behind the 16 of its round trips: of a ring start in P0 + 33, of a later one 17
boundaries after it began. One that falls due during a ring start waits for it. -/
def ringCalibration (p : Nat) (d : Dev) : Dev :=
  let q := d.port p
  let due := if q.startDone then d.calWanted p && decide (17 ≤ q.calP) else decide (34 ≤ q.runSince)
  if !d.inRun p || !due then d else
  let d := if q.startDone || q.hrN == 0 then d else d.wr (Reg.RING_HR p) (wordI (rnd q.hrSum q.hrN))
  let d := forN (d.nslot p) (fun i d => d.calPosition p (i + 1)) d
  let d := d.ringSlacks p
  let d := forN (d.nslot p) (fun i d => d.recEarly p (i + 1)) d
  let d := (d.setB (Reg.RING_LINK_STAT p) 2 true).linkEvt p 2
  let waits := !q.startDone && d.calWanted p
  d.setPort p fun q => { q with
    startDone := true, calReq := q.calReq && waits, calDue := if waits then q.calDue else 0, calP := 0, calSum := [], calN := [], hrSum := 0,
    hrN := if q.startDone then q.hrN else 16, applyLeft := if q.startDone then q.applyLeft else some 4 }

/-- CAL_START, a write of RING_CAL (R156). -/
def calStart (p : Nat) (v : Word) (d : Dev) : Dev :=
  let d := d.wr (Reg.RING_CAL p) (BitVec.ofNat 32 (fieldOf v 0 16 + max 1 (fieldOf v 20 4) * 2 ^ 20))
  if v.getLsbD 16 then d.setPort p fun q => { q with calReq := true } else d

/-- DISCOVER_LAUNCH (R156 step 1, R169, R172): RLEN 25, TARGET 0, hop count 0; due at the ring start and after every DISC_INT periods, in a
gap that holds its 28 blocks. A new round has derived no position yet where its copy arrives. -/
def discoverLaunch (p : Nat) (d : Dev) : Dev :=
  let int := d.fld (Reg.RING_SVC p) 16 16
  let due := match (d.port p).discAgo with
    | none => true
    | some n => int != 0 && decide (int ≤ n)
  if !d.inRun p || !due || !(d.port p).svcWait.isEmpty || !d.gapFits p 28 then d else
  let d := d.setPort ((d.partner p).getD p) fun q => { q with derived := [], asgn := [] }
  (d.svcRequest p 0 1 25 0 []).setPort p fun q => { q with discAgo := some 0 }

/-- The cell mapped to a position needs its descriptor anew. -/
def Dev.forget (p i : Nat) (d : Dev) : Dev :=
  match d.cellAt (d.ringOf p) i with
  | none => d
  | some c => d.setCell c fun x => { x with disc := false }

/-- The descriptor of a position is read (R174). -/
def Dev.readDesc (p i : Nat) (d : Dev) : Dev :=
  (d.svcRequest p i 3 9 0 (beBytes 2 64)).setPort p fun q => { q with readDue := i :: q.readDue.filter (· != i) }

/-- An assigned node at a position of the ring (R156 step 8, R173, R174): its descriptor is read where the copy is not held, in a ring start
after its step 7. -/
def Dev.nodeAt (p i : Nat) (fresh : Bool) (e : List Byte) (d : Dev) : Dev :=
  let d := d.setPort p fun q => { q with found := SMap.put q.found [] i e }
  let d := d.setB (Reg.RING_LINK_STAT p) (15 + i) true
  match d.cellAt (d.ringOf p) i with
  | none => d
  | some c =>
    let b := fieldAt e 4 2
    let x := d.cell c
    let d := d.setCell c fun x => { x with boots := some b, newBoots := x.newBoots || (x.boots.isSome && x.boots != some b) }
    if x.disc && !fresh then d
    else if (d.port p).applyLeft == some 0 then d.readDesc p i
    else d.setPort p fun q => { q with readWait := i :: q.readWait.filter (· != i) }

/-- One entry of a DISCOVER that found a node (R173), with the position derived for it. A node newly found, or with a new BOOTS, raises
NEW_NODE. A node without a position gets the derived one, once in a round; one with another position than derived, with two derivations that
disagree, or beyond NSLOT stays unassigned. Without a derivation a node keeps the position it reports, or waits. -/
def Dev.foundNode (p : Nat) (pos : Option Nat) (e : List Byte) (d : Dev) : Dev :=
  let rep := byteAt e 1
  let uid := (e.drop 8).take 8
  let other := (d.partner p).map d.port
  let clash := match pos, other with | some i, some q => q.derived.any fun x => x.1 == uid && x.2 != i | _, _ => false
  let sent := (d.port p).asgn.contains uid || other.any fun q => q.asgn.contains uid
  let fresh := !(d.port p).nodes.contains (uid, fieldAt e 4 2)
  let d := if fresh then d.linkEvt p 5 else d
  match pos with
  | none => if rep == 0 || 12 < rep then d else d.nodeAt p rep fresh e
  | some i =>
    let d := d.setPort p fun q => { q with derived := (uid, i) :: q.derived }
    if d.nslot p < i || i == 0 || (rep != 0 && rep != i) || clash then d.linkEvt p 7
    else if rep != 0 then d.nodeAt p i fresh e
    else if sent then d
    else (d.svcRequest p 0xFF 2 1 0 (uid ++ [BitVec.ofNat 8 i])).setPort p fun q => { q with asgn := uid :: q.asgn }

/-- A DISCOVER that has come to an end of its ring (R140, R172, R173). From end A a hop is the position; a DISCOVER from end B that
reached end A (`atA`) with N hops places hop h at N + 1 - h, and elsewhere gives no position. FOUND shows the positions of this one. -/
def Dev.discovered (p : Nat) (atA : Bool) (f : Frame) (d : Dev) : Dev :=
  if (fKind f) != 3 || byteAt f.data 1 != 1 then d
  else if (fBad f) then d.inc (Reg.RING_CNT_FCRC p) 32
  else
    let n := byteAt f.data 4
    let cnt := min n 12
    let posOf (h : Nat) : Option Nat := if !(fDir f) then some h else if atA then some (n + 1 - h) else none
    let entry (j : Nat) : List Byte := (f.data.drop (8 + 8 * (2 * j + 1))).take 16
    let before := (d.port p).found
    let d := (d.setF (Reg.RING_LINK_STAT p) 16 12 0).setPort p fun q => { q with found := [], derived := [] }
    let d := forN cnt (fun j d => d.foundNode p (posOf (j + 1)) (entry j)) d
    let d := d.setPort p fun q => { q with nodes := (List.range cnt).map fun j => (((entry j).drop 8).take 8, fieldAt (entry j) 4 2) }
    -- positions found before and not found now
    let seen : List Nat := (List.range cnt).filterMap fun j => posOf (j + 1)
    if (fDir f) && !atA then d
    else forN 12 (fun j d =>
      let i := j + 1
      if (SMap.getD before [] i).isEmpty || seen.contains i then d
      else (d.linkEvt p 6).forget p i) d

/-- RING_TRIP_WRITE (R160): STOP, FREEZE or BYPASS from software, SRC 0xFF; FREEZE and BYPASS are repeated before the next 16 frames.
The TSEQ of a software trip is a free value: the spec gives it no count (DESIGN CHOICE, safe, notes/assumptions/16). -/
def ringTripWrite (p : Nat) (v : Word) (d : Dev) : Dev :=
  let code := fieldOf v 0 8
  if code != 0x5A && code != 0x66 && code != 0x99 then d.linkEvt p 10
  else if !d.inRun p then d
  else
    let b := tripBlock code (fieldOf v 8 4) (b2n d.twinId) (Config.freeNat d.freeCtr % 256) 0xFF
    let d := (d.nextFree).sendTrip p b
    if code == 0x5A then d else d.setPort p fun q => { q with swTrips := q.swTrips ++ [(b, 16)] }

/-- RING_LINK_CTL_WRITE (R180). -/
def ringLinkCtlWrite (p : Nat) (v : Word) (d : Dev) : Dev :=
  let old := d.rd (Reg.RING_LINK_CTL p)
  let v := v &&& 0x9F0F1F03#32
  let clearing := (old ^^^ v) == 1 && !v.getLsbD 0
  if (old.getLsbD 0 && v != old && !clearing) || fieldOf v 16 4 == 0 || 12 < fieldOf v 16 4 || 23 < fieldOf v 8 5 || 23 < fieldOf v 24 5 then
    d.linkEvt p 10
  else
    let d := d.wr (Reg.RING_LINK_CTL p) v
    if clearing && d.inRun p then d.setLstate p 3 else d

/-- CELL_REQ (R176, R178, R181): a request waits for an ENG_START. -/
def cellReq (c : Nat) (v : Word) (d : Dev) : Dev :=
  let st := fieldOf v 0 3
  if v.getLsbD 3 then
    (d.setCell c fun x => { x with unby := true }).setB (Reg.CELL_STAT c) 3 true
  else if st == 0 || st == 2 || st == 3 || st == 4 then
    (d.setCell c fun x => { x with req := some st }).setB (Reg.CELL_STAT c) 3 true
  else d.setB Reg.CELL_ERR 0 true

/-- CELL_MAP_WRITE (R181). -/
def cellMapWrite (c : Nat) (v : Word) (d : Dev) : Dev :=
  let ring := fieldOf v 0 5; let pos := fieldOf v 8 4
  let taken := pos != 0 && cellIds.any fun x => x != c && d.fld (Reg.CELL_MAP x) 8 4 == pos && d.fld (Reg.CELL_MAP x) 0 5 == ring
  if d.cellState c != 0 || taken || 23 < ring || 12 < pos || 5 < fieldOf v 16 3 then d.setB Reg.CELL_ERR 5 true
  else (d.wr (Reg.CELL_MAP c) (v &&& 0x70F1F#32)).setCell c fun x => { x with disc := false }


/-! ### Meanings -/

def execLinkRunStart (port : Fin 24) (s : State) : Host.Outcome State Fault Refusal := run (Dev.inLanes (linkRunStart port)) s
def execTimeBlockReceived (port : Fin 24) (payload : BitVec 64) (stamp16 : Nat) (wrapped : Bool) (s : State) : Host.Outcome State Fault Refusal := run (Dev.inLanes (timeBlockReceived port payload stamp16 wrapped)) s
def execProbeReplyReceived (port : Fin 24) (payload : BitVec 64) (rt16 : Nat) (s : State) : Host.Outcome State Fault Refusal := run (Dev.inLanes (probeReplyReceived port payload rt16)) s
def execCollectFrameReceived (port : Fin 24) (f : Frame) (s : State) : Host.Outcome State Fault Refusal := run (Dev.frameIn port f (collectFrameReceived port)) s
def execRepollFrameReceived (port : Fin 24) (f : Frame) (s : State) : Host.Outcome State Fault Refusal := run (Dev.frameIn port f (repollFrameReceived port)) s
def execCalStart (m : Master) (port : Fin 24) (v : Word) (s : State) : Host.Outcome State Fault Refusal := run (Dev.viaBus m (Reg.RING_CAL port) (calStart port v)) s
def execDiscoverLaunch (port : Fin 24) (s : State) : Host.Outcome State Fault Refusal := run (Dev.inLanes (discoverLaunch port)) s
def execRingTripWrite (m : Master) (port : Fin 24) (v : Word) (s : State) : Host.Outcome State Fault Refusal := run (Dev.viaBus m (Reg.RING_TRIP port) (ringTripWrite port v)) s
def execRingLinkCtlWrite (m : Master) (port : Fin 24) (v : Word) (s : State) : Host.Outcome State Fault Refusal := run (Dev.viaBus m (Reg.RING_LINK_CTL port) (ringLinkCtlWrite port v)) s
def execCellReq (m : Master) (c : Fin 144) (v : Word) (s : State) : Host.Outcome State Fault Refusal := run (Dev.viaBus m (Reg.CELL_REQ c) (cellReq c v)) s
def execCellMapWrite (m : Master) (c : Fin 144) (v : Word) (s : State) : Host.Outcome State Fault Refusal := run (Dev.viaBus m (Reg.CELL_MAP c) (cellMapWrite c v)) s

end Sys2Proof.Machine
end

