-- ==== Sys2Proof/Machine/Time.lean ====
section
/-! DEFINITION. The synthesisers, device time, the servos, the PPS pins (spec/13_clocks_time.md, R430 to R458). -/

namespace Sys2Proof.Machine

/-! ### Time status -/

/-- SRV_STAT.STATE of a servo: 0 IDLE, 1 ACQUIRE, 2 LOCKED, 3 HOLDOVER (R450). -/
def Dev.srvState (d : Dev) (n : Nat) : Nat := d.fld (Reg.SRV_STAT n) 0 2

/-- TIME_STATUS.SRC, and HOLDOVER and SLEWING from it and the servos (R445, R452). -/
def Dev.setSrc (n : Nat) (d : Dev) : Dev :=
  let d := d.setF Reg.TIME_STATUS 0 3 n
  let d := d.setB Reg.TIME_STATUS 4 (n == 3 || n == 4 || (d.tsrv.inUse != 0 && d.srvState (d.tsrv.inUse - 1) == 3))
  d.setB Reg.TIME_STATUS 5 ((d.servo 0).slew || (d.servo 1).slew)

/-- The status again, SRC as it is. -/
def Dev.timeFlags (d : Dev) : Dev := d.setSrc (d.fld Reg.TIME_STATUS 0 3)

/-- PPS_OUT falls at once when VALID clears (R455). -/
def Dev.ppsLow (d : Dev) : Dev := d.putTsrv { d.tsrv with ppsOut := false }

/-- Device time is lost: VALID clears, FLT_TIME_LOSS, PPS_OUT low (R445, R455). -/
def Dev.loseTime (d : Dev) : Dev := (d.setTimeValid false).ppsLow

/-! ### Synthesisers -/

/-- The VCO frequencies between the lowest and the highest spread excursion at a trim in ppb, in kHz times 10^13 (R433, R442). -/
def vcoSpan (sp trim : Nat) : Nat × Nat :=
  let dn := if sp == 1 then 50 else if sp == 2 then 100 else if sp == 3 then 25 else if sp == 4 then 50 else 0
  let up := if sp == 3 then 25 else if sp == 4 then 50 else 0
  let base := 6000000 * (1000000000 + trim)
  (base * (10000 - dn), base * (10000 + up))

/-- The VCO frequencies that the configuration requires, 1000 ppm on either side with them, fit a band entry (R433). -/
def bandFits (e : Word) (sp trim : Nat) : Bool :=
  let (lo, hi) := vcoSpan sp trim
  e.getLsbD 7 && decide (fieldOf e 8 12 * 2000 * (10 ^ 13 * 1000) ≤ lo * 999) && decide (hi * 1001 ≤ fieldOf e 20 12 * 2000 * (10 ^ 13 * 1000))

/-- The limits between which the VCO can be tuned in band `b` at a junction temperature in 1/16 degrees, in kHz / 16 (R527). -/
def bandRange (b : Nat) (t16 : Int) : Int × Int :=
  let lo : Int := 16 * (4700000 + 37500 * b) - 300 * (t16 - 400)
  (max (16 * 4800000) lo, min (16 * 7200000) (lo + 16 * 200000))

/-- The range of the band that SYN0 took at its last re-lock, at the junction temperature that the monitor shows (R527; DESIGN CHOICE,
notes/assumptions/104). -/
def Dev.synRange (d : Dev) : Int × Int := bandRange d.clk.band (sext 16 (d.fld Reg.TMON_TEMP 0 16))

/-- Every excursion of SYN0 lies where its band can be tuned; a broken temperature sensor excludes nothing (R527). -/
def Dev.vcoTunes (d : Dev) : Bool :=
  let (lo, hi) := vcoSpan (d.fld Reg.CLK_STAT 8 3) (d.fld Reg.CLK_TRIM 0 20)
  d.bit Reg.TMON_STAT 1 || (decide (d.synRange.1 * 10 ^ 13 ≤ lo * 16) && decide ((hi : Int) * 16 ≤ d.synRange.2 * 10 ^ 13))

/-- The VCO tuning comes within 10 % of an end of its band, the reference 1000 ppm off at most (R433, R436). -/
def Dev.vcoNearEdge (d : Dev) : Bool :=
  let (lo, hi) := vcoSpan (d.fld Reg.CLK_STAT 8 3) (d.fld Reg.CLK_TRIM 0 20)
  let (bl, bh) := d.synRange
  d.bit Reg.TMON_STAT 1 || decide ((lo : Int) * 999 * 160 < (bl * 9 + bh) * 10 ^ 16) || decide ((bl + bh * 9) * 10 ^ 16 < (hi : Int) * 1001 * 160)

/-- Step 3 of the re-lock of SYN0: the staged selection and spread are taken, the band entry is chosen; without one CFG_ERR and no
lock (R430, R433, R437, R442). -/
def Dev.chooseBand (d : Dev) : Dev :=
  let sp := d.fld Reg.CLK_SYN0 0 3
  let trim := d.fld Reg.CLK_TRIM 0 20
  let d := d.putClk { d.clk with refSel := d.fld Reg.CLK_CTL 0 4 }
  let d := d.setF Reg.CLK_STAT 8 3 sp
  match (List.range 32).find? fun i => bandFits (d.rd (Reg.CLK_BAND i)) sp trim with
  | some i => (d.setF Reg.CLK_STAT 16 5 i).putClk { d.clk with chosen := true, noBand := false, band := d.fld (Reg.CLK_BAND i) 0 6 }
  | none => (d.setB Reg.CLK_EVT 7 true).putClk { d.clk with chosen := true, noBand := true }

/-- The outputs of a synthesiser are gated (R434, R438, R445): LOCK and READY clear; SYN0 leaves the logic on the fallback; without
SYN1 no period is in progress and device time stands still, invalid. -/
def Dev.gateSyn (s : Nat) (d : Dev) : Dev :=
  let d := (d.setB Reg.CLK_STAT s false).setReady (5 + s) false
  if s == 0 then ((d.setB Reg.CLK_STAT 5 true).setB Reg.CLK_STAT 6 (!d.clk.refOk)).setB Reg.CLK_STAT 7 false
  else if s == 1 then
    let d := d.dropPhases
    let d := d.putTb { d.tb with counting := false, inPeriod := false }
    let d := (d.setB Reg.GATE_CAL 0 false).loseTime
    if d.bit Reg.AMB_STATUS 6 then d.timeFlags else d.setSrc 0
  else d

/-- A re-lock is triggered (R437). -/
def Dev.trigRelock (s : Nat) (d : Dev) : Dev :=
  d.putClk { d.clk with busy := d.clk.busy ||| (1#3 <<< s), chosen := d.clk.chosen && s != 0 }

/-- Loss of lock of a synthesiser that is locked (R434, R439). -/
def Dev.unlockSyn (s : Nat) (d : Dev) : Dev :=
  let d := (d.gateSyn s).setB Reg.CLK_EVT s true
  d.setF Reg.CLK_CNT_UNLOCK (8 * s) 8 (min 255 (d.fld Reg.CLK_CNT_UNLOCK (8 * s) 8 + 1))

/-- REF_LOST (R431, R434, R438, R439). -/
def refLost (d : Dev) : Dev :=
  if !d.pwr.safeOn || d.clk.refLost then d else
  let d := d.putClk { d.clk with refOk := false, refLost := true }
  let d := (d.setB Reg.CLK_STAT 3 false).setB Reg.CLK_EVT 3 true
  let hit := (List.range 3).any fun s => d.synInUse s && d.bit Reg.CLK_STAT s
  let d := forN 3 (fun s d => if d.bit Reg.CLK_STAT s then d.unlockSyn s else d) d
  let d := if d.bit Reg.CLK_STAT 5 then d.setB Reg.CLK_STAT 6 true else d
  if hit then d.raise 88 else d

/-- REF_BACK (R431, R437): REF_OK is set and all three synthesisers start their re-lock. -/
def refBack (d : Dev) : Dev :=
  if !d.pwr.safeOn || d.clk.refOk then d else
  let was := d.clk.refLost
  let d := d.putClk { d.clk with refOk := true, refLost := false }
  let d := ((d.setB Reg.CLK_STAT 3 true).setB Reg.CLK_EVT 4 true).setB Reg.CLK_STAT 6 false
  if was then forN 3 (fun s d => d.trigRelock s) d else d

/-- SYN_UNLOCK (R434, R437, R439). -/
def synUnlock (s : Nat) (d : Dev) : Dev :=
  if !d.bit Reg.CLK_STAT s then d else
  let d := (d.unlockSyn s).trigRelock s
  if d.synInUse s then d.raise 88 else d

/-- RELOCK (R437): the outputs are gated; SYN0 takes what is staged and its band entry. -/
def relock (s : Nat) (d : Dev) : Dev :=
  if !d.clk.busy.getLsbD s then d else
  let d := if d.bit Reg.CLK_STAT s then d.gateSyn s else d
  if s == 0 then d.chooseBand else d

/-- Device time as SYN1 locks: loaded from the holdover count where it is valid, else not valid (R74, R445). Boundaries follow at the
grid points from there on (R14). -/
def Dev.loadTime (d : Dev) : Dev :=
  let d := d.putTb { d.tb with counting := true, notBefore := (d.tb.dt + 2 ^ 48 - 1) / 2 ^ 48 }
  if d.bit Reg.AMB_STATUS 6 then
    let dt := d.amb.hold * 2 ^ 32
    let d := d.putTb { d.tb with dt := dt, notBefore := (dt + 2 ^ 48 - 1) / 2 ^ 48 }
    (d.setTimeValid true).setSrc 3
  else d.setSrc 0

/-- SYN_LOCK (R433, R434, R437, R441, R527): SYN0 locks only on a band entry whose band reaches its frequencies, and with LOCKF_EN set only with LOCKF_OK, which its lock
brings about at the pin. -/
def synLock (s : Nat) (d : Dev) : Dev :=
  if !d.pwr.safeOn || d.clk.refLost || d.bit Reg.CLK_STAT s then d else
  let d := if s == 0 && !d.clk.chosen then (if d.clk.busy.getLsbD 0 then d else d.chooseBand) else d
  if s == 0 && (!d.clk.chosen || d.clk.noBand || !d.vcoTunes) then d else
  let d := d.setB Reg.CLK_STAT s true
  if s == 0 then
    let d := d.setB Reg.CLK_STAT 4 true
    if d.clk.busy.getLsbD 0 then d else d.setReady 5 true
  else
    let d := (d.setReady (5 + s) true).putClk { d.clk with busy := d.clk.busy &&& ~~~(1#3 <<< s) }
    if s == 1 then d.loadTime else d

/-- RELOCK_DONE (R437): the system logic moves back to SYN0. -/
def relockDone (d : Dev) : Dev :=
  if !(d.clk.busy.getLsbD 0 && d.bit Reg.CLK_STAT 0) then d else
  let d := d.putClk { d.clk with busy := d.clk.busy &&& ~~~1#3 }
  ((((d.setB Reg.CLK_STAT 5 false).setB Reg.CLK_STAT 6 false).setReady 5 true)).setB Reg.CLK_EVT 5 true

/-- CLK_RELOCK_GO, a write of CLK_RELOCK (R437, R440). The re-lock takes the lock away, so FLT_PLL_UNLOCK becomes active (R439). -/
def clkRelockGo (v : Word) (d : Dev) : Dev :=
  if fieldOf v 16 16 != 0x5C0C || !v.getLsbD 0 then d
  else if d.atmRuns then d.setB Reg.CLK_EVT 7 true
  else
    let had := d.bit Reg.CLK_STAT 0
    let d := (if had then d.gateSyn 0 else d).trigRelock 0
    if had then d.raise 88 else d

/-- CLK_TRIM_WRITE (R436): at most 1,000,000 ppb, followed without loss of lock. -/
def clkTrimWrite (v : Word) (d : Dev) : Dev :=
  if 1000000 < fieldOf v 0 20 then d.setB Reg.CLK_EVT 7 true else d.genWrite Reg.CLK_TRIM v

/-- A write of CLK_CTL: REF_FREQ 5 to 7 is refused (R457). -/
def clkCtlWrite (v : Word) (d : Dev) : Dev :=
  if 4 < fieldOf v 1 3 then d.setB Reg.CLK_EVT 7 true else d.genWrite Reg.CLK_CTL v

/-- A write of CLK_SYN0: SPREAD 5 to 7 is refused (R442). -/
def clkSyn0Write (v : Word) (d : Dev) : Dev :=
  if 4 < fieldOf v 0 3 then d.setB Reg.CLK_EVT 7 true else d.genWrite Reg.CLK_SYN0 v

/-- LOCKF_CLEAR (R441): LOCKF falls below 0.6 V. -/
def lockfClear (d : Dev) : Dev :=
  let d := d.setB Reg.CLK_STAT 4 false
  if d.bit Reg.CLK_CTL 4 then synUnlock 0 d else d

/-- BAND_EDGE (R433, R527). -/
def bandEdge (d : Dev) : Dev :=
  if d.bit Reg.CLK_STAT 0 && d.vcoNearEdge then (d.setB Reg.CLK_STAT 7 true).setB Reg.CLK_EVT 6 true else d

/-! ### Steps of device time -/

/-- The conditions on a step by `s` (2^-16 ns) at the boundary `b` (R446). -/
def Dev.stepOk (s : Int) (b : Nat) (d : Dev) : Bool :=
  let t : Int := (b : Int) * 65536 + s
  d.bit Reg.TIME_CTL 0 && !d.atmRuns && decide (0 ≤ t) && decide (t < 2 ^ 80) &&
    (!d.anyRun || decide (t.toNat / 2 ^ 64 = b / 2 ^ 48))

/-- Instants that are kept as device time move with a jump of `s` ns, so that what runs from them lasts as long as before. -/
def Dev.shiftTimes (s : Int) (d : Dev) : Dev :=
  let f (t : Nat) : Nat := ((t : Int) + s).toNat
  let d : Dev := d.putGates (d.gates.map fun e => (e.1, { e.2 with hiOff := e.2.hiOff.map f, loOff := e.2.loOff.map f, onAt := f e.2.onAt, cutAt := f e.2.cutAt, offAt := e.2.offAt.map f }))
  let d : Dev := d.putAtm { d.atm with legs := d.atm.legs.map fun e => (e.1, { e.2 with lastLd := 0, last := none }) }
  let d : Dev := d.putPorts (d.ports.map fun e => (e.1, { e.2 with busyTo := ((e.2.busyTo : Int) + 80 * s).toNat }))
  let d : Dev := d.putAdcs (d.adcs.map fun e => (e.1, { e.2 with
    commitAt := f e.2.commitAt, dlyTo := f e.2.dlyTo, lastS := f e.2.lastS, runFrom := f e.2.runFrom, trigAt := f e.2.trigAt, startAt := f e.2.startAt,
    calAt := f e.2.calAt, plausAt := f e.2.plausAt, bgAt := e.2.bgAt.map (fun x => (x.1, f x.2)), inj := e.2.inj.map (fun r => (r.1, r.2.1, f r.2.2)),
    plaus := e.2.plaus.map (fun p => (p.1, f p.2)) }))
  let d : Dev := d.putTsrv { d.tsrv with ppsLast := d.tsrv.ppsLast.map f, ppsFall := f d.tsrv.ppsFall, ppsNext := f d.tsrv.ppsNext, ppsWait := f d.tsrv.ppsWait }
  let d : Dev := d.putTwin { d.twin with blkAt := f d.twin.blkAt, sbyAt := f d.twin.sbyAt, claimAt := d.twin.claimAt.map f }
  let d : Dev := forN 2 (fun n d => d.setServo n fun x => { x with lastAt := f x.lastAt }) d
  let d : Dev := d.putNet { d.net with macs := d.net.macs.map fun e => (e.1, e.2.1, e.2.2.1, f e.2.2.2) }
  let d : Dev := d.putAtm { d.atm with syncEnd := f d.atm.syncEnd, syncNext := f d.atm.syncNext, syncSeen := f d.atm.syncSeen }
  d.putMet { d.met with pend := d.met.pend.map (fun e => (e.1, f e.2)), lastT := f d.met.lastT, bin := f (40000 * d.met.bin) / 40000, crossT := f d.met.crossT, okFrom := d.met.okFrom.map f, stopAt := f d.met.stopAt, imgAt := f d.met.imgAt, unlock := d.met.unlock.map f }

/-- A waiting step of a servo that is given up is slewed (R446, R452). -/
def Dev.stepGiveUp (d : Dev) : Dev :=
  match d.tb.stepSrv with
  | some n => ((d.putTb { d.tb with stepPend := none, stepSrv := none }).setServo n fun x => { x with slew := true }).timeFlags
  | none => d.putTb { d.tb with stepPend := none }

/-- A write of TIME_CMD: STEP (R446) and SET (R448). -/
def timeCmd (v : Word) (d : Dev) : Dev :=
  if fieldOf v 16 16 != 0x7153 then d
  else if v.getLsbD 0 && v.getLsbD 1 then d.setB Reg.TIME_EVT 6 true
  else if v.getLsbD 0 then
    let s := sext 64 (d.pair Reg.TIME_STEP_LO Reg.TIME_STEP_HI) * 65536
    if d.stepOk s d.nextBoundary then
      let d := d.stepGiveUp
      d.putTb { d.tb with stepPend := some s, stepSrv := none }
    else d.setB Reg.TIME_STATUS 10 true
  else if v.getLsbD 1 then
    if d.bit Reg.SYS_READY 9 || !d.tb.counting then d.setB Reg.TIME_STATUS 10 true
    else
      let t := d.pair Reg.TIME_STEP_LO Reg.TIME_STEP_HI
      let d := d.shiftTimes ((t : Int) - d.now)
      let d := d.dropPhases
      let d := d.putTb { d.tb with dt := t * 2 ^ 48, notBefore := t + 10000 }
      (d.setTimeValid true).setSrc 4
  else d

/-! ### Servos -/

/-- log2 of S. -/
def Dev.logint (d : Dev) (n : Nat) : Int := sext 4 (d.fld (Reg.SRV_CTL n) 16 4)

/-- A quantity divided by S, times 2^7: `v * 2^(7 - L)` with -7 ≤ L ≤ 4. -/
def divS (l v : Int) : Int := v * 2 ^ (7 - l).toNat

/-- TIME_RATE from u in 2^-39 ppb, clamped to SLEW_MAX, which its rounding does not pass; in use only (R20, R444). -/
def Dev.setRate (n : Nat) (u39 : Int) (d : Dev) : Dev :=
  if d.tsrv.inUse != n + 1 then d else
  let mx : Int := d.fld Reg.TIME_SLEW 0 10 * 1000 * 2 ^ 39
  let top : Int := mx * 2 / 1000000000
  d.wr Reg.TIME_RATE (wordI (clampI (-top) top (rnd (clampI (-mx) mx u39 * 2) 1000000000)))

/-- The held frequency -i / S in 2^-39 ppb. -/
def Dev.heldU (d : Dev) (n : Nat) : Int := -(divS (d.logint n) (d.servo n).integ)

/-- SRV_FREQ: -i / S in 1/1024 ppb. -/
def Dev.showFreq (n : Nat) (d : Dev) : Dev := d.wr (Reg.SRV_FREQ n) (wordI (rnd (d.heldU n) (2 ^ 29)))

/-- The update of R449: integrator, u, clamp. With `frozen`, the integrator stays (R452). -/
def Dev.servoUpdate (n : Nat) (x : Int) (frozen : Bool) (d : Dev) : Dev :=
  let i := (d.servo n).integ
  let i' := if frozen then i else i + d.fld (Reg.SRV_GAIN n) 16 16 * x
  let u := -(divS (d.logint n) (d.fld (Reg.SRV_GAIN n) 0 16 * x + i'))
  let mx : Int := d.fld Reg.TIME_SLEW 0 10 * 1000 * 2 ^ 39
  let beyond := decide (mx < u) || decide (u < -mx)
  let d := d.setServo n fun s => { s with integ := if beyond then i else i' }
  (d.setRate n u).showFreq n

/-- A servo enters LOCKED: TIME_EVT.LOCKED, and where it is in use SRC 1 or 2 and VALID (R445, R450). -/
def Dev.enterLocked (n : Nat) (d : Dev) : Dev :=
  let d := ((d.setF (Reg.SRV_STAT n) 0 2 2).setF (Reg.SRV_STAT n) 4 4 0).setB Reg.TIME_EVT 2 true
  if d.tsrv.inUse == n + 1 && d.tb.counting then (d.setTimeValid true).setSrc (n + 1) else d.timeFlags

/-- STEP_TH in 2^-16 ns. -/
def Dev.stepTh (d : Dev) : Int := d.fld Reg.TIME_SLEW 16 16 * 100 * 65536

/-- What leaving ACQUIRE, or a switch, does with x (R452, R453). -/
def Dev.acquired (n : Nat) (x : Int) (mayStep : Bool) (d : Dev) : Dev :=
  if decide (-(d.stepTh) ≤ x) && decide (x ≤ d.stepTh) then
    ((d.setServo n fun s => { s with slew := false }).enterLocked n).servoUpdate n x true
  else
    let d := d.setB Reg.TIME_EVT 4 true
    if d.tsrv.inUse == n + 1 && mayStep && d.stepOk (-x) d.nextBoundary then
      let d := d.stepGiveUp
      (d.putTb { d.tb with stepPend := some (-x), stepSrv := some n }).enterLocked n
    else
      let d := if d.tsrv.inUse == n + 1 && mayStep then d.setB Reg.TIME_STATUS 10 true else d
      ((d.setServo n fun s => { s with slew := true }).enterLocked n).servoUpdate n x true

/-- A switch takes effect at an accepted sample of the new servo (R453). -/
def Dev.switchTo (n : Nat) (d : Dev) : Dev :=
  let old := d.tsrv.inUse
  let d := if old == 0 then d else
    let l := d.logint n - d.logint (old - 1)
    let add := (d.servo (old - 1)).integ * 2 ^ (l + 11).toNat / 2 ^ 11
    d.setServo n fun s => { s with integ := s.integ + add, noStep := true }
  let d := d.putTsrv { d.tsrv with inUse := n + 1, pendSel := none }
  d.setB Reg.TIME_EVT 3 true

/-- A servo enters HOLDOVER (R445, R450, R451). -/
def Dev.enterHoldover (n : Nat) (d : Dev) : Dev :=
  let d := (d.setF (Reg.SRV_STAT n) 0 2 3).setServo n fun s => { s with slew := false, rej := 0 }
  if d.tsrv.inUse != n + 1 then d.timeFlags else
  let d := (d.setB Reg.TIME_EVT 1 true).setRate n (d.heldU n)
  if d.bit Reg.TIME_CTL 3 && d.srvState (1 - n) == 2 then
    (d.putTsrv { d.tsrv with pendSel := some (2 - n) }).timeFlags
  else if d.bit Reg.SYS_READY 9 then d.setSrc 4 else d.timeFlags

/-- What the device's rate moves the offset by over `k` intervals beyond the held frequency, in 2^-16 ns. -/
def Dev.drift (d : Dev) (n k : Nat) : Int :=
  let rate39 : Int := sext 32 (d.rd Reg.TIME_RATE).toNat * 1000000000 / 2   -- ppb in 2^-39
  let l := d.logint n
  (rate39 - d.heldU n) * 2 ^ (l + 7).toNat * k / 2 ^ 30

/-- A sample of a servo (R449, R450, R452, R453). -/
def Dev.sample (n : Nat) (x : Int) (d : Dev) : Dev :=
  if !d.bit (Reg.SRV_CTL n) 0 then d else
  let st := d.srvState n
  let s := d.servo n
  let dr := d.drift n (s.rej + 1)
  let outl : Int := d.fld (Reg.SRV_OUTL n) 0 16 * 65536
  let xh := s.lastX + dr
  if st == 2 && (decide (outl < x - xh) || decide (x - xh < -outl)) then
    let d := (d.inc (Reg.SRV_CNT_REJ n) 32).setServo n fun s => { s with rej := s.rej + 1 }
    if d.fld (Reg.SRV_OUTL n) 16 4 ≤ s.rej + 1 then d.enterHoldover n else d
  else
    let d := d.wr (Reg.SRV_OFS n) (wordI (clampI (-2147483648) 2147483647 (rnd x 65536)))
    let d := d.setServo n fun s => { s with lastX := x, rej := 0, lastAt := d.now }
    let sw := d.tsrv.pendSel == some (n + 1)
    let d := if sw then d.switchTo n else d
    if st == 2 then
      if sw then d.acquired n x false
      else if (d.servo n).slew && !(decide (-(d.stepTh) ≤ x) && decide (x ≤ d.stepTh)) then d.servoUpdate n x true
      else ((d.setServo n fun s => { s with slew := false }).timeFlags).servoUpdate n x false
    else
      let d := if st == 3 then (d.setF (Reg.SRV_STAT n) 0 2 1).timeFlags else d
      let fresh := st != 1 || s.agree == 0
      let lo := min (s.lo + dr) x
      let hi := max (s.hi + dr) x
      let ok := !fresh && decide (hi - lo ≤ outl)
      let k := if ok then s.agree + 1 else 1
      let d := d.setServo n fun q => { q with agree := k, lo := if ok then lo else x, hi := if ok then hi else x }
      let d := d.setF (Reg.SRV_STAT n) 4 4 k
      if d.fld (Reg.SRV_CTL n) 28 4 ≤ k then
        let st := !(d.servo n).noStep
        (d.setServo n fun q => { q with agree := 0, noStep := false }).acquired n x st
      else d

/-- SERVO_SAMPLE, a write of SRV_SMP_HI: software writes to servo A are ignored and counted while PPS_IN feeds it (R456). -/
def servoSample (n : Nat) (v : Word) (d : Dev) : Dev :=
  if n == 0 && d.bit Reg.TIME_PPS_CTL 1 && d.bit Reg.TIME_PPS_CTL 2 then d.inc (Reg.SRV_CNT_REJ 0) 32
  else d.sample n (sext 64 (v.toNat * 2 ^ 32 + (d.servo n).smpLo.toNat))

/-- SERVO_HOLDOVER (R450): HOLD_N sample intervals of device time without an accepted sample, due where the sequencer has no instant
before their end; while device time stands still, at the sender's word. -/
def servoHoldover (n : Nat) (d : Dev) : Dev :=
  let t := (d.servo n).lastAt + d.fld (Reg.SRV_CTL n) 24 4 * 1000000000 * 2 ^ (d.logint n + 7).toNat / 128
  if d.srvState n != 2 || (d.tb.counting && decide (d.nextSeq < t)) then d
  else (if d.tb.counting then d.advTo t else d).enterHoldover n

/-- A write of SRV_CTL: LOGINT from -7 to 4, HOLD_N and ACQ_N at least 1; EN starts or stops the servo (R450, R458). -/
def srvCtlWrite (n : Nat) (v : Word) (d : Dev) : Dev :=
  let l := sext 4 (fieldOf v 16 4)
  if decide (l < -7) || decide (4 < l) then d.setB Reg.TIME_EVT 6 true else
  let was := d.bit (Reg.SRV_CTL n) 0
  let d := d.genWrite (Reg.SRV_CTL n) (putField (putField v 24 4 (max 1 (fieldOf v 24 4))) 28 4 (max 1 (fieldOf v 28 4)))
  if v.getLsbD 0 == was then d
  else if v.getLsbD 0 then
    (d.wr (Reg.SRV_STAT n) 1).setServo n fun s => { s with agree := 0, rej := 0, slew := false }
  else
    let locked := d.srvState n == 2
    let d := (d.wr (Reg.SRV_STAT n) 0).setServo n fun s => { s with slew := false }
    if d.tsrv.inUse == n + 1 then
      let d := d.wr Reg.TIME_RATE 0
      if locked && d.bit Reg.SYS_READY 9 then d.setSrc 4 else d.timeFlags
    else d.timeFlags

/-- TIME_SEL_WRITE, a write of TIME_CTL (R453): SEL 3 is refused; a change of SEL waits for the new servo's next accepted sample, and
SEL 0 leaves TIME_RATE at 0 (R444). -/
def timeSelWrite (v : Word) (d : Dev) : Dev :=
  let sel := fieldOf v 1 2
  if sel == 3 then d.setB Reg.TIME_EVT 6 true else
  let old := d.fld Reg.TIME_CTL 1 2
  let d := d.genWrite Reg.TIME_CTL v
  if sel == old then d
  else if sel == 0 then
    let d := d.putTsrv { d.tsrv with inUse := 0, pendSel := none }
    let d := d.wr Reg.TIME_RATE 0
    if d.fld Reg.TIME_STATUS 0 3 == 1 || d.fld Reg.TIME_STATUS 0 3 == 2 then d.setSrc 4 else d.timeFlags
  else d.putTsrv { d.tsrv with pendSel := if d.tsrv.inUse == sel then none else some sel }

/-! ### Period parameters -/

/-- ENG_START and OUT_PHASE (in 10 ns) are legal under a T_P (R16). -/
def phasesOk (eng out tP : Nat) : Bool :=
  decide (100 ≤ eng) && decide (10 * eng + 3000 ≤ tP) && decide (eng + 100 ≤ out) && decide (10 * out + 2000 ≤ tP)

/-- TIME_PHASES_WRITE (R17, R18): legal under the T_P of the grid, under that of the last old period while it lasts, and under one that
waits. -/
def timePhasesWrite (v : Word) (d : Dev) : Dev :=
  let e := fieldOf v 0 16
  let o := fieldOf v 16 16
  if phasesOk e o d.tb.tP && (d.tb.oldTP.all fun p => phasesOk e o p) && (!d.tb.gridPend || phasesOk e o (d.fld Reg.TIME_PERIOD 0 18)) then
    (d.wr Reg.TIME_PHASES v).putTb { d.tb with phPend := true }
  else d.setB Reg.TIME_STATUS 8 true

/-- TIME_PERIOD_WRITE, a write of TIME_PERIOD or, with `anchor`, of TIME_ANCHOR (R16, R17, R19): accepted, it waits as a grid change
(R536). -/
def timePeriodWrite (anchor : Bool) (v : Word) (d : Dev) : Dev :=
  let x := fieldOf v 0 18
  let ok := !d.atmRuns && !d.anyRun &&
    (if anchor then decide (x < d.fld Reg.TIME_PERIOD 0 18)
     else decide (10000 ≤ x) && decide (x ≤ 200000) && x % 10 == 0 && decide (d.fld Reg.TIME_ANCHOR 0 18 < x) &&
       phasesOk (d.tb.engStart / 10) (d.tb.outPhase / 10) x && phasesOk (d.fld Reg.TIME_PHASES 0 16) (d.fld Reg.TIME_PHASES 16 16) x)
  if ok then
    (d.genWrite (if anchor then Reg.TIME_ANCHOR else Reg.TIME_PERIOD) v).putTb { d.tb with gridPend := true }
  else d.setB Reg.TIME_STATUS 8 true

/-- Writes of the other TIME registers with a check or a stored minimum (R458). -/
def timeSlewWrite (v : Word) (d : Dev) : Dev := d.genWrite Reg.TIME_SLEW (putField v 0 10 (min 1000 (max 1 (fieldOf v 0 10))))
def timePpsCtlWrite (v : Word) (d : Dev) : Dev :=
  let d := if v.getLsbD 1 && !d.bit Reg.TIME_PPS_CTL 1 then d.putTsrv { d.tsrv with ppsWait := d.now } else d
  let d := d.genWrite Reg.TIME_PPS_CTL (putField v 8 8 (max 1 (fieldOf v 8 8)))
  if v.getLsbD 0 then d else d.ppsLow
def timePpsOfsWrite (v : Word) (d : Dev) : Dev :=
  if 999999999 < fieldOf v 0 30 then d.setB Reg.TIME_EVT 6 true else d.genWrite Reg.TIME_PPS_OFS v
def srvOutlWrite (n : Nat) (v : Word) (d : Dev) : Dev := d.genWrite (Reg.SRV_OUTL n) (putField v 16 4 (max 1 (fieldOf v 16 4)))
def srvSmpLoWrite (n : Nat) (v : Word) (d : Dev) : Dev := d.setServo n fun s => { s with smpLo := v }

/-! ### PPS pins -/

/-- PPS_OUT (R455): the next whole second plus OUT, due where the sequencer has no instant before it. -/
def ppsOut (d : Dev) : Dev :=
  let t := gridFrom (max d.now d.tsrv.ppsNext) (d.fld Reg.TIME_PPS_OFS 0 30) 1000000000
  if !(d.bit Reg.TIME_PPS_CTL 0 && d.bit Reg.SYS_READY 9) || !d.tb.counting || d.nextSeq < t then d else
  let d := d.advTo t
  (d.putTsrv { d.tsrv with ppsOut := true, ppsNext := t + 1, ppsFall := t + d.fld Reg.TIME_PPS_CTL 8 8 * 1000000 }).send (.pps t)

/-- PPS_IN_EDGE (R456): an edge within 0.5 s of the previous accepted one is ignored. -/
def ppsInEdge (stamp : Nat) (d : Dev) : Dev :=
  let near := match d.tsrv.ppsLast with
    | some t => decide (stamp < t + 500000000)
    | none => false
  if !d.bit Reg.TIME_PPS_CTL 1 || near then d else
  let d := d.putTsrv { d.tsrv with ppsLast := some stamp, ppsWait := stamp }
  let d := (d.wr Reg.TIME_PPSIN_LO (BitVec.ofNat 32 stamp)).wr Reg.TIME_PPSIN_HI (BitVec.ofNat 32 (stamp / 2 ^ 32))
  let x : Int := stamp - sext 32 (d.rd Reg.TIME_PPS_INOFS).toNat
  let e := x - 1000000000 * rnd x 1000000000
  let d := d.wr Reg.TIME_PPSIN_ERR (wordI e)
  if d.bit Reg.TIME_PPS_CTL 2 then d.sample 0 (e * 65536) else d

/-- PPS_LOST (R456): no accepted edge for 2 s, counted from IN_EN where none has come since (DESIGN CHOICE, notes/assumptions/107). -/
def ppsLost (d : Dev) : Dev :=
  let t := d.tsrv.ppsWait + 2000000000
  if !d.bit Reg.TIME_PPS_CTL 1 || !d.tb.counting || d.nextSeq < t then d else (d.advTo t).setB Reg.TIME_EVT 5 true


/-! ### Meanings -/

def execRefLost (s : State) : Host.Outcome State Fault Refusal := run refLost s
def execRefBack (s : State) : Host.Outcome State Fault Refusal := run refBack s
def execSynLock (syn : Fin 3) (s : State) : Host.Outcome State Fault Refusal := run (synLock syn) s
def execSynUnlock (syn : Fin 3) (s : State) : Host.Outcome State Fault Refusal := run (synUnlock syn) s
def execRelock (syn : Fin 3) (s : State) : Host.Outcome State Fault Refusal := run (relock syn) s
def execRelockDone (s : State) : Host.Outcome State Fault Refusal := run relockDone s
def execClkRelockGo (m : Master) (v : Word) (s : State) : Host.Outcome State Fault Refusal := run (Dev.viaBus m Reg.CLK_RELOCK (clkRelockGo v)) s
def execClkTrimWrite (m : Master) (v : Word) (s : State) : Host.Outcome State Fault Refusal := run (Dev.viaBus m Reg.CLK_TRIM (clkTrimWrite v)) s
def execLockfClear (s : State) : Host.Outcome State Fault Refusal := run lockfClear s
def execBandEdge (s : State) : Host.Outcome State Fault Refusal := run bandEdge s
def execStep (m : Master) (v : Word) (s : State) : Host.Outcome State Fault Refusal := run (Dev.viaBus m Reg.TIME_CMD (timeCmd v)) s
def execSet (m : Master) (v : Word) (s : State) : Host.Outcome State Fault Refusal := run (Dev.viaBus m Reg.TIME_CMD (timeCmd v)) s
def execServoSample (m : Master) (sv : Fin 2) (v : Word) (s : State) : Host.Outcome State Fault Refusal := run (Dev.viaBus m (Reg.SRV_SMP_HI sv) (servoSample sv v)) s
def execServoHoldover (sv : Fin 2) (s : State) : Host.Outcome State Fault Refusal := run (servoHoldover sv) s
def execTimeSelWrite (m : Master) (v : Word) (s : State) : Host.Outcome State Fault Refusal := run (Dev.viaBus m Reg.TIME_CTL (timeSelWrite v)) s
def execTimePhasesWrite (m : Master) (v : Word) (s : State) : Host.Outcome State Fault Refusal := run (Dev.viaBus m Reg.TIME_PHASES (timePhasesWrite v)) s
def execTimePeriodWrite (m : Master) (anchor : Bool) (v : Word) (s : State) : Host.Outcome State Fault Refusal := run (Dev.viaBus m (if anchor then Reg.TIME_ANCHOR else Reg.TIME_PERIOD) (timePeriodWrite anchor v)) s
def execPpsOut (s : State) : Host.Outcome State Fault Refusal := run ppsOut s
def execPpsInEdge (stamp : Nat) (s : State) : Host.Outcome State Fault Refusal := run (ppsInEdge stamp) s
def execPpsLost (s : State) : Host.Outcome State Fault Refusal := run ppsLost s

end Sys2Proof.Machine
end

