-- ==== Sys2Proof/Machine/Atom.lean ====
section
/-! DEFINITION. The output staging, carriers and the commit of the atomizer (spec/06_atomizer_gates.md, R182 to R207, R219, R220).
A set is built from device time at OUT_PHASE for the window of one T_P from the next boundary. -/

namespace Sys2Proof.Machine

/-! ### Staging -/

/-- The cluster of a cell, and the carrier of a target: a cell's cluster, carrier 6 for the local legs. -/
def Dev.cluster (d : Dev) (c : Nat) : Nat := d.fld (Reg.CELL_MAP c) 16 3
def Dev.carrierOf (d : Dev) (t : Nat) : Nat := if t < 288 then d.cluster (t / 2) else 6

/-- The target is a leg in carrier mode (R187, R195). -/
def Dev.carrierMode (d : Dev) (t : Nat) : Bool :=
  if t < 288 then !d.bit (Reg.ATM_CL_CTL (d.cluster (t / 2))) 0 else !d.bit (Reg.ATM_LL (t - 288)) 0

/-- A write to a refused target (R185). -/
def Dev.badTarget (d : Dev) : Dev := d.putAtm { d.atm with badev := d.atm.badev + 1 }

/-- A reference or a phase reaches the staging (R182, R183); a write to leg 1 of a mirrored cluster is ignored (R190). -/
def Dev.stageRef (t : Nat) (v : Int) (d : Dev) : Dev :=
  if t < 296 then
    if t < 288 && t % 2 == 1 && d.bit (Reg.ATM_CL_CTL (d.cluster (t / 2))) 2 then d
    else d.putAtm { d.atm with refs := SMap.put d.atm.refs 0 t v }
  else if t < 440 then d.putAtm { d.atm with phases := SMap.put d.atm.phases 0 (t - 296) v }
  else d.badTarget

/-- An edge event reaches the staging (R182, R184): it replaces an event of the same target and T, and needs room otherwise: eight
events a cell, sixteen a local leg. -/
def Dev.stageEdge (t tm code : Nat) (d : Dev) : Dev :=
  if 296 ≤ t then d.badTarget
  else if d.atm.evs.any fun e => e.leg == t && e.t == tm then
    d.putAtm { d.atm with evs := d.atm.evs.map fun e => if e.leg == t && e.t == tm then { e with code := code } else e }
  else
    let used := (d.atm.evs.filter fun e => if t < 288 then e.leg / 2 == t / 2 else e.leg == t).length
    if (if t < 288 then 8 else 16) ≤ used then (d.inc Reg.ATM_CNT_OVF 32).setB Reg.ATM_EVT 2 true
    else d.putAtm { d.atm with evs := d.atm.evs ++ [⟨t, tm, code⟩] }

/-! ### Carriers -/

/-- CPER and MINP of a carrier. -/
def Dev.cper (d : Dev) (n : Nat) : Nat := max 2 (d.fld (Reg.ATM_CL_CPER n) 0 24)

/-- The delay of a leg's carrier (R187). -/
def Dev.legDelay (d : Dev) (t : Nat) : Int :=
  let n := d.carrierOf t
  let p := d.cper n
  if t < 288 then
    let ns := max 1 (d.fld (Reg.ATM_CL_CTL n) 8 6)
    rnd ((d.fld (Reg.ATM_CELL (t / 2)) 0 6 % ns) * p : Nat) ns
  else (d.fld (Reg.ATM_LL (t - 288)) 8 24 % p : Nat)

/-- The corrections of a carrier that a leg has not yet applied (R206). -/
def Dev.legOwed (d : Dev) (t : Nat) : Int :=
  let n := d.carrierOf t
  SMap.getD d.atm.corrP 0 n + SMap.getD d.atm.corrNew 0 n + (d.leg t).corr + (d.leg t).corrIn

/-- The instant of a valley of the leg's own delayed carrier, modulo CPER (R186, R187, R206). -/
def Dev.legAnchor (d : Dev) (t : Nat) : Int := (d.rd (Reg.ATM_CL_ANCH_ACT (d.carrierOf t))).toNat - d.legOwed t + d.legDelay t

/-- What the edges of a leg are computed from: CPER, MINP, RELOAD before and after the boundary, the boundary, the end of the window, the
references of the sets of period k - 1 and k, whether the leg takes its start load, corrections landed and landing. -/
structure Car where
  cper  : Int
  minp  : Int
  rl0   : Bool
  rl1   : Bool
  b     : Int
  e     : Int
  old   : Option Int
  new   : Int
  start : Bool
  c1    : Int
  c2    : Int
  deriving DecidableEq, Repr

/-- The reference loaded by a reload at `h` (R191 to R193). -/
def Car.load (p : Car) (h cur : Int) : Int := if p.start then p.new else if h < p.b + 2 then p.old.getD cur else p.new

/-- The crossing of a half from `h`: `up` for valley to peak, reference `n`, correction `dc` (R188, R189, R206). -/
def Car.crossing (p : Car) (h : Int) (up : Bool) (n dc : Int) : Int :=
  let len := p.cper / 2 + (if up then dc else 0)
  let c := h + (if up then rnd ((32768 + n) * (p.cper + 2 * dc)) 131072 else rnd ((32768 - n) * p.cper) 131072)
  if 2 * (c - h) < p.minp then h else if 2 * (h + len - c) < p.minp then h + len else c

/-- The crossings of the halves from `h` on to the end of the window, in time order; `true` is LO to HI. -/
def Car.edges (p : Car) : Nat → Int → Bool → Int → Int → Int → Int → List (Int × Bool)
  | 0, _, _, _, _, _, _ => []
  | fuel + 1, h, up, n, dc, c1, c2 =>
    let c := p.crossing h up n dc
    let h' := h + p.cper / 2 + (if up then dc else 0)
    let rest :=
      if p.e ≤ h' then []
      else if up then p.edges fuel h' false (if (if h' < p.b then p.rl0 else p.rl1) then p.load h' n else n) 0 c1 c2
      else if h' < p.b + 2 then p.edges fuel h' true (p.load h' n) c1 0 c2
      else p.edges fuel h' true (p.load h' n) (c1 + c2) 0 0
    (c, !up) :: rest

/-- Two edges at one instant cancel (R189). -/
def cancelPairs : List (Int × Bool) → List (Int × Bool)
  | x :: y :: rest => if x.1 == y.1 then cancelPairs rest else x :: cancelPairs (y :: rest)
  | l => l

/-- Events (T, HI) of a window from the edges, one at T = 0 with the state at the boundary where there is none (R197). -/
def Car.events (p : Car) (up : Bool) (l : List (Int × Bool)) : List (Nat × Bool) :=
  let l := cancelPairs l
  let level := (l.filter fun x => decide (x.1 < p.b)).foldl (fun _ x => x.2) up
  let evs := (l.filter fun x => decide (p.b ≤ x.1) && decide (x.1 < p.e)).map fun x => ((x.1 - p.b).toNat, x.2)
  if evs.isEmpty then [(0, level)] else evs

/-- The events of a leg in carrier mode for the window at boundary `b` (R186 to R193, R197, R206). -/
def Dev.carrierEvents (t b : Nat) (old : OutSet) (newRef : Int) (start : Bool) (d : Dev) : List (Nat × Bool) :=
  let n := d.carrierOf t
  let p : Car :=
    { cper := d.cper n, minp := d.fld (Reg.ATM_CL_MINP n) 0 16, rl0 := (SMap.getD d.atm.clCtl 0 n).getLsbD 1,
      rl1 := d.bit (Reg.ATM_CL_CTL n) 1, b := b, e := b + d.tb.tP,
      old := if old.valid then some (SMap.getD old.refs 0 t) else none, new := newRef, start := start,
      c1 := (d.leg t).corr + (d.leg t).corrIn, c2 := SMap.getD d.atm.corrP 0 n }
  let now : Int := d.now
  let ph := (now - d.legAnchor t) % p.cper
  let ref := if start then newRef else (d.leg t).ref
  let (h, up, dc) : Int × Bool × Int :=
    match (d.leg t).last with
    | some (hv, dc) =>
      if decide (hv ≤ now) && decide (now < hv + p.cper / 2 + dc) then (hv, true, dc)
      else if ph < p.cper / 2 then (now - ph, true, 0) else (now - ph + p.cper / 2, false, 0)
    | none => if ph < p.cper / 2 then (now - ph, true, 0) else (now - ph + p.cper / 2, false, 0)
  p.events up (p.edges 600 h up ref dc p.c1 p.c2)

/-! ### The commit -/

/-- The staged reference of a target with MIRROR applied (R190). -/
def Dev.takenRef (d : Dev) (t : Nat) : Int :=
  if t < 288 && t % 2 == 1 && d.bit (Reg.ATM_CL_CTL (d.cluster (t / 2))) 2 then
    min 32767 (-(SMap.getD d.atm.refs 0 (t - 1)))
  else SMap.getD d.atm.refs 0 t

/-- A staged event is dropped and counted (R185). -/
def Dev.badEvent (d : Dev) (e : EdgeEv) : Bool :=
  decide (d.tb.tP ≤ e.t) || (e.code == 0 && (e.leg < 288 || !d.bit (Reg.GATE_MODE (e.leg - 288)) 0)) || d.carrierMode e.leg

/-- Events in ascending T; of the same T, the one staged or listed first goes first. -/
def insEv (e : Nat × Nat × Nat) : List (Nat × Nat × Nat) → List (Nat × Nat × Nat)
  | [] => [e]
  | x :: xs => if x.1 < e.1 || (x.1 == e.1 && x.2.1 ≤ e.2.1) then x :: insEv e xs else e :: x :: xs

/-- One event field of a record (R143). -/
def evBytes (e : Nat × Nat × Nat) : List Byte := beBytes 3 (e.2.1 * 2 ^ 23 + e.2.2 * 2 ^ 21 + e.1 % 2 ^ 20)

/-- A record without its CRC: four event fields, MODE, PHASE (R143, R199). -/
def recBytes (evs : List (Nat × Nat × Nat)) (mode : Nat) (phase : Int) : List Byte :=
  let ph := min 2047 ((phase + 8) / 16)
  let e := (evs.map evBytes).flatten
  (e ++ List.replicate (12 - e.length) 0) ++ beBytes 2 (mode * 4096 + low 12 ph)

/-- The record of a cell the model lists none for: MODE OFF, no events (R177). -/
def offRec : List Byte := recBytes [] 2 0

/-- The set committed in period k keeps its OFF where the collector held TRIP or HALT in period k, and in the first period after the
release (R198). -/
def Dev.offAfterRelease (d : Dev) : Bool :=
  match d.fc.relAt with
  | none => false
  | some r => r == d.tb.k || (r + 1) % 2 ^ 32 == d.tb.k

/-- The MODE of an ACTIVE cell (R198): 0 RUN, 1 ZERO, 2 OFF. -/
def Dev.activeMode (d : Dev) (c : Nat) (stop : Bool) : Nat :=
  let n := d.cluster c
  if stop || decide (2 ≤ d.fc.hold) || d.offAfterRelease then 2
  else if d.bit (Reg.ATM_CL_CTL n) 3 then 1
  else if d.atm.zeroWas.getLsbD n then 2
  else 0

/-- The events of both legs of an ACTIVE cell, leg 0 first at equal T (R196). `l` are the staged events that were not dropped. -/
def Dev.cellEvents (d : Dev) (c b : Nat) (start : Bool) (l : List EdgeEv) : List (Nat × Nat × Nat) :=
  (List.range 2).foldl (fun acc leg =>
    let t := 2 * c + leg
    let evs : List (Nat × Nat) :=
      if d.carrierMode t then (d.carrierEvents t b d.atm.act (d.takenRef t) start).map fun e => (e.1, if e.2 then 2 else 1)
      else (l.filter fun e => e.leg == t).map fun e => (e.t, e.code)
    evs.foldl (fun a e => insEv (e.1, leg, e.2) a) acc) []

/-- The record of a cell in a set, and the events that found no room in it (R177, R196, R198). -/
def Dev.cellRecord (d : Dev) (c b : Nat) (stop first : Bool) (l : List EdgeEv) : List Byte × Nat :=
  let st := d.cellState c
  if st == 3 then
    let ph := SMap.getD d.atm.phases 0 c
    if d.activeMode c stop != 0 then (recBytes [] (d.activeMode c stop) ph, 0)
    else
      let evs := d.cellEvents c b (first || (d.cell c).startLd) l
      (recBytes (evs.take 4) 0 ph, evs.length - 4)
  else if st == 4 then (recBytes [] (if (d.cell c).unbyOn then 4 else 3) 0, 0)
  else if st == 5 then (recBytes [] (if d.bit Reg.CELL_CTL 5 then 2 else 3) 0, 0)
  else (offRec, 0)

/-- The schedule of a local leg in a set: codes of R209; both channels off by the code of the leg's mode. -/
def Dev.localEvents (d : Dev) (k b : Nat) (stop first : Bool) (l : List EdgeEv) : List (Nat × Nat) :=
  let t := 288 + k
  let off := if d.bit (Reg.GATE_MODE k) 0 then 0 else 3
  if stop then [(0, off)]
  else if d.carrierMode t then
    if !d.bit (Reg.ATM_CL_CTL 6) 0 then [(0, off)]
    else (d.carrierEvents t b d.atm.act (d.takenRef t) first).map fun e => (e.1, if e.2 then 2 else 1)
  else ((l.filter fun e => e.leg == t).foldl (fun a e => insEv (e.t, 0, e.code) a) []).map fun e => (e.1, e.2.2)

/-- The commit of a period: the set of R200, with `stop` the stop set of R202; the staged events are cleared (R183, R185), corrections
and carrier bits are taken (R205, R219). -/
def Dev.commit (stop first : Bool) (d : Dev) : Dev :=
  let b := d.nextBoundary
  let known := d.atm.evs.filter fun e => e.leg < 288 && d.cellState (e.leg / 2) == 3 || 288 ≤ e.leg
  let bad := known.filter d.badEvent
  let l := known.filter fun e => !d.badEvent e
  let act := cellIds.filter fun c => d.cellState c == 3
  let recs := cellIds.foldl (fun m c => let r := d.cellRecord c b stop first l; (SMap.put m.1 offRec c r.1, m.2 + r.2)) (([], 0) : SMap (List Byte) × Nat)
  let set : OutSet :=
    { valid := true, stop := stop, first := first,
      refs := (act.foldl (fun m c => SMap.put (SMap.put m 0 (2 * c) (d.takenRef (2 * c))) 0 (2 * c + 1) (d.takenRef (2 * c + 1))) []
        |> fun m => (List.range 8).foldl (fun m k => SMap.put m 0 (288 + k) (d.takenRef (288 + k))) m),
      recs := recs.1, legs := (List.range 8).foldl (fun m k => SMap.put m [] k (d.localEvents k b stop first l)) [],
      starts := act.filter fun c => (d.cell c).startLd,
      per := d.tb.k, sof6 := (d.sof 2 false 0).take 6,
      pos := cellIds.foldl (fun m c => SMap.put m 0 c (d.fld (Reg.CELL_MAP c) 8 4)) [],
      ctl := (List.range 7).foldl (fun m n => SMap.put m 0 n (d.rd (Reg.ATM_CL_CTL n))) [] }
  let nbad := bad.length + d.atm.badev
  let zeros := bitsOf 6 fun n => d.bit (Reg.ATM_CL_CTL n) 3
  let d := (d.putAtm { d.atm with
    new := set, evs := [], badev := 0, cmdDue := true, zeroWas := BitVec.ofNat 6 zeros,
    corrNew := d.atm.corrP, corrP := [] })
  let d := if nbad == 0 then d else (d.incBy Reg.ATM_CNT_BADEV nbad).setB Reg.ATM_EVT 1 true
  let d := if recs.2 == 0 then d else (d.incBy Reg.ATM_CNT_OVF recs.2).setB Reg.ATM_EVT 2 true
  d.wr Reg.ATM_CSEQ (BitVec.ofNat 32 d.tb.k)

/-- ATM_STAT.PEND (R201, R202). -/
def Dev.atmPend (d : Dev) : Dev := d.setB Reg.ATM_STAT 1 (d.atm.startP || d.atm.stopP)

/-- What the atomizer does at OUT_PHASE (R26, R200 to R202). Without a commit the COMMAND frames still leave, with no leg commanded on
(R156 step 1, R177). -/
def Dev.atmOutPhase (d : Dev) : Dev :=
  if !d.domainOn 4 then d
  else if d.atm.stopP then
    let d := d.commit true false
    let d := d.putAtm { d.atm with stopP := false, running := true }
    (d.setB Reg.ATM_STAT 0 false).atmPend
  else if d.atm.running && !d.atm.new.stop then d.commit false false
  else if d.atm.startP then
    let d := d.commit false true
    let d := d.putAtm { d.atm with startP := false, running := true }
    ((d.setB Reg.ATM_STAT 0 true).setReady 17 true).atmPend
  else d.putAtm { d.atm with evs := if d.atm.running then [] else d.atm.evs, cmdDue := true }

/-- The landing of the committed set at a boundary (R21, R28, R192, R193, R202, R206). -/
def Dev.landSet (d : Dev) : Dev :=
  let s := d.atm.new
  if !s.valid then d
  else
    let cn := d.atm.corrNew
    let b := d.tb.bnd
    let startsLeg (t : Nat) : Bool := s.first || (t < 288 && s.starts.contains (t / 2))
    let legs := (List.range 296).foldl (fun m t =>
      let l := SMap.getD m {} t
      let add := if t < 288 then SMap.getD cn 0 (d.cluster (t / 2)) else 0
      let l := { l with corr := l.corr + l.corrIn, corrIn := add }
      let l := if startsLeg t then { l with ref := SMap.getD s.refs 0 t, startAt := some b } else { l with startAt := none }
      SMap.put m {} t l) d.atm.legs
    let d := d.putAtm { d.atm with prev := d.atm.act, act := s, new := {}, corrNew := [], legs := legs, landAt := some b, clCtl := s.ctl }
    if s.stop then ((d.setReady 17 false).putAtm { d.atm with running := false }) else d

/-! ### Start and stop -/

/-- A carrier meets R194 under T_P. -/
def cperOk (n p tP : Nat) : Bool := p % 2 == 0 && decide (p ≤ 10000000) && (if n == 6 then decide (2000 ≤ p) else decide (2 * tP ≤ p))

/-- The cause that refuses a start (R201), 0 none. -/
def Dev.startCause (d : Dev) : Nat :=
  if d.fld Reg.SYS_STAGE 0 2 != 3 then 1
  else if !d.domainOn 3 || !d.domainOn 4 then 2
  else if (List.range 24).any fun p => d.bit (Reg.RING_CTL p) 0 && d.bit (Reg.RING_CTL p) 3 then 3
  else if ((List.range 6).any fun n => !d.bit (Reg.ATM_CL_CTL n) 0 && !cperOk n (d.fld (Reg.ATM_CL_CPER n) 0 24) d.tb.tP) ||
      (d.bit (Reg.ATM_CL_CTL 6) 0 && !cperOk 6 (d.fld (Reg.ATM_CL_CPER 6) 0 24) d.tb.tP) then 4
  else if (List.range 8).any fun k => !d.bit (Reg.ATM_LL k) 0 && d.bit (Reg.GATE_MODE k) 0 then 5
  else if !d.bit Reg.GATE_CAL 0 then 6
  else 0

/-- t_tl in 1/80 ns. -/
def Dev.tTl80 (d : Dev) : Nat := 5 * d.fld Reg.TWIN_TL 0 16

/-- TWIN_LOAD at an atomizer start and at a ring calibration (R412). -/
def Dev.twinLoad (d : Dev) : Dev :=
  if !d.bit Reg.TWIN_CTL 0 then d else
  let runs := (List.range 24).filter d.inRun
  let fm := runs.foldl (fun s p => s + 2 + 2 * d.nslot p) 0
  let copy := 2 + (List.range 8).foldl (fun s n =>
    if d.bit (Reg.TWIN_CTX n) 0 then s + (768 + 64 * d.fld (Reg.TWIN_CTX n) 4 5 + 64 * d.fld (Reg.TWIN_CTX n) 16 10) / 8 else s) 0
  let mx := runs.foldl (fun m p => max m (d.fld (Reg.RING_REPOLL p) 0 2)) 0
  let blocks := fm + copy + (645 + 8 * d.fld Reg.TWIN_CTL 16 4) + 3 + 3 * mx * runs.length
  let overrun := decide (80 * d.tb.tP < 256 * blocks + 80 * 600 + d.tTl80)
  let was := d.bit Reg.TWIN_LOAD 31
  let d := d.wr Reg.TWIN_LOAD (BitVec.ofNat 32 (blocks % 65536 + b2n overrun * 2 ^ 31))
  if overrun && !was then d.setB Reg.TWIN_EVT 13 true else d

/-- ATM_START, a write of ATM_CTL with RUN set (R201). -/
def atmStart (_v : Word) (d : Dev) : Dev :=
  if d.bit Reg.ATM_CTL 0 then d
  else if d.startCause != 0 then (d.setB Reg.ATM_EVT 0 true).setF Reg.ATM_STAT 4 3 d.startCause
  else
    let d := d.setB Reg.ATM_CTL 0 true
    (d.putAtm { d.atm with startP := true }).atmPend.twinLoad

/-- ATM_STOP, a write of ATM_CTL with RUN clear (R202). -/
def atmStop (_v : Word) (d : Dev) : Dev :=
  if !d.bit Reg.ATM_CTL 0 then d
  else
    let d := d.setB Reg.ATM_CTL 0 false
    (d.putAtm { d.atm with stopP := true, startP := false }).atmPend

/-- A write of ATM_CTL. -/
def atmCtlWrite (v : Word) (d : Dev) : Dev := if v.getLsbD 0 then atmStart v d else atmStop v d

/-- A refused write of the ATM block. -/
def Dev.atmRefuse (d : Dev) : Dev := d.setB Reg.ATM_EVT 6 true

/-- A carrier's configuration may change: the atomizer is stopped, or its cluster has no ACTIVE cell (R219). -/
def Dev.clFree (d : Dev) (n : Nat) : Bool :=
  !d.atmRuns || (n < 6 && !cellIds.any fun c => d.cellState c == 3 && d.cluster c == n)

/-- ATM_CL_CTL_WRITE, a write of ATM_CLn_CTL, CPER, ANCH or MINP (R194, R219). -/
def atmClCtlWrite (n : Nat) (r : ClReg) (v : Word) (d : Dev) : Dev :=
  match r with
  | .ctl =>
    let o := d.rd (Reg.ATM_CL_CTL n)
    let ns := max 1 (fieldOf v 8 6)
    if 48 < fieldOf v 8 6 || (!d.clFree n && (v.getLsbD 0 != o.getLsbD 0 || ns != fieldOf o 8 6)) then d.atmRefuse
    else d.genWrite (Reg.ATM_CL_CTL n) (putField v 8 6 ns)
  | .cper =>
    if d.clFree n && cperOk n (fieldOf v 0 24) d.tb.tP then d.genWrite (Reg.ATM_CL_CPER n) v else d.atmRefuse
  | .anch =>
    if d.clFree n && decide (fieldOf v 0 24 < d.fld (Reg.ATM_CL_CPER n) 0 24) then
      let d := (d.genWrite (Reg.ATM_CL_ANCH n) v).wr (Reg.ATM_CL_ANCH_ACT n) (BitVec.ofNat 32 (fieldOf v 0 24))
      (d.putAtm { d.atm with
        corrP := SMap.put d.atm.corrP 0 n 0, corrNew := SMap.put d.atm.corrNew 0 n 0,
        legs := d.atm.legs.map fun e => if d.carrierOf e.1 == n then (e.1, { e.2 with corr := 0, corrIn := 0, last := none }) else e })
    else d.atmRefuse
  | .minp => if d.clFree n then d.genWrite (Reg.ATM_CL_MINP n) v else d.atmRefuse

/-- A write of ATM_CELL: refused while the cell is ACTIVE and the atomizer runs. -/
def atmCellWrite (c : Nat) (v : Word) (d : Dev) : Dev :=
  if d.cellState c == 3 && d.atmRuns then d.atmRefuse else d.genWrite (Reg.ATM_CELL c) v

/-- A write of ATM_LL: MODE changes only while the atomizer is stopped. -/
def atmLlWrite (k : Nat) (v : Word) (d : Dev) : Dev :=
  if d.atmRuns && v.getLsbD 0 != d.bit (Reg.ATM_LL k) 0 then d.atmRefuse else d.genWrite (Reg.ATM_LL k) v

/-- A write of ATM_SYNC_OUT: WIDTH 0 stores 1. -/
def atmSyncOutWrite (v : Word) (d : Dev) : Dev := d.genWrite Reg.ATM_SYNC_OUT (putField v 8 8 (max 1 (fieldOf v 8 8)))

/-! ### Carrier events -/

/-- CARRIER_RELOAD (R191 to R193, R206): the leg's next valley, or with `peak` its next peak, where it is due before the sequencer's next
instant. A valley applies what corrections have landed 2 ns before it. -/
def carrierReload (t : Nat) (peak : Bool) (d : Dev) : Dev :=
  if !d.tb.counting || !d.carrierMode t || (288 ≤ t && !d.bit (Reg.ATM_CL_CTL 6) 0) then d else
  let n := d.carrierOf t
  let p := d.cper n
  let l := d.leg t
  let a := (d.legAnchor t + (if peak then p / 2 else 0)) % (p : Int)
  let at' := gridFrom (max d.now l.lastLd) a.toNat p
  if decide (d.nextSeq ≤ at') && decide (d.now < at') then d else
  let d := d.advTo at'
  let landed := d.atm.landAt == some d.tb.bnd && decide (d.tb.bnd ≤ at') && decide (at' ≤ d.tb.bnd + 1)
  let tie := landed && l.startAt != some d.tb.bnd
  let loads := !peak || (SMap.getD d.atm.clCtl 0 n).getLsbD 1
  let src := if tie then d.atm.prev else d.atm.act
  let d := if loads && tie then (d.inc Reg.ATM_CNT_TIE 32).setB Reg.ATM_EVT 3 true else d
  let dc := if peak then 0 else l.corr + (if d.tb.bnd + 2 ≤ at' then l.corrIn else 0)
  d.setLeg t fun l =>
    { l with
      ref := if loads && src.valid then SMap.getD src.refs 0 t else l.ref
      lastLd := at' + (max 0 dc).toNat + 1
      corr := if peak then l.corr else 0
      corrIn := if peak || at' < d.tb.bnd + 2 then l.corrIn else 0
      last := if dc == 0 then l.last else some (at', dc) }

/-- SYNC_OUT_PULSE (R203): the next valley of carrier 0 plus OFS, due where the sequencer has no instant before it. -/
def syncOutPulse (d : Dev) : Dev :=
  if !(d.syncOutOn && d.tb.counting) then d
  else
    let t := gridFrom (max d.now d.atm.syncNext) ((d.rd (Reg.ATM_CL_ANCH_ACT 0)).toNat + d.fld Reg.ATM_SYNC_OUT 16 16) (d.cper 0)
    if d.nextSeq < t then d else
    let d := d.advTo t
    (d.putAtm { d.atm with syncEnd := t + 10 * d.fld Reg.ATM_SYNC_OUT 8 8, syncNext := t + 1 }).send (.syncOut t)

/-- The error of a stamp on a cluster, wrapped into (-CPER/2, CPER/2] (R204). -/
def Dev.syncErr (d : Dev) (n stamp : Nat) : Int :=
  let p : Int := d.cper n
  let x := ((stamp : Int) - d.fld Reg.ATM_SYNC_OFS 0 24 - (d.rd (Reg.ATM_CL_ANCH_ACT n)).toNat) % p
  if p / 2 < x then x - p else x

/-- SYNC_IN_EDGE (R204, R205). -/
def syncInEdge (stamp : Nat) (d : Dev) : Dev :=
  if !d.bit Reg.ATM_SYNC_IN 0 || !d.domainOn 4 then d else
  let d : Dev := d.putAtm { d.atm with syncSeen := stamp }
  let sel := (List.range 6).filter fun n => d.bit Reg.ATM_SYNC_IN (8 + n)
  let mx : Int := d.fld Reg.ATM_SYNC_IN 16 8
  let d := match sel with
    | n :: _ => d.wr Reg.ATM_SYNC_ERR (wordI (d.syncErr n stamp))
    | [] => d
  sel.foldl (fun d n =>
    let p : Int := d.cper n
    let act : Int := (d.rd (Reg.ATM_CL_ANCH_ACT n)).toNat
    let per := (stamp : Int) - ((stamp : Int) - act) % p
    let seen := SMap.getD d.atm.stampAt 0 n
    if seen != 0 && decide (2 * (per - (seen - 1)) < p) && decide (-p < 2 * (per - (seen - 1))) then d.inc Reg.ATM_CNT_SYNC 32
    else
      let e := d.syncErr n stamp
      let c := clampI (-mx) mx e
      let d := if c == e then d else d.setB Reg.ATM_EVT 5 true
      let d := d.wr (Reg.ATM_CL_ANCH_ACT n) (BitVec.ofNat 32 ((act + c) % p).toNat)
      (d.putAtm { d.atm with
        stampAt := SMap.put d.atm.stampAt 0 n (per + 1), corrP := SMap.put d.atm.corrP 0 n (SMap.getD d.atm.corrP 0 n + c) })) d

/-- SYNC_LOST (R207): no edge for four carrier periods of the lowest selected cluster, due once the instants of the sequencer before it are
over. -/
def syncLost (d : Dev) : Dev :=
  match (List.range 6).find? fun n => d.bit Reg.ATM_SYNC_IN (8 + n) with
  | none => d
  | some n =>
    let t := d.atm.syncSeen + 4 * d.cper n
    if !d.bit Reg.ATM_SYNC_IN 0 || !d.domainOn 4 || !d.tb.counting || d.nextSeq < t then d
    else (d.advTo t).setB Reg.ATM_EVT 4 true

/-- A write of ATM_SYNC_IN: where SYNC_IN comes into use, the wait for an edge begins (R207; DESIGN CHOICE, notes/assumptions/85). -/
def atmSyncInWrite (v : Word) (d : Dev) : Dev :=
  let d := if d.bit Reg.ATM_SYNC_IN 0 then d else (d.putAtm { d.atm with syncSeen := d.now })
  d.genWrite Reg.ATM_SYNC_IN v

/-! ### COMMAND frames -/

/-- A downstream record of 16 bytes for a position, with its CRC (R142). -/
def withCrc (sof6 : List Byte) (pos : Nat) (r : List Byte) : List Byte :=
  r ++ beBytes 2 (crc16 (sof6 ++ [BitVec.ofNat 8 pos] ++ r))

/-- The data of the COMMAND frame of a port: the records of positions 1 to NSLOT, OFF where no cell is mapped (R139, R177). -/
def Dev.cmdData (p : Nat) (s : OutSet) (sof6 : List Byte) (d : Dev) : List Byte :=
  ((List.range (d.nslot p)).map fun j =>
    let r := match d.cellAt (d.ringOf p) (j + 1) with | some c => SMap.getD s.recs offRec c | none => offRec
    withCrc sof6 (j + 1) r).flatten

/-- The set that COMMAND frames carry: the committed one; while none is, MODE OFF for every ACTIVE cell (R156, R177). -/
def Dev.sendSet (d : Dev) : OutSet :=
  if d.atm.new.valid then d.atm.new
  else { recs := cellIds.foldl (fun m c => SMap.put m offRec c (d.cellRecord c 0 true false []).1) [] }

/-- The COMMAND frame of a port from a set (R27, R137). -/
def Dev.sendCommand (p : Nat) (s : OutSet) (d : Dev) : Dev :=
  let sof := d.sof 2 (d.endB p) (d.nslot p)
  d.sendFrame p sof (d.cmdData p s (sof.take 6))

/-- Ports in RUN in ascending order of their ring. -/
def Dev.runPorts (d : Dev) : List Nat :=
  ((List.range 24).map fun r => (List.range 24).filter fun p => d.inRun p && d.ringOf p == r).flatten

/-- The unit sends COMMAND frames of its own: solo or holder (the table of roles). -/
def Dev.commands (d : Dev) : Bool := d.role == 0 || d.role == 2

/-- COMMAND_FRAME_LAUNCH (R27, R409): the COMMAND frames of the commit, and in a twin installation the same over the twin link. -/
def commandFrameLaunch (d : Dev) : Dev :=
  if !d.atm.cmdDue then d else
  let d := d.putAtm { d.atm with cmdDue := false }
  if !d.commands then d else
  let s := d.sendSet
  let d := d.runPorts.foldl (fun d p => d.sendCommand p s) d
  if d.role != 2 || !d.bit Reg.SYS_READY 15 then d
  else d.runPorts.foldl (fun d p =>
    let sof := d.sof 2 (d.endB p) (d.nslot p)
    (d.twinTake (2 + 2 * d.nslot p)).send (.frame 24 (mkFrame (sof.take 6 ++ [BitVec.ofNat 8 (8 * d.ringOf p)]) (d.cmdData p s (sof.take 6))))) d

/-! ### Windows of the commit (R220) -/

/-- Word `j` of ATM_REC of a cell: the record of the last commit in wire order. -/
def Dev.atmRec (d : Dev) (c j : Nat) : Word :=
  let s := if d.atm.new.valid then d.atm.new else d.atm.act
  if !s.valid then 0 else
  let r := withCrc s.sof6 (SMap.getD s.pos 0 c) (SMap.getD s.recs offRec c)
  BitVec.ofNat 32 ((List.range 4).foldl (fun v i => v + byteAt r (4 * j + i) * 256 ^ i) 0)

/-- Word `j` of ATM_LEV of a local leg. -/
def Dev.atmLev (d : Dev) (k j : Nat) : Word :=
  let s := if d.atm.new.valid then d.atm.new else d.atm.act
  match ((SMap.getD s.legs [] k).drop j).head? with
  | some (t, code) => BitVec.ofNat 32 (t % 2 ^ 20 + code * 2 ^ 20 + 2 ^ 31)
  | none => 0


/-! ### Meanings -/

/-- The address of a carrier register. -/
def clRegAddr (n : Nat) : ClReg → Nat
  | .ctl => Reg.ATM_CL_CTL n
  | .cper => Reg.ATM_CL_CPER n
  | .anch => Reg.ATM_CL_ANCH n
  | .minp => Reg.ATM_CL_MINP n

def execRingCalibration (port : Fin 24) (s : State) : Host.Outcome State Fault Refusal := run (fun d => (ringCalibration port d).twinLoad) s
def execAtmStart (m : Master) (v : Word) (s : State) : Host.Outcome State Fault Refusal := run (Dev.viaBus m Reg.ATM_CTL (atmCtlWrite v)) s
def execAtmStop (m : Master) (v : Word) (s : State) : Host.Outcome State Fault Refusal := run (Dev.viaBus m Reg.ATM_CTL (atmCtlWrite v)) s
def execAtmClCtlWrite (m : Master) (n : Fin 7) (r : ClReg) (v : Word) (s : State) : Host.Outcome State Fault Refusal := run (Dev.viaBus m (clRegAddr n r) (atmClCtlWrite n r v)) s
def execCarrierReload (leg : Fin 296) (peak : Bool) (s : State) : Host.Outcome State Fault Refusal := run (carrierReload leg peak) s
def execSyncOutPulse (s : State) : Host.Outcome State Fault Refusal := run syncOutPulse s
def execSyncInEdge (stamp : Nat) (s : State) : Host.Outcome State Fault Refusal := run (syncInEdge stamp) s
def execSyncLost (s : State) : Host.Outcome State Fault Refusal := run syncLost s

end Sys2Proof.Machine
end

