-- ==== Sys2Proof/Machine/CrcUnit.lean ====
section
/-! DEFINITION. The check-value units (spec/14_ports_queues_crc.md, R477, R478, R482). A unit takes every write at once, in arrival order:
its buffer and its clocks are timing (notes/assumptions/71). -/

namespace Sys2Proof.Machine

/-- The low `w` bits of a number in reverse order. -/
def reflect : Nat → Nat → Nat
  | 0, _ => 0
  | w + 1, v => v % 2 * 2 ^ w + reflect w (v / 2)

/-- One bit into a CRC register of width `w`. -/
def crcBit (w poly reg : Nat) (b : Bool) : Nat :=
  let sh := reg * 2 % 2 ^ w
  if nbit reg (w - 1) != b then sh ^^^ poly else sh

/-- One byte, its most significant bit first. -/
def crcByte (w poly reg b : Nat) : Nat := (List.range 8).foldl (fun r i => crcBit w poly r (nbit b (7 - i))) reg

/-- The width in force. -/
def Dev.crcW (d : Dev) (n : Nat) : Nat := d.fld (Reg.CRC_CFG n) 0 6

/-- Feeds bytes into a unit's register; REFIN reflects each (R477). -/
def Dev.crcFeed (n : Nat) (bytes : List Nat) (d : Dev) : Dev :=
  let w := d.crcW n
  let poly := (d.rd (Reg.CRC_POLY n)).toNat % 2 ^ w
  let refIn := d.bit (Reg.CRC_CFG n) 8
  let r := bytes.foldl (fun r b => crcByte w poly r (if refIn then reflect 8 b else b)) ((d.rd (Reg.CRC_VAL n)).toNat % 2 ^ w)
  d.wr (Reg.CRC_VAL n) (BitVec.ofNat 32 r)

/-- What CRC_RES reads (R477). -/
def Dev.crcRes (d : Dev) (n : Nat) : Word :=
  let w := d.crcW n
  let v := (d.rd (Reg.CRC_VAL n)).toNat % 2 ^ w
  BitVec.ofNat 32 ((if d.bit (Reg.CRC_CFG n) 9 then reflect w v else v) ^^^ ((d.rd (Reg.CRC_XOR n)).toNat % 2 ^ w))

/-- CRC_START, a write of CRC_CMD: INIT, then the fold, most significant byte first. -/
def crcStart (n : Nat) (v : Word) (d : Dev) : Dev :=
  if !v.getLsbD 0 then d else
  let d := (d.wr (Reg.CRC_VAL n) (BitVec.ofNat 32 ((d.rd (Reg.CRC_INIT n)).toNat % 2 ^ d.crcW n))).wr (Reg.CRC_CNT n) 0
  let fl := d.fld (Reg.CRC_CFG n) 11 3
  let fold := (d.rd (Reg.CRC_FOLD n)).toNat % 2 ^ d.crcW n
  d.crcFeed n ((List.range fl).reverse.map fun i => fold / 256 ^ i % 256)

/-- Bytes of a data register. -/
def dinBytes : DinW → Nat
  | .d8 => 1 | .d16 => 2 | .d32 => 4

/-- The address of a data register. -/
def dinAddr (n : Nat) : DinW → Nat
  | .d8 => Reg.CRC_DIN8 n | .d16 => Reg.CRC_DIN16 n | .d32 => Reg.CRC_DIN32 n

/-- CRC_DIN: least significant byte first, or most significant first with BSWAP; CRC_CNT wraps. -/
def crcDin (n : Nat) (w : DinW) (v : Word) (d : Dev) : Dev :=
  let k := dinBytes w
  let le := (List.range k).map fun i => v.toNat / 256 ^ i % 256
  let d := d.crcFeed n (if d.bit (Reg.CRC_CFG n) 10 then le.reverse else le)
  d.wr (Reg.CRC_CNT n) (d.rd (Reg.CRC_CNT n) + BitVec.ofNat 32 k)

/-- A write of CRC_VAL loads the register. -/
def crcValWrite (n : Nat) (v : Word) (d : Dev) : Dev := d.wr (Reg.CRC_VAL n) (BitVec.ofNat 32 (v.toNat % 2 ^ d.crcW n))

/-- A write of CRC_CFG: WIDTH 0 or above 32, or FLEN above 4, is refused. -/
def crcCfgWrite (n : Nat) (v : Word) (d : Dev) : Dev :=
  if fieldOf v 0 6 == 0 || 32 < fieldOf v 0 6 || 4 < fieldOf v 11 3 then d.setB (Reg.CRC_STAT n) 1 true
  else d.genWrite (Reg.CRC_CFG n) v

/-! ### Meanings -/

def execCrcStart (m : Master) (n : Fin 4) (v : Word) (s : State) : Host.Outcome State Fault Refusal := run (Dev.viaBus m (Reg.CRC_CMD n) (crcStart n v)) s
def execCrcDin (m : Master) (n : Fin 4) (w : DinW) (v : Word) (s : State) : Host.Outcome State Fault Refusal := run (Dev.viaBus m (dinAddr n w) (crcDin n w v)) s
def execCrcValWrite (m : Master) (n : Fin 4) (v : Word) (s : State) : Host.Outcome State Fault Refusal := run (Dev.viaBus m (Reg.CRC_VAL n) (crcValWrite n v)) s
def execCrcCfgWrite (m : Master) (n : Fin 4) (v : Word) (s : State) : Host.Outcome State Fault Refusal := run (Dev.viaBus m (Reg.CRC_CFG n) (crcCfgWrite n v)) s

end Sys2Proof.Machine
end

