-- ==== Sys2Proof/Machine/Qm.lean ====
section
/-! DEFINITION. The packet memory and its queues (spec/14_ports_queues_crc.md, R470 to R476, R481). -/

namespace Sys2Proof.Machine

/-! ### Slots -/

/-- Slots that `n` data bytes take (R470). -/
def slotsFor (n : Nat) : Nat := (16 + n + 127) / 128

/-- The address of byte `a` of a packet, its header included. -/
def pktAddr (slots : List Nat) (a : Nat) : Nat := 0x20000000 + 128 * (slots.drop (a / 128)).headD 0 + a % 128

/-- The data bytes of a packet. -/
def Dev.pktBytes (d : Dev) (slots : List Nat) (len : Nat) : List Byte :=
  (List.range len).map fun i => memByte d.mem (pktAddr slots (16 + i))

/-- A packet mover reads the words of a packet (R54, R55). -/
def Dev.pktRead (slots : List Nat) (len : Nat) (d : Dev) : Dev :=
  (d.ecc.filter fun e => (List.range (len + 16)).any fun i => pktAddr slots i == e.1).foldl (fun d e => d.eccRead e.1 false) d

/-- Stores data bytes from data byte `i` on; the last byte of a word completes it, with good check bits (R54). -/
def Dev.pktPut (slots : List Nat) (i : Nat) : List Byte → Dev → Dev
  | [], d => d
  | b :: bs, d =>
    let a := pktAddr slots (16 + i)
    let d := if a % 4 == 3 then d.putEcc (SMap.put d.ecc 0 (a - 3) 0) else d
    Dev.pktPut slots (i + 1) bs (d.putMem (memPut d.mem a b))

/-- The slots that packets and egress queues hold. -/
def Dev.slotsHeld (d : Dev) : List Nat :=
  (d.net.queues.map fun e => (e.2.map (·.slots)).flatten).flatten ++ (d.net.egress.map fun e => (e.2.map (·.slots)).flatten).flatten

/-- QM_STAT.FREE. -/
def Dev.freeSlots (d : Dev) : Nat := d.fld Reg.QM_STAT 0 14

/-- Takes `n` slots: which of the free ones is left open by the spec, a free choice (DESIGN CHOICE, safe, notes/assumptions/67). -/
def Dev.takeSlots : Nat → Dev → List Nat × Dev
  | 0, d => ([], d)
  | n + 1, d =>
    let (l, d) := Dev.takeSlots n d
    let held := l ++ d.slotsHeld
    let free := (List.range 8192).filter fun s => !held.contains s
    let s := (free.drop (Config.freeNat d.freeCtr % max 1 free.length)).headD 0
    (l ++ [s], (d.setF Reg.QM_STAT 0 14 (d.freeSlots - 1)).nextFree)

/-- Slots return to the free list. -/
def Dev.giveSlots (n : Nat) (d : Dev) : Dev := d.setF Reg.QM_STAT 0 14 (d.freeSlots + n)

/-- QM_LINK of each slot of a chain, with `used` bytes written, the header included. -/
def Dev.linkSlots (used : Nat) : List Nat → Nat → Dev → Dev
  | [], _, d => d
  | s :: rest, i, d =>
    let n := min 128 (used - 128 * i)
    let w := rest.headD 0 + 8192 * b2n rest.isEmpty + n * 65536
    Dev.linkSlots used rest (i + 1) (d.wr (Reg.QM_LINK s) (BitVec.ofNat 32 w))

/-- Writes the packet header (R470). -/
def Dev.pktHeader (slots : List Nat) (len src flags tci frac time : Nat) (d : Dev) : Dev :=
  let a := pktAddr slots 0
  ((((((d.mwr a 2 len).mwr (a + 2) 1 src).mwr (a + 3) 1 flags).mwr (a + 4) 2 frac).mwr (a + 6) 2 tci).mwr (a + 8) 8 time)

/-! ### Queues -/

def Dev.qpkts (d : Dev) (q : Nat) : List Pkt := SMap.getD d.net.queues [] q

/-- The packets of a queue, and the registers that show them. -/
def Dev.setQ (q : Nat) (l : List Pkt) (d : Dev) : Dev :=
  let d := d.putNet { d.net with queues := SMap.put d.net.queues [] q l }
  let open' := l.any fun p => !p.ended
  let d := d.wr (Reg.QM_Q_USED q) (BitVec.ofNat 32 ((l.map (·.slots.length)).foldl (· + ·) 0))
  let vis := l.filter (·.vis)
  let head := vis.head?
  let st := match head with
    | some p => p.slots.headD 0 + 8192 + 16384 * b2n p.ended
    | none => 0
  let d := d.wr (Reg.QM_Q_STAT q) (BitVec.ofNat 32 (st + 32768 * b2n open' + vis.length * 65536))
  let ps := match l.find? fun p => !p.ended && !p.drop with
    | some p => p.slots.headD 0 + 2 ^ 31
    | none => 0
  d.wr (Reg.QM_Q_PSLOT q) (BitVec.ofNat 32 ps)

/-- Fields of QM_Q_CFG. -/
def Dev.qProd (d : Dev) (q : Nat) : Nat := d.fld (Reg.QM_Q_CFG q) 1 2
def Dev.qCons (d : Dev) (q : Nat) : Nat := d.fld (Reg.QM_Q_CFG q) 3 2
def Dev.qCt (d : Dev) (q : Nat) : Nat := d.fld (Reg.QM_Q_CFG q) 16 16
def Dev.qMaxLen (d : Dev) (q : Nat) : Nat := d.fld (Reg.QM_Q_LIM q) 0 14
def Dev.qMaxSlot (d : Dev) (q : Nat) : Nat := d.fld (Reg.QM_Q_LIM q) 16 14

/-- The queue is enabled and of a producer's kind (R471). -/
def Dev.qFor (d : Dev) (q prod : Nat) : Bool := d.bit Reg.QM_CTL 0 && d.bit (Reg.QM_Q_CFG q) 0 && d.qProd q == prod

/-- The open packet of a queue. -/
def Dev.qOpenPkt (d : Dev) (q : Nat) : Option Pkt := (d.qpkts q).find? fun p => !p.ended

def Dev.qmEvt (i : Nat) (d : Dev) : Dev := d.setB Reg.QM_EVT i true

/-- A refusal at the open, counted (R472). -/
def Dev.openRefused (q i : Nat) (d : Dev) : Dev := ((d.qmEvt i).inc (Reg.QM_Q_CNT q) 32).inc Reg.QM_CNT_REF 32

/-- Slots that the queue's MAXSLOT and the free list still grant. -/
def Dev.qRoom (d : Dev) (q : Nat) : Nat := min d.freeSlots (d.qMaxSlot q - d.fld (Reg.QM_Q_USED q) 0 14)

/-- Replaces the open packet. -/
def Dev.setOpenPkt (q : Nat) (f : Pkt → Pkt) (d : Dev) : Dev := d.setQ q ((d.qpkts q).map fun p => if p.ended then p else f p)

/-- Removes the open packet and gives its slots back. -/
def Dev.cutOpenPkt (q : Nat) (d : Dev) : Dev :=
  let n := match d.qOpenPkt q with | some p => p.slots.length | none => 0
  (d.giveSlots n).setQ q ((d.qpkts q).filter (·.ended))

/-- The open packet ends: LEN, END, and with `ab` ABORT in its header; the consumer sees it (R473, R474). -/
def Dev.endOpenPkt (q len : Nat) (ab : Bool) (d : Dev) : Dev :=
  match d.qOpenPkt q with
  | none => d
  | some p =>
    let a := pktAddr p.slots 0
    let fl := d.mrd (a + 3) 1
    let d := ((d.mwr a 2 len).mwr (a + 3) 1 (fl - fl % 4 + 1 + 2 * b2n ab)).linkSlots (16 + len) p.slots 0
    let d := if ab then d.qmEvt 3 else d
    d.setOpenPkt q fun p => { p with ended := true, vis := true, abort := ab, len := len, written := len }

/-- A producer's failure: an unseen packet is rewound, one that is visible under CT ends with ABORT, a dropped one goes (R474,
R476). -/
def Dev.rewind (q : Nat) (d : Dev) : Dev :=
  match d.qOpenPkt q with
  | none => d
  | some p =>
    if p.drop then d.cutOpenPkt q
    else if p.vis then d.endOpenPkt q p.written true
    else (((d.cutOpenPkt q).qmEvt 2).inc Reg.QM_CNT_REWIND 32).inc (Reg.QM_Q_CNT q) 32

/-- Data bytes written so far; the packet shows itself once CT bytes are there (R473). -/
def Dev.qWritten (q n : Nat) (d : Dev) : Dev :=
  let ct := d.qCt q
  let d := d.setOpenPkt q fun p => { p with written := max p.written n, vis := p.vis || (!p.drop && ct != 0 && decide (ct ≤ max p.written n)) }
  match d.qOpenPkt q with
  | some p => if p.drop then d else d.linkSlots (16 + p.written) p.slots 0
  | none => d

/-- Opens a packet on a declared length for a producer kind (R472): none where it is refused. -/
def Dev.qOpen (q prod len : Nat) (src flags tci frac time : Nat) (d : Dev) : Bool × Dev :=
  if !d.qFor q prod then (false, d)
  else if (d.qOpenPkt q).isSome then (false, d.qmEvt 4)
  else if len == 0 || d.qMaxLen q < len then (false, d.openRefused q 0)
  else if d.qRoom q < slotsFor len then (false, d.openRefused q 1)
  else
    let (sl, d) := d.takeSlots (slotsFor len)
    let d := (d.pktHeader sl len src flags tci frac time).linkSlots 16 sl 0
    (true, d.setQ q (d.qpkts q ++ [{ slots := sl, len := len }]))

/-- A whole packet of a declared length from a hardware producer. -/
def Dev.qPut (q prod : Nat) (src flags tci frac time : Nat) (bytes : List Byte) (d : Dev) : Bool × Dev :=
  match d.qOpen q prod bytes.length src flags tci frac time with
  | (false, d) => (false, d)
  | (true, d) =>
    match d.qOpenPkt q with
    | none => (false, d)
    | some p => (true, (d.pktPut p.slots 0 bytes).endOpenPkt q bytes.length false)

/-- A frame of the switch: opened with 0xFFFF, its slots taken as the data arrives; MAXLEN, MAXSLOT or an empty free list on the way
rewind it, or end it with ABORT where CT has shown it (R472 to R474). -/
def Dev.qPutFrame (q : Nat) (src flags tci frac time : Nat) (bytes : List Byte) (d : Dev) : Bool × Dev :=
  if !d.qFor q 1 || (d.qOpenPkt q).isSome then (false, d)
  else
    let n := bytes.length
    let room := d.qRoom q
    let fits := decide (slotsFor n ≤ room)
    let good := fits && decide (n ≤ d.qMaxLen q)
    if good then
      let (sl, d) := d.takeSlots (slotsFor n)
      let d := (d.pktHeader sl 0xFFFF src flags tci frac time).pktPut sl 0 bytes
      let d := d.setQ q (d.qpkts q ++ [{ slots := sl, len := 0xFFFF }])
      (true, d.endOpenPkt q n false)
    else if room == 0 then (true, ((d.qmEvt 2).inc Reg.QM_CNT_REWIND 32).inc (Reg.QM_Q_CNT q) 32)
    else
      let got := min (min n (d.qMaxLen q)) (128 * room - 16)
      let (sl, d) := d.takeSlots (slotsFor got)
      let d := (d.pktHeader sl 0xFFFF src flags tci frac time).pktPut sl 0 (bytes.take got)
      let d := (d.setQ q (d.qpkts q ++ [{ slots := sl, len := 0xFFFF }])).qWritten q got
      (true, d.rewind q)

/-- The head packet leaves: its slots return (R475). -/
def Dev.qPop (q : Nat) (d : Dev) : Dev :=
  match d.qpkts q with
  | [] => d
  | p :: rest => (d.giveSlots p.slots.length).setQ q rest

/-- The head packet of a queue that a hardware consumer may take: one that has ended (R473). -/
def Dev.qHead (d : Dev) (q : Nat) : Option Pkt :=
  match d.qpkts q with
  | p :: _ => if p.vis && p.ended then some p else none
  | [] => none

/-! ### Commands -/

/-- QM_Q_OPEN, a write of QM_Q_OPEN_q by software (R472, R476): a queue that is disabled or of another kind refuses it with CMD_REF. -/
def qmOpenWrite (q : Nat) (v : Word) (d : Dev) : Dev :=
  let len := fieldOf v 0 16
  if !d.qFor q 0 then d.qmEvt 4
  else if (d.qOpenPkt q).isSome then d.qmEvt 4
  else if len == 0xFFFF then d.openRefused q 0
  else (d.qOpen q 0 len 0xFF 0 0 (d.tb.dt / 2 ^ 32 % 65536) d.now).2

/-- COMMIT (R473, R474). -/
def Dev.qCommit (q len : Nat) (d : Dev) : Dev :=
  match d.qOpenPkt q with
  | none => d.qmEvt 4
  | some p =>
    if d.qProd q != 0 then d.qmEvt 4
    else if p.drop then d.cutOpenPkt q
    else if p.len < len then d.rewind q
    else d.endOpenPkt q len false

/-- ABORT (R474). -/
def Dev.qAbort (q : Nat) (d : Dev) : Dev := if (d.qOpenPkt q).isNone || d.qProd q != 0 then d.qmEvt 4 else d.rewind q

/-- DROP, and DONE on a head packet that has not ended (R475). -/
def Dev.qDrop (q : Nat) (d : Dev) : Dev :=
  match d.qpkts q with
  | p :: rest =>
    if !p.vis then d.qmEvt 4
    else if p.ended then d.qPop q
    else (d.giveSlots p.slots.length).setQ q ({ p with slots := [], vis := false, drop := true } :: rest)
  | [] => d.qmEvt 4

/-- A write of QM_Q_CMD_q: a word with more than one command is refused with CFG_ERR (R481). -/
def qmCmdWrite (q : Nat) (v : Word) (d : Dev) : Dev :=
  match fieldOf v 0 4 with
  | 0 => d
  | 1 => d.qCommit q (fieldOf v 16 16)
  | 2 => d.qAbort q
  | 4 => d.qDrop q
  | 8 => d.qDrop q
  | _ => d.qmEvt 5

/-- A write of QM_Q_CFG_q: CONS 3, or a change of PROD, CONS or PFX while the queue holds slots, is refused (R481). -/
def qmCfgWrite (q : Nat) (v : Word) (d : Dev) : Dev :=
  let o := d.rd (Reg.QM_Q_CFG q)
  if fieldOf v 3 2 == 3 then d.qmEvt 5
  else if d.fld (Reg.QM_Q_USED q) 0 14 != 0 && (fieldOf v 1 4 != fieldOf o 1 4 || v.getLsbD 8 != o.getLsbD 8) then d.qmEvt 5
  else d.genWrite (Reg.QM_Q_CFG q) v

/-- A write of QM_Q_LIM_q: 0 stores 1. -/
def qmLimWrite (q : Nat) (v : Word) (d : Dev) : Dev :=
  d.genWrite (Reg.QM_Q_LIM q) (BitVec.ofNat 32 (max 1 (fieldOf v 0 14) + max 1 (fieldOf v 16 14) * 65536))

/-- A write of `n` bytes of software to the packet memory: data bytes of an open packet count towards CT (R473). -/
def Dev.qmTouch (a n : Nat) (d : Dev) : Dev :=
  let s := (a - 0x20000000) / 128
  forN 64 (fun q d =>
    match d.qOpenPkt q with
    | none => d
    | some p =>
      if d.qProd q != 0 || p.drop then d
      else match (p.slots.zipIdx).find? fun e => e.1 == s with
        | none => d
        | some (_, i) =>
          let pos := 128 * i + a % 128 + n
          if pos ≤ 16 then d else d.qWritten q (min p.len (pos - 16))) d

/-! ### Meanings -/

def execQmQOpen (m : Master) (q : Fin 64) (v : Word) (s : State) : Host.Outcome State Fault Refusal := run (Dev.viaBus m (Reg.QM_Q_OPEN q) (qmOpenWrite q v)) s
def execQmCommit (m : Master) (q : Fin 64) (v : Word) (s : State) : Host.Outcome State Fault Refusal := run (Dev.viaBus m (Reg.QM_Q_CMD q) (qmCmdWrite q v)) s
def execQmAbort (m : Master) (q : Fin 64) (v : Word) (s : State) : Host.Outcome State Fault Refusal := run (Dev.viaBus m (Reg.QM_Q_CMD q) (qmCmdWrite q v)) s
def execQmDone (m : Master) (q : Fin 64) (v : Word) (s : State) : Host.Outcome State Fault Refusal := run (Dev.viaBus m (Reg.QM_Q_CMD q) (qmCmdWrite q v)) s
def execQmDrop (m : Master) (q : Fin 64) (v : Word) (s : State) : Host.Outcome State Fault Refusal := run (Dev.viaBus m (Reg.QM_Q_CMD q) (qmCmdWrite q v)) s

end Sys2Proof.Machine
end

