-- ==== Sys2Proof/Machine/Eth.lean ====
section
/-! DEFINITION. Ethernet ports, the switch, PRP, stamps and the transparent clock (spec/14_ports_queues_crc.md, R459 to R469, R479,
R480). A frame is a list of bytes from the destination address to the end of the payload, without the FCS. -/

namespace Sys2Proof.Machine

/-! ### Frames -/

/-- Bytes `i` to `i + n - 1` replaced. -/
def putAt (l : List Byte) (i : Nat) (bs : List Byte) : List Byte := l.take i ++ bs ++ l.drop (i + bs.length)

/-- The frame carries an 802.1Q tag. -/
def isTagged (f : List Byte) : Bool := fieldAt f 12 2 == 0x8100

/-- The frame without its tag. -/
def untag (f : List Byte) : List Byte := if isTagged f then f.take 12 ++ f.drop 16 else f

/-- The frame, which has no tag of its own, with one. -/
def addTag (tci : Nat) (f : List Byte) : List Byte := f.take 12 ++ [0x81#8, 0x00#8] ++ beBytes 2 tci ++ f.drop 12

/-- The redundancy control trailer at the end of a frame without tag: SeqNr, LanId (R465). Valid: the suffix 0x88FB, and LSDUsize
the bytes after the EtherType. -/
def prpTrailer (f : List Byte) : Option (Nat × Nat) :=
  let n := f.length
  if n < 20 then none
  else
    let t := f.drop (n - 6)
    if fieldAt t 4 2 == 0x88FB && fieldAt t 2 2 % 4096 == n - 14 then some (fieldAt t 0 2, fieldAt t 2 2 / 4096) else none

/-- Where the PTP header of a recognised frame without tag begins, and whether it stands in UDP (R467). -/
def ptpAt (f : List Byte) : Option (Nat × Bool) :=
  let v2 (o : Nat) : Bool := byteAt f (o + 1) % 16 == 2
  if (prpTrailer f).isSome then none
  else if fieldAt f 12 2 == 0x88F7 then (if v2 14 then some (14, false) else none)
  else if fieldAt f 12 2 == 0x0800 && byteAt f 14 == 0x45 && fieldAt f 20 2 % 0x4000 == 0 && byteAt f 23 == 17 &&
      (fieldAt f 36 2 == 319 || fieldAt f 36 2 == 320) then (if v2 42 then some (42, true) else none)
  else none

/-- EtherType 0x88F7 or UDP port 319 is found in a frame without its first tag, whatever the encapsulation (R467). -/
def looksPtp (f : List Byte) : Bool :=
  let f := untag f
  let ty := fieldAt f 12 2
  let ihl := 4 * (byteAt f 14 % 16)
  ty == 0x88F7 || (ty == 0x0800 && byteAt f 23 == 17 && fieldAt f (14 + ihl + 2) 2 == 319) ||
    (ty == 0x86DD && byteAt f 20 == 17 && fieldAt f 56 2 == 319)

/-- messageType of a PTP header. -/
def ptpType (f : List Byte) (o : Nat) : Nat := byteAt f o % 16

/-- Adds to the correctionField, saturated (R468); in UDP the checksum becomes 0 (R467). -/
def addCorr (o : Nat) (udp : Bool) (x : Int) (f : List Byte) : List Byte :=
  let c := sext 64 (fieldAt f (o + 8) 8) + x
  let f := putAt f (o + 8) (beBytes 8 (low 64 (min 0x7FFFFFFFFFFFFFFF c)))
  if udp then putAt f (o - 2) [0, 0] else f

/-- originTimestamp from the egress stamp, its fraction into correctionField (R469). -/
def oneStep (o : Nat) (udp : Bool) (stamp : Nat) (f : List Byte) : List Byte :=
  let ns := stamp / 65536
  addCorr o udp (stamp % 65536 : Nat) (putAt f (o + 34) (beBytes 6 (ns / 1000000000) ++ beBytes 4 (ns % 1000000000)))

/-! ### The switch -/

def Dev.swCnt (k : Nat) (d : Dev) : Dev := d.inc (Reg.SW_CNT k) 32
def Dev.ethCnt (n c : Nat) (d : Dev) : Dev := d.inc (Reg.ETH_CNT n c) 32
def Dev.prpEn (d : Dev) : Bool := d.bit Reg.SW_CTL 3
def Dev.tc (d : Dev) : Nat := d.fld Reg.SW_CTL 1 2

/-- The VLAN entry of a VID: MEMBER and UNTAG (R463). -/
def Dev.vlan (d : Dev) (vid : Nat) : Option (Nat × Nat) :=
  ((List.range 64).find? fun v => d.bit (Reg.SW_VLAN_0 + 4 * v) 31 && d.fld (Reg.SW_VLAN_0 + 4 * v) 0 12 == vid).map fun v =>
    (d.fld (Reg.SW_VLAN_0 + 4 * v) 12 5, d.fld (Reg.SW_VLAN_0 + 4 * v) 17 5)

/-- Learns a source address (R462): its port follows the last frame; a full set is reported. -/
def Dev.learn (vid mac port : Nat) (d : Dev) : Dev :=
  if !d.bit Reg.SW_CTL 4 then d else
  let others := d.net.macs.filter fun e => !(e.1 == vid && e.2.1 == mac)
  let here := others.filter fun e => Config.addrHash e.1 e.2.1 % 256 == Config.addrHash vid mac % 256
  if others.length == d.net.macs.length && decide (4 ≤ here.length) then d.setB Reg.SW_EVT 0 true
  else d.putNet { d.net with macs := (vid, mac, port, d.now) :: others }

/-- Slots that the egress queues hold. -/
def Dev.egSlots (d : Dev) : Nat :=
  (d.net.egress.map fun e => (e.2.map (·.slots.length)).foldl (· + ·) 0).foldl (· + ·) 0

/-- A frame joins an egress queue of port `p`; without room it is dropped and counted (R464). -/
def Dev.enqueue (p : Nat) (x : EgFrame) (f : List Byte) (d : Dev) : Dev :=
  let n := slotsFor f.length
  if d.fld Reg.SW_BUF 0 14 < d.egSlots + n || d.freeSlots < n then d.swCnt 1
  else
    let (sl, d) := d.takeSlots n
    let d := ((d.pktHeader sl f.length x.src 1 (x.stamp % 65536) x.tci (x.stamp / 65536)).pktPut sl 0 f).linkSlots (16 + f.length) sl 0
    let k := 8 * p + x.tci / 8192
    d.putNet { d.net with egress := SMap.put d.net.egress [] k (SMap.getD d.net.egress [] k ++ [{ x with slots := sl, len := f.length }]) }

/-- A frame to the internal port goes to the queue of its PCP, a PTP frame to SW_PTPQ (R464, R469). -/
def Dev.toQueue (x : EgFrame) (tagged ptp strip : Bool) (f : List Byte) (d : Dev) : Dev :=
  let r := d.rd (if ptp then Reg.SW_PTPQ else Reg.SW_RXQ (x.tci / 8192))
  if !r.getLsbD 7 then d.ethCnt x.src 3
  else
    let lan := d.prpEn && x.src == 1
    let bytes := if strip then f else addTag x.tci f
    let (ok, d) := d.qPutFrame (fieldOf r 0 6) x.src (16 * b2n ptp + 32 * b2n lan) (if strip && tagged then x.tci else 0) (x.stamp % 65536)
      (x.stamp / 65536) bytes
    if ok then d else d.ethCnt x.src 3

/-- The trailer of a copy for a LAN (R465). -/
def prpCopy (seq lan : Nat) (f : List Byte) : List Byte :=
  let f := f ++ List.replicate (54 - f.length) 0
  f ++ beBytes 2 seq ++ beBytes 2 (lan * 4096 + (f.length + 6 - 14) % 4096) ++ [0x88#8, 0xFB#8]

/-- Forwards a frame without tag to every port of a set (R462 to R466). -/
def Dev.forward (x : EgFrame) (tagged ptp : Bool) (dst untagMask : Nat) (f : List Byte) (d : Dev) : Dev :=
  let pair := d.prpEn && x.src == 4 && (nbit dst 0 || nbit dst 1)
  let seq := d.net.prpSeq
  let d := if pair && !ptp then (d.putNet { d.net with prpSeq := (seq + 1) % 65536 }) else d
  let d := forN 4 (fun p d =>
    if pair && decide (p < 2) then d.enqueue p x (if ptp then f else prpCopy seq (0xA + p) f)
    else if nbit dst p then d.enqueue p x f else d) d
  if nbit dst 4 then d.toQueue x tagged ptp (nbit untagMask 4) f else d

/-- The member ports a frame goes to (R462, R465, R468). -/
def Dev.destPorts (d : Dev) (vid mac src member : Nat) (prp : Bool) (f : List Byte) : Nat :=
  let pdelay := d.tc == 2 && decide (src < 4) && !prp && (match ptpAt f with
    | some (o, _) => ptpType f o == 2 || ptpType f o == 3 || ptpType f o == 0xA
    | none => false)
  if pdelay then 16
  else
    let known := if nbit (mac / 2 ^ 40) 0 then none else d.net.macs.find? fun e => e.1 == vid && e.2.1 == mac
    let all := match known with
      | some e => 2 ^ e.2.2.1
      | none => 31
    bitsOf 5 fun p => nbit all p && nbit member p && p != src &&
      !(d.prpEn && ((decide (src < 2) && decide (p < 4)) || ((src == 2 || src == 3) && decide (p < 2))))

/-- A frame enters the switch at a port, with its stamp in 2^-16 ns; with `prp` it came in a PRP trailer, in which no PTP frame is recognised
(R462 to R464, R467). -/
def Dev.ingress (src stamp pcp : Nat) (tsreq onestep prp : Bool) (f : List Byte) (d : Dev) : Dev :=
  let tagged := isTagged f
  let own := fieldAt f 14 2
  let prio := !tagged || own % 4096 == 0
  let pvid := d.fld (Reg.SW_PORT src) 0 12
  let pcp := if tagged && src == 4 then own / 8192 else pcp
  let tci := if prio then pvid + 8192 * pcp + (if tagged then own / 4096 % 2 * 4096 else 0) else own
  let vid := tci % 4096
  let g := untag f
  if !d.bit Reg.SW_CTL 0 then (if src < 4 then d.ethCnt src 3 else d)
  else match d.vlan vid with
    | none => d.swCnt 0
    | some (member, untagMask) =>
      if !nbit member src || (!tagged && d.bit (Reg.SW_PORT src) 16) then d.swCnt 0
      else
        let d := if (prp || (ptpAt g).isNone) && looksPtp g then d.swCnt 2 else d
        let d := d.learn vid (fieldAt g 6 6) src
        let x : EgFrame := { slots := [], len := 0, tci := tci, src := src, stamp := stamp, steps := d.net.steps, tsreq := tsreq, onestep := onestep }
        d.forward x tagged (!prp && (ptpAt g).isSome) (d.destPorts vid (fieldAt g 0 6) src member prp g) untagMask g

/-- The PRP side of a frame received on E0 or E1 (R465, R466): none where it is a later copy. -/
def Dev.prpReceive (n stamp : Nat) (f : List Byte) (d : Dev) : Option (List Byte) × Dev :=
  let tagged := isTagged f
  let g := untag f
  match prpTrailer g with
  | none => (some f, d)
  | some (seq, lan) =>
    let src := fieldAt g 6 6
    let ns := stamp / 65536
    let d := if lan == 0xA + n then d else (d.swCnt 4).setB Reg.SW_EVT 3 true
    let forget := d.fld Reg.SW_PRP 0 16 * 1000000
    let known := d.net.dups.find? fun e => e.1 == src
    let seen : List (Nat × Nat) := match known with
      | some e => e.2.filter fun (s : Nat × Nat) => decide (ns < s.2 + forget)
      | none => []
    if seen.any fun s => s.1 == seq then (none, d.swCnt 3)
    else
      let dups : List (Nat × List (Nat × Nat)) := match known with
        | some _ => d.net.dups.map fun (e : Nat × List (Nat × Nat)) => if e.1 == src then (src, (seq, ns) :: seen) else e
        | none => ((src, [(seq, ns)]) :: d.net.dups).take 256
      let out := (g.take (g.length - 6))
      (some (if tagged then addTag (fieldAt f 14 2) out else out), (d.putNet { d.net with dups := dups }))

/-! ### Commands -/

/-- ETH_LINK_CHANGE (R459, R479): a port comes up at the speed of its MODE, with SGMII at 10, 100 or 1000 Mbit/s as the PHY reports;
auto-negotiation can be done only where the mode makes it. -/
def ethLinkChange (n : Nat) (up : Bool) (speed : Nat) (anDone : Bool) (d : Dev) : Dev :=
  if !d.domainOn 5 || (up && !d.bit (Reg.ETH_CTL n) 0) then d else
  let was := d.bit (Reg.ETH_STAT n) 0
  let mode := d.fld (Reg.ETH_CTL n) 1 2
  let sp := if mode == 0 then 2 else if mode == 1 then 3 else min 2 speed
  let an := anDone && (mode == 2 || (mode == 0 && d.bit (Reg.ETH_CTL n) 3))
  let d := d.wr (Reg.ETH_STAT n) (BitVec.ofNat 32 (b2n up + 2 * b2n an + 4 * sp + 16 * b2n up))
  if up == was then d else d.setB (Reg.ETH_EVT n) (if up then 0 else 1) true

/-- A signed field of ETH_TS_ADJ in 2^-16 ns. -/
def Dev.tsAdj (d : Dev) (n lo : Nat) : Int := sext 16 (d.fld (Reg.ETH_TS_ADJ n) lo 16) * 4096

/-- ETH_FRAME_RECEIVED (R460, R467): drops and counts, then the switch. -/
def ethFrameReceived (n : Nat) (bytes : List Byte) (fcsOk : Bool) (stamp : Nat) (d : Dev) : Dev :=
  if !d.domainOn 5 || !d.bit (Reg.ETH_CTL n) 0 then d
  else if bytes.length + 4 < 64 || d.fld (Reg.ETH_MAXLEN n) 0 14 < bytes.length + 4 then d.ethCnt n 2
  else if !fcsOk then d.ethCnt n 1
  else if fieldAt (untag bytes) 12 2 == 0x8808 then d.ethCnt n 5
  else
    let d := d.ethCnt n 0
    let st := ((stamp : Int) + d.tsAdj n 0).toNat
    let pcp := d.fld (Reg.SW_PORT n) 12 3
    if d.prpEn && decide (n < 2) && (ptpAt (untag bytes)).isNone then
      match d.prpReceive n st bytes with
      | (none, d) => d
      | (some f, d) => d.ingress n st pcp false false ((prpTrailer (untag bytes)).isSome) f
    else d.ingress n st pcp false false false bytes

/-- Pushes an egress stamp into ETH_TXTS; the registers show the oldest entry (R469). -/
def Dev.showTxts (n : Nat) (d : Dev) : Dev :=
  match SMap.getD d.net.txts [] n with
  | (ns, id, ty) :: _ =>
    ((d.wr (Reg.ETH_TXTS_LO n) (BitVec.ofNat 32 ns)).wr (Reg.ETH_TXTS_HI n) (BitVec.ofNat 32 (ns / 2 ^ 32))).wr (Reg.ETH_TXTS_INFO n)
      (BitVec.ofNat 32 (id + ty * 65536 + 2 ^ 31))
  | [] => ((d.wr (Reg.ETH_TXTS_LO n) 0).wr (Reg.ETH_TXTS_HI n) 0).wr (Reg.ETH_TXTS_INFO n) 0

def Dev.pushTxts (n ns id ty : Nat) (d : Dev) : Dev :=
  let l := SMap.getD d.net.txts [] n
  if 4 ≤ l.length then d.setB (Reg.ETH_EVT n) 2 true
  else (d.putNet { d.net with txts := SMap.put d.net.txts [] n (l ++ [(ns, id, ty)]) }).showTxts n

/-- A frame leaves at a port: transparent clock, one-step stamps, TSREQ, padding (R460, R468, R469). -/
def Dev.transmit (n : Nat) (x : EgFrame) (stamp : Nat) (d : Dev) : Dev :=
  let f := d.pktBytes x.slots x.len
  let d := d.pktRead x.slots x.len
  let untagMask := match d.vlan (x.tci % 4096) with | some e => e.2 | none => 0
  let off := if nbit untagMask n then 0 else 4
  if d.fld (Reg.ETH_MAXLEN n) 0 14 < max 60 (f.length + off) + 4 then d.ethCnt n 3
  else
    let ptp := ptpAt f
    let (f, d) := match ptp with
      | none => (f, d)
      | some (o, udp) =>
        let ty := ptpType f o
        if x.src < 4 then
          if d.tc == 0 || 3 < ty then (f, d)
          else if x.steps != d.net.steps then (f, d.swCnt 2)
          else
            let pd : Int := if d.tc == 2 && ty == 0 then d.fld (Reg.ETH_PDELAY x.src) 0 24 * 4096 else 0
            (addCorr o udp ((stamp : Int) - x.stamp + pd) f, d)
        else if x.onestep then (oneStep o udp stamp f, d) else (f, d)
    let d := if !x.tsreq then d else
      match ptp with
      | some (o, _) => d.pushTxts n (stamp / 65536) (fieldAt f (o + 30) 2) (ptpType f o)
      | none => (d.pushTxts n (stamp / 65536) ((Config.freeWord d.freeCtr).toNat % 65536) ((Config.freeWord (d.freeCtr + 1)).toNat % 16)).nextFree.nextFree
    let f := if off == 0 then f else addTag x.tci f
    (d.send (.eth n (f ++ List.replicate (60 - f.length) 0))).ethCnt n 4

/-- The egress queue of a port that sends next: strict priority, 7 highest (R464). -/
def Dev.nextEgress (d : Dev) (n : Nat) : Option Nat :=
  ([7, 6, 5, 4, 3, 2, 1, 0].find? fun c => !(SMap.getD d.net.egress [] (8 * n + c)).isEmpty).map fun c => 8 * n + c

/-- Port 4 takes a frame from a queue whose consumer is the switch: which of them is left open (R464). -/
def Dev.fromQueue (stamp : Nat) (d : Dev) : Dev :=
  let qs := (List.range 64).filter fun q => d.bit Reg.QM_CTL 0 && d.bit (Reg.QM_Q_CFG q) 0 && d.qCons q == 1 && (d.qHead q).isSome
  if qs.isEmpty then d else
  let q := (qs.drop (Config.freeNat d.freeCtr % qs.length)).headD 0
  let d := d.nextFree
  match d.qHead q with
  | none => d
  | some p =>
    let fl := d.mrd (pktAddr p.slots 3) 1
    let pfx := if d.bit (Reg.QM_Q_CFG q) 8 then ((List.range 4).map fun w => leBytes 4 (d.rd (Reg.QM_PFX q w)).toNat).flatten.take 14 else []
    let f := pfx ++ d.pktBytes p.slots p.len
    let d := (d.pktRead p.slots p.len).qPop q
    if p.abort then d
    else d.ingress 4 stamp (d.fld (Reg.QM_Q_CFG q) 5 3) (nbit fl 2) (nbit fl 3) false f

/-- ETH_FRAME_TRANSMIT (R460, R464, R467): port `n` starts its next frame with its first bit at `stamp`; 4 is the internal port. -/
def ethFrameTransmit (n stamp : Nat) (d : Dev) : Dev :=
  if !d.domainOn 5 then d
  else if n == 4 then d.fromQueue stamp
  else if !d.bit (Reg.ETH_CTL n) 0 || !d.bit (Reg.ETH_STAT n) 0 then d
  else match d.nextEgress n with
    | none => d
    | some k =>
      match SMap.getD d.net.egress [] k with
      | [] => d
      | x :: rest =>
        let d := (d.putNet { d.net with egress := SMap.put d.net.egress [] k rest }).transmit n x ((stamp : Int) + d.tsAdj n 16).toNat
        d.giveSlots x.slots.length

/-- ADDRESS_AGE_OUT (R462): SW_AGE seconds of device time without a frame from the address, due where the sequencer has no instant before
their end; while device time stands still, at the sender's word. -/
def addressAgeOut (vid mac : Nat) (d : Dev) : Dev :=
  match d.net.macs.find? fun e => e.1 == vid && e.2.1 == mac with
  | none => d
  | some e =>
    let t := e.2.2.2 + d.fld Reg.SW_AGE 0 16 * 1000000000
    if d.tb.counting && decide (d.nextSeq < t) then d
    else
      let d := if d.tb.counting then d.advTo t else d
      d.putNet { d.net with macs := d.net.macs.filter fun e => !(e.1 == vid && e.2.1 == mac) }

/-- MDIO_GO, a write of SW_MDIO (R461). -/
def mdioGo (v : Word) (d : Dev) : Dev :=
  let busy := d.bit Reg.SW_MDIO 11
  if v.getLsbD 11 && busy then d.setB Reg.SW_EVT 2 true
  else
    let d := d.wr Reg.SW_MDIO ((v &&& 0xFFFF0FFF#32) ||| (if busy then 0x800#32 else 0))
    if !v.getLsbD 11 then d
    else
      let op := if v.getLsbD 10 then 1 else 2
      d.send (.mdio (BitVec.ofNat 32 (2 ^ 30 + op * 2 ^ 28 + fieldOf v 5 5 * 2 ^ 23 + fieldOf v 0 5 * 2 ^ 18 + 2 ^ 17 +
        (if v.getLsbD 10 then fieldOf v 16 16 else 0))))

/-- MDIO_DONE (R461): BUSY clears, a read brings its datum. -/
def mdioDone (data : BitVec 16) (d : Dev) : Dev :=
  if !d.bit Reg.SW_MDIO 11 then d else
  let d := (d.setB Reg.SW_MDIO 11 false).setB Reg.SW_EVT 1 true
  if d.bit Reg.SW_MDIO 10 then d else d.setF Reg.SW_MDIO 16 16 data.toNat

/-- ETH_TXTS_READ: the read of ETH_TXTS_INFO answers the oldest entry and removes it (R479). -/
def ethTxtsRead (n : Nat) (d : Dev) : Dev :=
  let r := d.rd (Reg.ETH_TXTS_INFO n)
  { (d.putNet { d.net with txts := SMap.put d.net.txts [] n ((SMap.getD d.net.txts [] n).drop 1) }).showTxts n with
    busResp := ⟨r, 0⟩ }

/-! ### Register writes -/

def Dev.ethRefuse (n : Nat) (d : Dev) : Dev := d.setB (Reg.ETH_EVT n) 3 true
def Dev.swRefuse (d : Dev) : Dev := d.setB Reg.SW_EVT 2 true

/-- ETH_CTL: MODE 3, and a change of MODE or AN_EN while EN is set, are refused (R459, R479). -/
def ethCtlWrite (n : Nat) (v : Word) (d : Dev) : Dev :=
  let o := d.rd (Reg.ETH_CTL n)
  if fieldOf v 1 2 == 3 || (o.getLsbD 0 && fieldOf v 1 3 != fieldOf o 1 3) then d.ethRefuse n else d.genWrite (Reg.ETH_CTL n) v

def ethMaxlenWrite (n : Nat) (v : Word) (d : Dev) : Dev :=
  if fieldOf v 0 14 < 64 || 9216 < fieldOf v 0 14 then d.ethRefuse n else d.genWrite (Reg.ETH_MAXLEN n) v

/-- SW_CTL: TC 3, changes of TC and PRP_EN while a port is enabled, and PRP_EN without one MODE on E0 and E1, are refused (R465, R480). -/
def swCtlWrite (v : Word) (d : Dev) : Dev :=
  let o := d.rd Reg.SW_CTL
  let anyEn := (List.range 4).any fun n => d.bit (Reg.ETH_CTL n) 0
  if fieldOf v 1 2 == 3 || (anyEn && fieldOf v 1 3 != fieldOf o 1 3) ||
      (v.getLsbD 3 && !o.getLsbD 3 && d.fld (Reg.ETH_CTL 0) 1 2 != d.fld (Reg.ETH_CTL 1) 1 2) then d.swRefuse
  else d.genWrite Reg.SW_CTL v

/-- SW_AGE and SW_PRP: 1 to 65,535. -/
def swTimeWrite (a : Nat) (v : Word) (d : Dev) : Dev := if fieldOf v 0 16 == 0 then d.swRefuse else d.genWrite a v
def swBufWrite (v : Word) (d : Dev) : Dev := if 8192 < fieldOf v 0 14 then d.swRefuse else d.genWrite Reg.SW_BUF v
def swPortWrite (p : Nat) (v : Word) (d : Dev) : Dev :=
  if fieldOf v 0 12 == 0 || fieldOf v 0 12 == 4095 then d.swRefuse else d.genWrite (Reg.SW_PORT p) v

/-- A VLAN entry with VID 0 or 4095 is refused (R463). -/
def swVlanWrite (a : Nat) (v : Word) (d : Dev) : Dev :=
  if fieldOf v 0 12 == 0 || fieldOf v 0 12 == 4095 then d.swRefuse else d.genWrite a v

/-! ### Meanings -/

def execEthLinkChange (n : Fin 4) (up : Bool) (speed : Fin 4) (anDone : Bool) (s : State) : Host.Outcome State Fault Refusal := run (ethLinkChange n up speed anDone) s
def execEthFrameReceived (n : Fin 4) (bytes : List Byte) (fcsOk : Bool) (stamp : Nat) (s : State) : Host.Outcome State Fault Refusal := run (Dev.inNet (ethFrameReceived n bytes fcsOk stamp)) s
def execEthFrameTransmit (n : Fin 5) (stamp : Nat) (s : State) : Host.Outcome State Fault Refusal := run (Dev.inNet (ethFrameTransmit n stamp)) s
def execAddressAgeOut (vid : BitVec 12) (mac : BitVec 48) (s : State) : Host.Outcome State Fault Refusal := run (addressAgeOut vid.toNat mac.toNat) s
def execMdioGo (m : Master) (v : Word) (s : State) : Host.Outcome State Fault Refusal := run (Dev.viaBus m Reg.SW_MDIO (mdioGo v)) s
def execMdioDone (data : BitVec 16) (s : State) : Host.Outcome State Fault Refusal := run (mdioDone data) s

end Sys2Proof.Machine
end

