-- ==== Sys2Proof/Machine/Cells.lean ====
section
/-! DEFINITION. The cell table at an ENG_START: held records and ages, the transitions of R176 in the order of R537, the fault check of
R388, and the input image (spec/01_control_period.md, R24; spec/05_cell_link.md, R167, R176 to R178, R537; spec/07_accord_isa.md, R247). -/

namespace Sys2Proof.Machine

/-- A cell changes its state: CELL_STAT, CELL_EVT (R176, R181). -/
def Dev.moveCell (c st : Nat) (d : Dev) : Dev :=
  let was := d.cellState c
  let d := (d.setF (Reg.CELL_STAT c) 0 3 st).setB (Reg.CELL_EVT (c / 32)) (c % 32) true
  d.setCell c fun x => { x with unby := x.unby && was != 4, unbyOn := false, disc := x.disc && st != 0, startLd := st == 3 }

/-- CELL_STAT.PEND: a request waits for an ENG_START or for the node (R181). -/
def Dev.cellPend (c : Nat) (d : Dev) : Dev := d.setB (Reg.CELL_STAT c) 3 ((d.cell c).req.isSome || (d.cell c).unby)

/-- A cell with a position. -/
def Dev.mapped (d : Dev) (c : Nat) : Bool := d.fld (Reg.CELL_MAP c) 8 4 != 0

/-- Another ACTIVE or SPARE cell finds no room in the cluster of a cell (R176). -/
def Dev.clusterFull (d : Dev) (c : Nat) : Bool :=
  let cl := d.fld (Reg.CELL_MAP c) 16 3
  decide (48 ≤ (cellIds.filter fun x => x != c && (d.cellState x == 2 || d.cellState x == 3) && d.fld (Reg.CELL_MAP x) 16 3 == cl).length)

/-- NSTATE of the last accepted record. -/
def Dev.nstate (d : Dev) (c : Nat) : Nat := d.fld (Reg.CELL_STAT c) 8 3

/-- The limit of the age, 1 to 15. -/
def Dev.stale (d : Dev) : Nat := d.fld Reg.CELL_CTL 0 4

/-- Cause 1: what the node reports (R176, R537). -/
def Dev.causeReport (d : Dev) (c : Nat) : Option Nat :=
  let st := d.cellState c
  let x := d.cell c
  if x.acc && st != 0 && st != 4 && d.nstate c == 5 then some 4
  else if st == 4 && (x.newBoots || (x.acc && x.unbyOn && d.nstate c == 1)) then some 1
  else none

/-- Cause 2: staleness (R167). -/
def Dev.causeStale (d : Dev) (c : Nat) : Option Nat :=
  let st := d.cellState c
  if (d.cell c).age < d.stale then none else if st == 3 then some 5 else if st == 1 || st == 2 || st == 4 then some 0 else none

/-- Cause 4: discovery (R176). -/
def Dev.causeFound (d : Dev) (c : Nat) : Option Nat := if d.cellState c == 0 && d.mapped c && (d.cell c).disc then some 1 else none

/-- Cause 5: AUTO_SPARE (R176, R537). -/
def Dev.causeSpare (d : Dev) (c : Nat) : Option Nat :=
  if d.cellState c == 1 && d.bit Reg.CELL_CTL 4 && !d.clusterFull c then some 2 else none

/-- The ports of a cell's ring. -/
def Dev.cellPorts (d : Dev) (c : Nat) : List Nat :=
  (List.range 24).filter fun p => d.bit (Reg.RING_LINK_CTL p) 0 && d.ringOf p == d.fld (Reg.CELL_MAP c) 0 5

/-- What refuses a request for ACTIVE, as its CELL_ERR bit, the first of R176's conditions that holds. -/
def Dev.activeRefusal (d : Dev) (c : Nat) : Option Nat :=
  let st := d.cellState c
  let ports := d.cellPorts c
  let pos := d.fld (Reg.CELL_MAP c) 8 4
  if ports.any fun p => d.bit (Reg.RING_SLACK_C p) 31 || d.bit (Reg.RING_SLACK_M p) 31 then some 1
  else if ports.any fun p => d.bit (Reg.RING_REC_EARLY p) (pos - 1) then some 2
  else if d.nstate c != 1 && d.nstate c != 2 then some 3
  else if st != 2 && d.clusterFull c then some 4
  else if st == 5 && (d.cell c).age != 0 then some 3
  else none

/-- A pending CELL_REQ against the cell's state: the new state, or the CELL_ERR bit that refuses it; neither where the cell already is
there (R176, R537). -/
def Dev.judgeReq (d : Dev) (c want : Nat) : Option Nat × Option Nat :=
  let st := d.cellState c
  if want == st then (none, none)
  else if want == 0 then (if st == 3 then (none, some 0) else (some 0, none))
  else if want == 2 then
    if st == 1 then (if d.clusterFull c then (none, some 4) else (some 2, none))
    else if st == 3 then (some 2, none) else (none, some 0)
  else if want == 3 then
    if st == 1 || st == 2 || st == 5 then
      match d.activeRefusal c with
      | some e => (none, some e)
      | none => (some 3, none)
    else (none, some 0)
  else if st == 0 then (none, some 0) else (some 4, none)

/-- One cause over all cells in ascending order; a cell that has moved is left (R537). `m` lists the cells that have. -/
def cellPass (cause : Dev → Nat → Option Nat) (cells : List Nat) (m : List Nat × Dev) : List Nat × Dev :=
  cells.foldl (fun m c =>
    if m.1.contains c then m
    else match cause m.2 c with
      | some st => (c :: m.1, m.2.moveCell c st)
      | none => m) m

/-- A pending CELL_REQ.UNBYPASS is refused where the cell is not BYPASSED; else it takes effect and stays pending until the cell leaves that
state (R176 to R178). -/
def Dev.judgeUnby (c : Nat) (d : Dev) : Dev :=
  if !(d.cell c).unby then d
  else if d.cellState c == 4 then d.setCell c fun x => { x with unbyOn := true }
  else (d.setCell c fun x => { x with unby := false }).setB Reg.CELL_ERR 0 true

/-- Cause 3: the pending requests (R176, R537). One that is refused, or changes nothing, is the cause taken too. -/
def reqPass (cells : List Nat) (m : List Nat × Dev) : List Nat × Dev :=
  cells.foldl (fun m c =>
    if m.1.contains c || !((m.2.cell c).req.isSome || (m.2.cell c).unby) then m
    else
      let d := m.2.judgeUnby c
      match (d.cell c).req with
      | none => (c :: m.1, d)
      | some want =>
        let d := d.setCell c fun x => { x with req := none }
        match d.judgeReq c want with
        | (some st, _) => (c :: m.1, d.moveCell c st)
        | (none, some e) => (c :: m.1, d.setB Reg.CELL_ERR e true)
        | (none, none) => (c :: m.1, d)) m

/-- The records of the period become the held ones, ages rise (R24, R167). -/
def Dev.cellAge (c : Nat) (d : Dev) : Dev :=
  let d := d.setCell c fun x =>
    { x with prev := x.img, img := if x.acc then x.fill else x.img, age := if x.acc then 0 else min 15 (x.age + 1), startLd := false }
  d.setF (Reg.CELL_STAT c) 4 4 (d.cell c).age

/-- FLT_CELL_FAULT where a selected bit shows: it names the lowest cell (R374, R388). -/
def Dev.cellFault (d : Dev) : Dev :=
  match cellIds.find? fun c => d.cellState c == 3 && d.cellBits (d.cell c).img != 0 with
  | some c => (d.putFc { d.fc with cellData := c }).raise 81
  | none => d

/-- A write of GATE_SUP_CELL: a bit that it selects may show already (R374, R388). -/
def gateSupCellWrite (v : Word) (d : Dev) : Dev :=
  let was := d.srcActive 81
  let d := d.genWrite Reg.GATE_SUP_CELL v
  if was then d else d.cellFault

/-- The cells at an ENG_START (R24, R167, R176, R178, R388, R537). The period's acceptances are cleared by `cellsDone`. -/
def Dev.cellsStart (d : Dev) : Dev :=
  let was := d.srcActive 81
  let cells := cellIds.filter fun c => d.mapped c || (d.cell c).req.isSome || (d.cell c).unby
  -- RING_CNT_MISS
  let d := forN 24 (fun p d =>
    if d.inRun p then
      let n := ((List.range (d.nslot p)).filter fun i => match d.cellAt (d.ringOf p) (i + 1) with
        | some c => decide (1 ≤ d.cellState c) && decide (d.cellState c ≤ 4) && !(d.cell c).acc
        | none => false).length
      d.incBy (Reg.RING_CNT_MISS p) n
    else d) d
  let d := cells.foldl (fun d c => if d.mapped c then d.cellAge c else d) d
  let m := cellPass Dev.causeReport cells ([], d)
  let before := m.2
  let m := cellPass Dev.causeStale cells m
  let lost := cells.filter fun c => before.cellState c == 3 && m.2.cellState c == 5
  let m := reqPass cells m
  let m := cellPass Dev.causeFound cells m
  let m := cellPass Dev.causeSpare cells m
  let d := cells.foldl (fun d c => (d.setCell c fun x => { x with newBoots := false }).cellPend c) m.2
  let d := match lost with
    | [] => d
    | c :: _ => lost.foldl (fun d _ => d.raise 80) (d.putFc { d.fc with lostCell := c })
  -- R388
  let bad := cells.filter fun c => d.cellState c == 3 && d.cellBits (d.cell c).img &&& d.cellBits (d.cell c).prev != d.cellBits (d.cell c).img
  match bad with
  | [] => if was then d else d.cellFault
  | c :: _ => (d.putFc { d.fc with cellData := c }).raise 81

/-- The next period's records may be accepted. -/
def Dev.cellsDone (d : Dev) : Dev := d.putCells (d.cells.map fun e => (e.1, { e.2 with acc := false }))

/-- The engines' input image (R22, R247). Bit 0 of word 0x140C stands as every enabled engine has its p3; where they differ, the word that
leaves in SNAP holds a free value there (R272). -/
def Dev.inputImage (d : Dev) (p3 : Bool) : SMap Word :=
  let cell (c : Nat) : List (Nat × Word) :=
    let x := d.cell c
    ((List.range 6).map fun w => (32 * c + 4 * w, BitVec.ofNat 32 (fieldAt x.img (4 * w) 4))) ++
      [(32 * c + 24, BitVec.ofNat 32 (d.cellState c + 16 * x.age + 256 * b2n x.acc + 65536 * d.fld (Reg.CELL_MAP c) 16 3)),
       (32 * c + 28, d.rd (Reg.CELL_SEEN c))]
  let conv (i : Nat) : List (Nat × Word) :=
    let r := SMap.getD d.snap (0, 0) i
    [(0x1200 + 8 * i, r.1), (0x1204 + 8 * i, r.2)]
  let b := SMap.getD d.snap (0, 0) 65
  let tail : List (Nat × Word) :=
    [(0x1400, BitVec.ofNat 32 d.tb.k), (0x1404, b.1), (0x1408, b.2),
     (0x140C, BitVec.ofNat 32 (b2n p3 + 2 * b2n (d.role == 3 || d.role == 4) + 4 * b2n (decide (2 ≤ d.fc.hold)))),
     (0x1410, (SMap.getD d.snap (0, 0) 64).1)]
  ((cellIds.map cell).flatten ++ ((List.range 64).map conv).flatten ++ tail).filter fun e => e.2 != 0

end Sys2Proof.Machine
end

