-- ==== Sys2Proof/Machine/Flags.lean ====
section
/-! DEFINITION. Rounding, saturation and predicates of the Accord instructions (spec/07_accord_isa.md, R225, R229 to R231, R233). -/

namespace Sys2Proof.Machine

/-- The signed reading of a word. -/
def sI (w : Word) : Int := w.toInt

/-- Clamped to a signed range of `n` bits, and whether that changed it (R229). -/
def satN (n : Nat) (v : Int) : Int × Bool :=
  let c := clampI (-(2 ^ (n - 1) : Nat)) ((2 ^ (n - 1) : Nat) - 1) v
  (c, c != v)

/-- Round half up: down by `k` bits (R230). -/
def rndShift (k : Nat) (v : Int) : Int := if k == 0 then v else (v + (2 ^ (k - 1) : Nat)) / (2 ^ k : Nat)

/-- The signed reading of an accumulator. -/
def accI (a : Nat) : Int := sext 72 a

/-- A result with its latency, and the saturation flag where a clamp changed the value. -/
def regSat (lat rd : Nat) (v : Int × Bool) : List (Nat × Act) := (lat, .reg rd (wordI v.1)) :: (if v.2 then [(1, .sat)] else [])

/-- The value of a predicate as an instruction sees it. -/
def Regs.pr (r : Regs) (n : Nat) : Bool := n == 0 || r.p.getLsbD n

/-- The predicate condition of an instruction holds (R224). -/
def predHolds (p : Pred) (r : Regs) : Bool := r.pr p.num != p.neg

/-- The body in progress is suppressed (R243). -/
def Regs.suppressed (r : Regs) : Bool := (r.l0.act && r.l0.sup) || (r.l1.act && r.l1.sup)

/-- A compare's combination with its predicate (R233). -/
def combine (comb : Nat) (old c : Bool) : Bool :=
  match comb with
  | 0 => c | 1 => old && c | 2 => old || c | _ => !c

/-- Writes a predicate; p0 never, p3 not in an engine (R233). -/
def predAct (engine : Bool) (n : Nat) (b : Bool) : List (Nat × Act) :=
  if n == 0 || (engine && n == 3) then [] else [(1, .pred n b)]

end Sys2Proof.Machine
end

