-- ==== Sys2Proof/Machine/Operands.lean ====
section
/-! DEFINITION. The operand forms of the Accord instructions (spec/07_accord_isa.md, R227, R228, R237): the second operand, addresses,
and which bits must be zero. An operand function answers none where the pattern is illegal. -/

namespace Sys2Proof.Machine

def Regs.rg (r : Regs) (i : Nat) : Word := SMap.getD r.g 0 i
def Regs.ac (r : Regs) (i : Nat) : Nat := SMap.getD r.acc 0 i
def Regs.lp (r : Regs) (c : Nat) : Loop := if c == 0 then r.l0 else r.l1

/-- X of an index field: 0, lc0 or lc1 (R237). -/
def Regs.ix (r : Regs) (ix : Nat) : Nat := if ix == 1 then r.l0.idx else if ix == 2 then r.l1.idx else 0

/-- Both operands of a format R or I instruction: rd, rs, op as a word, the mod bits (0 in I form); the immediate is sign-extended
or, with `zx`, zero-extended. `mask` are the mod bits that may be set. -/
def riOps (x : RI) (r : Regs) (zx : Bool) (mask : BitVec 10) : Option (Nat × Word × Word × BitVec 10) :=
  match x with
  | .r rd rs rt md => if md &&& ~~~mask == 0 then some (rd, r.rg rs, r.rg rt, md) else none
  | .i rd rs imm => some (rd, r.rg rs, if zx then imm.zeroExtend 32 else imm.signExtend 32, 0)

/-- The address of a format M instruction with scale `s` (R237); ix 3 is legal only where `byte` says so. -/
def mAddr (x : MOp) (r : Regs) (s : Nat) (byte : Bool) : Option Nat :=
  if x.ix == 3 && !byte then none
  else some (r.rg x.rb + x.off.signExtend 32 + BitVec.ofNat 32 (s * r.ix x.ix)).toNat

/-- rb + X of a format T instruction (R245). -/
def tBase (x : TOp) (r : Regs) : Option Nat :=
  if x.ix == 3 then none else some ((r.rg x.rb).toNat + r.ix x.ix)

/-- Field of `w` bits from bit `lo` of a special instruction's own bits, where the bits outside `mask` are zero. -/
def ownBits {n : Nat} (b : BitVec n) (mask : Nat) : Option Nat :=
  if b.toNat &&& mask == b.toNat then some b.toNat else none

end Sys2Proof.Machine
end

