-- ==== Sys2Proof/Machine/Accord.lean ====
section
/-! DEFINITION. The shared instructions of the Accord set as functions of the registers: what each computes, to the last bit, with the
latency of R255 (spec/07_accord_isa.md, R229 to R236). None is an illegal pattern (R264). -/

namespace Sys2Proof.Machine

/-- What an instruction does to its registers: latency and effect of each result; the flag says that an engine runs it. -/
abbrev AluOp := Bool → Regs → Option (List (Nat × Act))

/-- An operation of two words into rd, one cycle. -/
def aluBin (x : RI) (zx : Bool) (f : Word → Word → Word) : AluOp := fun _ r =>
  (riOps x r zx 0).map fun (rd, a, b, _) => [(1, .reg rd (f a b))]

/-- ADD and SUB: S saturates (R232). -/
def aluSum (x : RI) (f : Int → Int → Int) : AluOp := fun _ r =>
  (riOps x r false 1).map fun (rd, a, b, md) =>
    let v := f (sI a) (sI b)
    if md == 1 then regSat 1 rd (satN 32 v) else [(1, .reg rd (wordI v))]

/-- The count of a shift: op[5:0]; the I form has imm14[13:6] zero (R232). -/
def shiftOps (x : RI) (r : Regs) (mask : BitVec 10) : Option (Nat × Word × Nat × BitVec 10) :=
  match x with
  | .r _ _ _ _ => (riOps x r true mask).map fun (rd, a, b, md) => (rd, a, b.toNat % 64, md)
  | .i rd rs imm => if imm.toNat < 64 then some (rd, r.rg rs, imm.toNat, 0) else none

/-- SHL: S is the saturating shift. -/
def aluShl (x : RI) : AluOp := fun _ r =>
  (shiftOps x r 1).map fun (rd, a, n, md) =>
    if md == 1 then regSat 1 rd (satN 32 (sI a * (2 ^ n : Nat))) else [(1, .reg rd (a <<< n))]

def aluShr (x : RI) : AluOp := fun _ r => (shiftOps x r 0).map fun (rd, a, n, _) => [(1, .reg rd (a >>> n))]
def aluSar (x : RI) : AluOp := fun _ r => (shiftOps x r 0).map fun (rd, a, n, _) => [(1, .reg rd (a.sshiftRight n))]

/-- Less-than as the U bit gives it. -/
def ltU (u : Bool) (a b : Word) : Bool := if u then a.ult b else a.slt b

/-- MIN and MAX. -/
def aluMinMax (x : RI) (max : Bool) : AluOp := fun _ r =>
  (riOps x r false 1).map fun (rd, a, b, md) => [(1, .reg rd (if ltU (md == 1) a b != max then a else b))]

/-- ABS and NEG: R form with rt and mod zero (R232). -/
def aluUn (x : RI) (f : Int → Int) : AluOp := fun _ r =>
  match x with
  | .r rd rs rt md => if rt == 0 && md == 0 then some (regSat 1 rd (satN 32 (f (sI (r.rg rs))))) else none
  | .i _ _ _ => none

/-- SAT: I form only, to n = imm14[4:0] + 1 bits. -/
def aluSat (x : RI) : AluOp := fun _ r =>
  match x with
  | .i rd rs imm => if imm.toNat < 32 then some (regSat 1 rd (satN (imm.toNat + 1) (sI (r.rg rs)))) else none
  | .r _ _ _ _ => none

/-- The compares: COMB and pd in the rd field; `u` says that a U form exists (R232, R233). -/
def aluCmp (x : RI) (u : Bool) (f : Bool → Word → Word → Bool) : AluOp := fun eng r =>
  (riOps x r false (if u then 1 else 0)).map fun (rd, a, b, md) =>
    let pd := rd % 4
    predAct eng pd (combine (rd / 4) (r.pr pd) (f (md == 1) a b))

/-- MUL: the low word of the signed product, with H the high one (R234). -/
def aluMul (x : RI) : AluOp := fun _ r =>
  (riOps x r false 1).map fun (rd, a, b, md) =>
    let p := sI a * sI b
    [(3, .reg rd (wordI (if md == 1 then p / 2 ^ 32 else p)))]

/-- The low half-word, signed. -/
def halfI (w : Word) : Int := sext 16 w.toNat

/-- MULQ: R form only; H takes the q15 halves (R231, R234). -/
def aluMulq (x : RI) : AluOp := fun _ r =>
  match x with
  | .i _ _ _ => none
  | .r _ _ _ _ =>
    (riOps x r false 1).map fun (rd, a, b, md) =>
      if md == 1 then regSat 3 rd (satN 16 (rndShift 16 (2 * halfI a * halfI b)))
      else regSat 3 rd (satN 32 (rndShift 32 (2 * sI a * sI b)))

/-- MAC and MSU: accumulator rd[1:0] with rd[3:2] zero; Q adds the q63 product at full width (R231, R234). -/
def aluMac (x : RI) (sign : Int) : AluOp := fun _ r =>
  match x with
  | .i _ _ _ => none
  | .r rd _ _ _ =>
    if 4 ≤ rd.val then none
    else (riOps x r false 1).map fun (rd, a, b, md) =>
      [(3, .accAdd rd (sign * (if md == 1 then 2 * (sI a * sI b) else sI a * sI b)))]

/-- MOV and its kinds (R235). -/
def aluMov (x : RI) : AluOp := fun eng r =>
  match x with
  | .i _ _ _ => none
  | .r rd rs rt md =>
    let kind := md.toNat % 16
    let sh := md.toNat / 16
    let v := r.rg rs
    let a := r.ac rs
    if rt != 0 then none
    else if kind != 1 && kind != 2 && sh != 0 then none
    else match kind with
      | 0 => some [(1, .reg rd v)]
      | 1 => if rs < 4 then some (regSat 1 rd (satN 32 (rndShift sh (accI a)))) else none
      | 2 => if rd < 4 && sh ≤ 40 then some [(1, .acc rd 0 72 (low 72 (sI v * (2 ^ sh : Nat))))] else none
      | 3 => if rd < 4 && rs == 0 then some [(1, .acc rd 0 72 0)] else none
      | 4 => if rs < 2 then some [(1, .reg rd (BitVec.ofNat 32 (r.lp rs).idx))] else none
      | 5 => if rs < 4 then some [(1, .reg rd (wordI (sext 8 (a / 2 ^ 64))))] else none
      | 6 => if rs < 4 then some [(1, .reg rd (BitVec.ofNat 32 a))] else none
      | 7 => if rs < 4 then some [(1, .reg rd (BitVec.ofNat 32 (a / 2 ^ 32)))] else none
      | 8 => if rd < 4 then some [(1, .acc rd 0 32 v.toNat)] else none
      | 9 => if rd < 4 then some [(1, .acc rd 32 32 v.toNat)] else none
      | 10 => if rd < 4 then some [(1, .acc rd 64 8 (v.toNat % 256))] else none
      | 11 => if rs == 0 then some [(1, .reg rd (BitVec.ofNat 32 (bitsOf 4 r.pr)))] else none
      | 12 => if rd == 0 then some (predAct eng 1 (v.getLsbD 1) ++ predAct eng 2 (v.getLsbD 2) ++ predAct eng 3 (v.getLsbD 3)) else none
      | _ => none

/-- The source registers of an instruction of format R or I; with `one`, rt is no source (R227, R228, R257). -/
def riSrc (one : Bool) : RI → List Nat
  | .r _ rs rt _ => if one then [rs.val] else [rs.val, rt.val]
  | .i _ rs _ => [rs.val]

/-- The sources of MOV by its kind: a register, an accumulator or neither (R235). -/
def movSrc : RI → List Nat
  | .r _ rs _ md =>
    let kind := md.toNat % 16
    if [1, 5, 6, 7].contains kind then [16 + rs.val] else if [0, 2, 8, 9, 10, 12].contains kind then [rs.val] else []
  | .i _ _ _ => []

/-- MOVI (R236). -/
def aluMovi (rd : Nat) (imm : BitVec 19) : AluOp := fun _ _ => some [(1, .reg rd (imm.signExtend 32))]

/-- MOVH: imm19[18:16] zero (R236). -/
def aluMovh (rd : Nat) (imm : BitVec 19) : AluOp := fun _ r =>
  if imm.toNat < 65536 then some [(1, .reg rd (BitVec.ofNat 32 (imm.toNat * 65536 + (r.rg rd).toNat % 65536)))] else none

/-! ### Landing -/

/-- A result lands in the registers. -/
def Regs.land (a : Act) (r : Regs) : Regs :=
  match a with
  | .reg i w => { r with g := SMap.put r.g 0 i w }
  | .pred n b => { r with p := (r.p &&& ~~~(1#4 <<< n)) ||| (if b then 1#4 <<< n else 0) }
  | .acc i lo w v =>
    let o := r.ac i
    { r with acc := SMap.put r.acc 0 i (o - o / 2 ^ lo % 2 ^ w * 2 ^ lo + v % 2 ^ w * 2 ^ lo) }
  | .accAdd i x => { r with acc := SMap.put r.acc 0 i (low 72 ((r.ac i : Int) + x)) }
  | _ => r

/-! ### Loops -/

/-- COUNT and LEN of a LOOP, where its form is legal: 0 means 65,536 and, in the immediate form, 512 (R241). -/
def loopParams (x : LOp) (engine : Bool) (r : Regs) : Option (Nat × Nat × Nat) :=
  match x with
  | .imm c count len => some (c, if count == 0 then 65536 else count.toNat, if len == 0 then 512 else len.toNat)
  | .reg c rs z len =>
    if engine || z != 0 || len == 0 then none
    else let n := (r.rg rs).toNat % 65536; some (c, if n == 0 then 65536 else n, len.toNat)

/-- A LOOP at position `pc`, body positions `unit` apart, may start (R242). -/
def loopLegal (engine : Bool) (r : Regs) (c pc fin : Nat) : Bool :=
  let o := r.lp (1 - c)
  !((r.l0.act && r.l0.fin == pc) || (r.l1.act && r.l1.fin == pc)) && !(o.act && o.fin < fin) && !(engine && 8191 < fin)

/-- Loop `c` starts; `sup` where the LOOP was predicated false (R241, R243). -/
def Regs.loopStart (r : Regs) (c beg fin count : Nat) (sup : Bool) : Regs :=
  let l : Loop := { act := true, beg := beg, fin := fin, rem := count, idx := 0, sup := sup }
  if c == 0 then { r with l0 := l } else { r with l1 := l }

/-- One loop at the end of its body: the next position where it goes round (R241). -/
def Loop.next (l : Loop) : Loop × Option Nat :=
  if 1 < l.rem then ({ l with rem := l.rem - 1, idx := l.idx + 1 }, some l.beg) else ({ l with act := false, sup := false }, none)

/-- The position after an instruction at `pc`, whose natural successor is `succ`: where both loops end on it the one started later,
which lies further in, is resolved first (R242). -/
def Regs.advance (r : Regs) (pc succ : Nat) : Regs × Nat :=
  let at0 := r.l0.act && r.l0.fin == pc
  let at1 := r.l1.act && r.l1.fin == pc
  let do0 (r : Regs) : Regs × Option Nat := let (l, n) := r.l0.next; ({ r with l0 := l }, n)
  let do1 (r : Regs) : Regs × Option Nat := let (l, n) := r.l1.next; ({ r with l1 := l }, n)
  if at0 && at1 then
    if r.l1.beg < r.l0.beg then
      match do0 r with
      | (r, some n) => (r, n)
      | (r, none) => let (r, n) := do1 r; (r, n.getD succ)
    else
      match do1 r with
      | (r, some n) => (r, n)
      | (r, none) => let (r, n) := do0 r; (r, n.getD succ)
  else if at0 then let (r, n) := do0 r; (r, n.getD succ)
  else if at1 then let (r, n) := do1 r; (r, n.getD succ)
  else (r, succ)

end Sys2Proof.Machine
end

