-- ==== Sys2Proof/Machine/Sil.lean ====
section
/-! DEFINITION. Sillage buffers: samples, triggers, streams (spec/08_accord_engines.md, R284 to R288, R291). -/

namespace Sys2Proof.Machine

def Dev.sil (d : Dev) (b : Nat) : Sil := SMap.getD d.sils {} b
def Dev.setSil (b : Nat) (f : Sil → Sil) (d : Dev) : Dev := d.putSils (SMap.put d.sils {} b (f (d.sil b)))

/-- SIL_STAT.STATE: 0 IDLE, 1 ARMED, 2 TRIGGERED, 3 DONE. -/
def Dev.silState (d : Dev) (b : Nat) : Nat := d.fld (Reg.SIL_STAT b) 0 2
def Dev.silStream (d : Dev) (b : Nat) : Bool := d.bit (Reg.SIL_STAT b) 2
def Dev.silRefuse (d : Dev) : Dev := d.setB Reg.SIL_EVT 16 true

/-- An ARMED buffer whose LINK is among buffers that trigger (TSRC 3, R287). -/
def Dev.silFollows (d : Dev) (s : List Nat) (b : Nat) : Bool :=
  d.silState b == 1 && d.fld (Reg.SIL_TRIG b) 0 3 == 3 && s.contains (d.fld (Reg.SIL_TRIG b) 8 3)

/-- The buffers of `kept`, which write a sample now, that trigger with a set of them through their links, the set included (R287). -/
def Dev.silLinked (d : Dev) (kept s : List Nat) : List Nat := forN 8 (fun _ s => kept.filter fun b => s.contains b || d.silFollows s b) s

/-- The value trigger of a sample (R287). -/
def Dev.silValue (d : Dev) (b : Nat) (v : Word) : Bool :=
  let th := (d.rd (Reg.SIL_TH b)).toInt
  let x := v.toInt
  d.fld (Reg.SIL_TRIG b) 0 3 == 1 &&
    (match d.fld (Reg.SIL_TRIG b) 4 3, (d.sil b).last with
     | 0, _ => decide (th < x)
     | 1, _ => decide (x < th)
     | 2, some p => decide (p.toInt ≤ th) && decide (th < x)
     | 3, some p => decide (th ≤ p.toInt) && decide (x < th)
     | 4, _ => decide (th < min 2147483647 (if x < 0 then -x else x))
     | _, _ => false)

/-- The capture is complete: DONE, NPRE, PRE_SHORT (R285, R286). -/
def Dev.silDone (b pre : Nat) (d : Dev) : Dev :=
  let want := d.fld (Reg.SIL_PRE b) 0 14
  (d.wr (Reg.SIL_STAT b) (BitVec.ofNat 32 (3 + 8 * b2n (decide (pre < want)) + min pre want * 65536))).setB Reg.SIL_EVT b true

/-- A stream packet (R288). -/
def Dev.silPacket (b : Nat) (d : Dev) : Dev :=
  let x := d.sil b
  let n := x.pk.length
  let bytes := [0x53#8, 0x4C#8, BitVec.ofNat 8 b, BitVec.ofNat 8 n] ++ beBytes 4 (x.taken - n) ++ beBytes 4 x.pkPer ++ beBytes 4 (x.pkCyc % 2 ^ 17) ++
    (x.pk.reverse.map fun w => beBytes 4 w.toNat).flatten
  let d := d.setSil b fun x => { x with pk := [] }
  let (ok, d) := d.qPut (d.fld (Reg.SIL_STREAM b) 0 6) 2 (0x10 + b) 0 0 (d.tb.dt / 2 ^ 32 % 65536) d.now bytes
  if ok then d else (d.incBy (Reg.SIL_CNT_LOST b) n).setB Reg.SIL_EVT (8 + b) true

/-- Writes a sample that is kept; with `trig` it is the trigger sample where the buffer is ARMED (R284, R285). -/
def Dev.silWrite (b : Nat) (v : Word) (trig : Bool) (per cyc : Nat) (d : Dev) : Dev :=
  let w := d.fld (Reg.SIL_TIDX b) 16 14
  let st := d.silState b
  let d := d.mwr (0x19000000 + 0x10000 * b + 4 * w) 4 v.toNat
  let d := d.setF (Reg.SIL_TIDX b) 16 14 ((w + 1) % 16384)
  let x := d.sil b
  let d := d.setSil b fun x => { x with taken := x.taken + 1, last := some v }
  if d.silStream b then
    let d := d.setSil b fun x =>
      { x with pk := v :: x.pk, pkPer := if x.pk.isEmpty then per else x.pkPer, pkCyc := if x.pk.isEmpty then cyc else x.pkCyc }
    if d.fld (Reg.SIL_STREAM b) 8 8 ≤ (d.sil b).pk.length then d.silPacket b else d
  else
    let fresh := st == 1 && trig
    let d := if fresh then
        let d := ((d.setF (Reg.SIL_TIDX b) 0 14 w).wr (Reg.SIL_TPER b) (BitVec.ofNat 32 per)).wr (Reg.SIL_TCYC b) (BitVec.ofNat 32 (cyc % 2 ^ 17))
        (d.setF (Reg.SIL_STAT b) 0 2 2).setSil b fun x => { x with post := 0, trigP := false }
      else d
    if fresh || st == 2 then
      let k := (d.sil b).post + 1
      let d := d.setSil b fun x => { x with post := k }
      if 16384 - d.fld (Reg.SIL_PRE b) 0 14 ≤ k then d.silDone b ((if fresh then x.taken else x.taken - (k - 1))) else d
    else d

/-- A TRC of an engine on a tap: every buffer routed to it takes the sample, one in DEC + 1 is kept (R284). A buffer triggers with its trigger
sample: one that follows it and writes no sample now triggers with its next (R287; DEDUCED, notes/assumptions/42). -/
def Dev.silSample (n tap : Nat) (v : Word) (per cyc : Nat) (d : Dev) : Dev :=
  let routed := (List.range 8).filter fun b =>
    d.bit (Reg.SIL_CTL b) 0 && d.fld (Reg.SIL_CTL b) 2 3 == n && d.fld (Reg.SIL_CTL b) 5 3 == tap &&
      (d.silState b == 1 || d.silState b == 2 || d.silStream b)
  let kept := routed.filter fun b => (d.sil b).trcs % (d.fld (Reg.SIL_CTL b) 8 8 + 1) == 0
  let own := kept.filter fun b => d.silState b == 1 && ((d.sil b).trigP || d.silValue b v)
  let trig := d.silLinked kept own
  let late := (List.range 8).filter fun b => !kept.contains b && d.silFollows trig b
  let d := routed.foldl (fun d b => d.setSil b fun x => { x with trcs := x.trcs + 1 }) d
  let d := late.foldl (fun d b => d.setSil b fun x => { x with trigP := true }) d
  kept.foldl (fun d b => d.silWrite b v (trig.contains b) per cyc) d

/-- An event of the fault collector as a trigger: its sources and its class (R287). -/
def Dev.silFault (srcs : List Nat) (cls : Nat) (d : Dev) : Dev :=
  forN 8 (fun b d =>
    let r := d.rd (Reg.SIL_TRIG b)
    if d.silState b == 1 && fieldOf r 0 3 == 2 && decide (fieldOf r 24 2 ≤ cls) && (r.getLsbD 23 || srcs.contains (fieldOf r 16 7)) then
      d.setSil b fun x => { x with trigP := true }
    else d) d

/-! ### Commands -/

/-- SIL_CTL_WRITE (R284). -/
def silCtlWrite (b : Nat) (v : Word) (d : Dev) : Dev :=
  if d.silState b == 1 || d.silState b == 2 || d.silStream b then d.silRefuse else d.genWrite (Reg.SIL_CTL b) v

/-- A write of SIL_CMD: STOP wins; an ARM with EN clear is refused; FORCE is ignored in IDLE, DONE and in stream mode (R285, R287, R288). -/
def silCmdWrite (b : Nat) (v : Word) (d : Dev) : Dev :=
  if v.getLsbD 2 then (d.wr (Reg.SIL_STAT b) 0).setSil b fun _ => {}
  else
    let d := if !v.getLsbD 0 then d
      else if !d.bit (Reg.SIL_CTL b) 0 then d.silRefuse
      else
        let d := (d.wr (Reg.SIL_STAT b) (if d.bit (Reg.SIL_CTL b) 1 then 4 else 1)).wr (Reg.SIL_TIDX b) 0
        d.setSil b fun _ => {}
    if v.getLsbD 1 && d.silState b == 1 then d.setSil b fun x => { x with trigP := true } else d

/-- A write of SIL_TRIG: TSRC 4 to 7, COND 5 to 7 under TSRC 1, and a LINK to itself under TSRC 3 are refused (R287). -/
def silTrigWrite (b : Nat) (v : Word) (d : Dev) : Dev :=
  let t := fieldOf v 0 3
  if 4 ≤ t || (t == 1 && decide (5 ≤ fieldOf v 4 3)) || (t == 3 && fieldOf v 8 3 == b) then d.silRefuse else d.genWrite (Reg.SIL_TRIG b) v

/-- A write of SIL_STREAM: N 0 stores 1. -/
def silStreamWrite (b : Nat) (v : Word) (d : Dev) : Dev := d.genWrite (Reg.SIL_STREAM b) (putField v 8 8 (max 1 (fieldOf v 8 8)))

/-! ### Meanings -/

def execSilCtlWrite (m : Master) (bf : Fin 8) (v : Word) (s : State) : Host.Outcome State Fault Refusal := run (Dev.viaBus m (Reg.SIL_CTL bf) (silCtlWrite bf v)) s
def execSilArm (m : Master) (bf : Fin 8) (v : Word) (s : State) : Host.Outcome State Fault Refusal := run (Dev.viaBus m (Reg.SIL_CMD bf) (silCmdWrite bf v)) s
def execSilForce (m : Master) (bf : Fin 8) (v : Word) (s : State) : Host.Outcome State Fault Refusal := run (Dev.viaBus m (Reg.SIL_CMD bf) (silCmdWrite bf v)) s
def execSilStop (m : Master) (bf : Fin 8) (v : Word) (s : State) : Host.Outcome State Fault Refusal := run (Dev.viaBus m (Reg.SIL_CMD bf) (silCmdWrite bf v)) s

end Sys2Proof.Machine
end

