-- ==== Sys2Proof/Machine/Eng.lean ====
section
/-! DEFINITION. The accord engines: issue, landing, stops, the special instructions, the sort units and the AECTL commands
(spec/07_accord_isa.md, R222 to R257; spec/08_accord_engines.md, R265 to R283). A command is the issue of one instruction in the
engine's next cycle; an engine that does not run issues nothing. -/

namespace Sys2Proof.Machine

def Dev.eng (d : Dev) (n : Nat) : Eng := SMap.getD d.engs {} n
def Dev.setEng (n : Nat) (f : Eng → Eng) (d : Dev) : Dev := d.putEngs (SMap.put d.engs {} n (f (d.eng n)))
def Dev.sortU (d : Dev) (u : Nat) : SortU := SMap.getD d.sorts {} u
def Dev.setSort (u : Nat) (f : SortU → SortU) (d : Dev) : Dev := d.putSorts (SMap.put d.sorts {} u (f (d.sortU u)))

/-- AECTL_STAT.RUN. -/
def Dev.engRuns (d : Dev) (n : Nat) : Bool := d.bit (Reg.AECTL_STAT n) 0

/-- The engine runs and its clock does: SYN0 is not gated (R438). -/
def Dev.engGo (d : Dev) (n : Nat) : Bool := d.engRuns n && !d.bit Reg.CLK_STAT 5

/-- The cycle counted from ENG_START in which an engine issues next. -/
def Eng.abs (e : Eng) : Nat := e.base + e.cyc

/-- A context engine (R414). -/
def Dev.ctxEn (d : Dev) (n : Nat) : Bool := d.bit Reg.TWIN_CTL 0 && d.bit (Reg.TWIN_CTX n) 0

/-- The unit makes two runs per period (R415). -/
def Dev.standby (d : Dev) : Bool := d.role == 3 || d.role == 4

/-! ### Exchange memory -/

/-- Inserts by cycle, then engine; a later entry of the same pair goes behind. -/
def insXq (x : Nat × Nat × Nat × Word) : List (Nat × Nat × Nat × Word) → List (Nat × Nat × Nat × Word)
  | [] => [x]
  | y :: l => if x.1 < y.1 || (x.1 == y.1 && x.2.1 < y.2.1) then x :: y :: l else y :: insXq x l

/-- Exchange writes that have landed before an engine cycle reach the memory, the higher engine last (R240). -/
def Dev.xFlush (c : Nat) (d : Dev) : Dev :=
  let go := (d.xq.filter fun e => e.1 < c)
  let d := d.putXq (d.xq.filter fun e => !(e.1 < c))
  go.foldl (fun d e => d.mwr (0x18000000 + e.2.2.1) 4 e.2.2.2.toNat) d

/-- Every write in flight lands. -/
def Dev.xFlushAll (d : Dev) : Dev := d.xFlush (d.xq.foldl (fun m e => max m (e.1 + 1)) 0)

/-- A word of exchange memory as a read in an engine cycle sees it; the latched area where XIN covers it (R240, R413). -/
def Dev.xRead (d : Dev) (a c : Nat) : Word :=
  if d.bit Reg.TWIN_CTL 0 && decide (a < 64 * d.fld Reg.TWIN_CTL 16 4) then
    BitVec.ofNat 32 (fieldLe (if d.twin.shadowRun then d.twin.snapXin else d.twin.xinLatch) a 4)
  else
    match (d.xq.filter fun e => e.1 < c && e.2.2.1 == a).getLast? with
    | some e => e.2.2.2
    | none => BitVec.ofNat 32 (d.mrd (0x18000000 + a) 4)

/-! ### Landing -/

/-- One result lands in an engine. -/
def Dev.landAct (n c : Nat) (a : Act) (d : Dev) : Dev :=
  match a with
  | .ldx rd addr =>
    let d := d.eccRead (0x18000000 + addr) false
    let w := d.xRead addr ((d.eng n).base + c)
    d.setEng n fun e => { e with pend := e.pend ++ [(c + 4, .reg rd w)] }
  | .biq k z1 z2 => (d.mwr (engBase n + 0x30018 + 64 * k) 8 (low 64 z1)).mwr (engBase n + 0x30020 + 64 * k) 8 (low 64 z2)
  | .sat => d
  | a => d.setEng n fun e => { e with regs := e.regs.land a }

/-- What an instruction in cycle `c` is the first to see lands, in order of issue (R255, R256). -/
def Dev.engLand (n c : Nat) (d : Dev) : Dev :=
  let now := (d.eng n).pend.filter fun e => e.1 == c
  let d := d.setEng n fun e => { e with pend := e.pend.filter fun e => e.1 != c }
  now.foldl (fun d e => d.landAct n c e.2) d

/-- Everything in flight lands (R244, R267). -/
def Dev.engLandAll (n : Nat) (d : Dev) : Dev := forN 20 (fun i d => d.engLand n ((d.eng n).cyc + i)) (d.engLand n (d.eng n).cyc)

/-- The fetch of the next instruction is an engine's read of its bank, the old one in a shadow run that a swap has passed (R54, R55, R418). -/
def Dev.engFetch (n : Nat) (d : Dev) : Dev :=
  let bank := (d.fld (Reg.AECTL_STAT n) 1 1 + b2n (d.twin.shadowRun && (d.eng n).bankHold)) % 2
  d.eccRead (engBase n + 0x8000 * bank + 4 * (d.eng n).pc) false

/-- What the engine's next instruction finds: earlier results landed, its word fetched. -/
def Dev.engSee (n : Nat) (d : Dev) : Dev := (d.engLand n (d.eng n).cyc).engFetch n

/-- What has landed before the cycle that the engines issue next, when a bus access meets their memories: it falls in that cycle, before its
instruction (R240, R278; DESIGN CHOICE, notes/assumptions/111). -/
def Dev.engSettle (d : Dev) : Dev :=
  let runs := (List.range 8).filter d.engRuns
  let d := runs.foldl (fun d n => d.engLand n (d.eng n).cyc) d
  if runs.isEmpty then d.xFlushAll else d.xFlush (runs.foldl (fun m n => max m (d.eng n).abs) 0)

/-! ### Stops -/

def Dev.aeEvt (n i : Nat) (d : Dev) : Dev := d.setB (Reg.AECTL_EVT n) i true

/-- The engine issues no more; its loops are abandoned. -/
def Dev.engIdle (n : Nat) (d : Dev) : Dev :=
  (d.setB (Reg.AECTL_STAT n) 0 false).setEng n fun e =>
    { e with regs := { e.regs with l0 := { e.regs.l0 with act := false, sup := false }, l1 := { e.regs.l1 with act := false, sup := false } } }

/-- Results in flight at a stop of cause 1 are discarded: in the registers, on the way to the exchange memory and to the staging (R267). -/
def Dev.engDiscard (n : Nat) (d : Dev) : Dev :=
  let d := d.engLand n (d.eng n).cyc
  let c := (d.eng n).abs
  let d := (d.putXq (d.xq.filter fun x => !(x.2.1 == n && decide (c ≤ x.1)))).putOutQ (d.outQ.filter fun o => !(o.eng == n && decide (c ≤ o.land)))
  d.setEng n fun e => { e with pend := [] }

/-- A stop without HALT (R263, R267, R268). -/
def Dev.engStop (n cause pc : Nat) (d : Dev) : Dev :=
  let per := (d.eng n).per
  let d := if cause == 1 then d.engDiscard n else d.engLandAll n
  let d := d.engIdle n
  let d := (d.wr (Reg.AECTL_OVR n) (BitVec.ofNat 32 (cause + pc * 65536))).wr (Reg.AECTL_OVR_PER n) (BitVec.ofNat 32 per)
  let d := ((d.inc (Reg.AECTL_CNT_OVR n) 32).aeEvt n 0).raise (72 + n)
  let d := if d.ctxEn n then (d.putTwin { d.twin with shadowEnd := false }) else d
  if d.bit (Reg.AECTL_CTL n) 1 then (d.setB (Reg.AECTL_CTL n) 0 false).setEng n fun e => { e with held := true } else d

/-! ### Issue -/

/-- An instruction has issued: its results are on their way, the loops and the PC move on (R241, R254, R255). -/
def Dev.engNext (n : Nat) (acts : List (Nat × Act)) (d : Dev) : Dev :=
  let d := if acts.any fun a => a.2 == .sat then d.aeEvt n 1 else d
  let e := d.eng n
  let (regs, pc) := e.regs.advance e.pc (e.pc + 1)
  let d := d.setEng n fun e =>
    { e with regs := regs, pc := pc, cyc := e.cyc + 1, busOld := [], pend := e.pend ++ ((acts.filter fun a => a.2 != .sat).map fun a => (e.cyc + a.1, a.2)) }
  if 8191 < pc then d.engStop n 3 8191 else d

/-- What an engine instruction does beyond its legality: results on their way, and its effect on the device. -/
abbrev Body := Dev → List (Nat × Act) × Dev

/-- The issue of an instruction whose pattern is judged on the registers (R225, R243, R264). -/
def Dev.engIssue (n : Nat) (p : Pred) (op : Regs → Option Body) (d : Dev) : Dev :=
  if !d.engGo n then d else
  let d := d.engSee n
  let e := d.eng n
  match op e.regs with
  | none => d.engStop n 2 e.pc
  | some body =>
    if predHolds p e.regs && !e.regs.suppressed then
      let (acts, d) := body d
      d.engNext n acts
    else d.engNext n []

/-- An opcode that is not legal in an engine (R226, R264). -/
def Dev.engIllegal (n : Nat) (d : Dev) : Dev :=
  if !d.engGo n then d else
  let d := d.engSee n
  d.engStop n 2 (d.eng n).pc

/-- A shared instruction in an engine. -/
def engAlu (op : AluOp) : Regs → Option Body := fun r => (op true r).map fun acts d => (acts, d)

/-- LOOP in an engine (R241 to R243). -/
def Dev.engLoop (n : Nat) (p : Pred) (x : LOp) (d : Dev) : Dev :=
  if !d.engGo n then d else
  let d := d.engSee n
  let e := d.eng n
  match loopParams x true e.regs with
  | none => d.engStop n 2 e.pc
  | some (c, count, len) =>
    if !loopLegal true e.regs c e.pc (e.pc + len) then d.engStop n 2 e.pc
    else
      let sup := !predHolds p e.regs || e.regs.suppressed
      d.setEng n fun e =>
        { e with regs := e.regs.loopStart c (e.pc + 1) (e.pc + len) count sup, pc := e.pc + 1, cyc := e.cyc + 1, busOld := [] }

/-- B_eng of R30 and the output limit of R31 in cycles, from T_P, the phases in force and the spread (R266); less TWIN_LIVE on a standby
(R415). -/
def Dev.engBudget (d : Dev) : Nat × Nat :=
  let sp := d.fld Reg.CLK_STAT 8 3
  let dr := 11 + (if sp == 1 then 50 else if sp == 2 then 100 else if sp == 3 then 25 else if sp == 4 then 50 else 0)
  let live := if d.standby then d.fld Reg.TWIN_LIVE 0 17 else 0
  (d.tb.tP * (10000 - dr) / 20000 - live, (d.tb.outPhase - d.tb.engStart) * (10000 - dr) / 20000 - 8 - live)

/-- The bytes of one engine's context. -/
def Dev.ctxLen (d : Dev) (n : Nat) : Nat := 768 + 64 * d.fld (Reg.TWIN_CTX n) 4 5 + 64 * d.fld (Reg.TWIN_CTX n) 16 10

/-- The context of an engine (R414). -/
def Dev.context (d : Dev) (n : Nat) : List Byte :=
  let e := d.eng n
  let w (x : Nat) : List Byte := beBytes 4 (x % 2 ^ 32)
  let mem (a k : Nat) : List Byte := ((List.range k).map fun i => w (d.mrd (a + 4 * i) 4)).flatten
  ((List.range 16).map fun i => w (e.regs.rg i).toNat).flatten ++
    ((List.range 4).map fun i => let a := e.regs.ac i; w a ++ w (a / 2 ^ 32) ++ w (low 32 (sext 8 (a / 2 ^ 64)))).flatten ++
    w (2 * b2n (e.regs.pr 1) + 4 * b2n (e.regs.pr 2)) ++ List.replicate 12 0 ++
    ((List.range 16).map fun k => mem (engBase n + 0x30018 + 64 * k) 4).flatten ++
    ((List.range 32).map fun r => mem (engBase n + 0x30600 + 16 * r) 3).flatten ++
    ((List.range (16 * d.fld (Reg.TWIN_CTX n) 4 5)).map fun s => w (SMap.getD e.stage 0 s).toNat).flatten ++
    mem (engBase n + 0x10000 + 0x8000 - 64 * d.fld (Reg.TWIN_CTX n) 16 10) (16 * d.fld (Reg.TWIN_CTX n) 16 10)

/-- A capture reads the words of a context (R54, R414). -/
def Dev.contextRead (n : Nat) (d : Dev) : Dev :=
  let area := 64 * d.fld (Reg.TWIN_CTX n) 16 10
  ((d.eccSpan (engBase n + 0x30000) 0x400).eccSpan (engBase n + 0x30600) 0x200).eccSpan (engBase n + 0x18000 - area) area

/-- OUT_PHASE of the period of the run has still to come. -/
def Dev.beforeOut (d : Dev) : Bool := d.tb.outAt.isSome && d.tb.engAt.isNone

/-- What HALT of a context engine leaves for the partner: the holder's context where OUT_PHASE has still to come (R418), or the capture of a shadow run (R414, R416). -/
def Dev.haltContext (n : Nat) (d : Dev) : Dev :=
  if !d.ctxEn n then d
  else if d.standby then
    -- a system clock is 5/6 of an engine cycle, and captures a word
    let t := (d.eng n).abs + (5 * ((d.ctxLen n + 3) / 4) + 5) / 6
    if d.twin.shadowRun then
      (d.contextRead n).putTwin { d.twin with capBusy := SMap.put d.twin.capBusy 0 n (crc32 (d.context n) + 1), capEnd := max d.twin.capEnd t }
    else d
  else if !d.beforeOut then d
  else (d.contextRead n).putTwin { d.twin with ctxs := SMap.put d.twin.ctxs [] n (d.context n) }

/-- HALT in an engine (R244, R266). -/
def Dev.engHalt (n : Nat) (p : Pred) (z : BitVec 23) (d : Dev) : Dev :=
  if !d.engGo n then d
  else if p.num != 0 || p.neg || z != 0 then d.engIllegal n
  else
    let d := ((d.engSee n).engLandAll n).engIdle n
    let e := d.eng n
    let d := (d.setEng n fun e => { e with halted := true, cyc := e.cyc + 1, busOld := [] }).haltContext n
    if d.twin.shadowRun then d
    else
      let (budget, lim) := d.engBudget
      let d := ((d.wr (Reg.AECTL_CYC n) (BitVec.ofNat 32 ((e.cyc + 1) % 2 ^ 17))).wr (Reg.AECTL_BUDGET n) (BitVec.ofNat 32 budget)).wr
        (Reg.AECTL_OUTLIM n) (BitVec.ofNat 32 lim)
      let d := match e.outLast with
        | some c => d.wr (Reg.AECTL_OUT_LAST n) (BitVec.ofNat 32 (c % 2 ^ 17))
        | none => d.wr (Reg.AECTL_OUT_LAST n) 0x80000000
      let d := if budget < e.cyc + 1 then d.aeEvt n 4 else d
      match e.outLast with
      | some c => if lim < c then d.aeEvt n 3 else d
      | none => d

/-! ### Memory -/

/-- The data memory of an engine. -/
def engData (n a : Nat) : Nat := engBase n + 0x10000 + a % 0x8000

/-- `k` bytes within a word of the data memory as the instruction that issues next reads them: before what the bus writes in its cycle (R240). -/
def Dev.dataRead (d : Dev) (n a k : Nat) : Nat :=
  match SMap.getD (d.eng n).busOld 0 (a - a % 4) with
  | 0 => d.mrd a k
  | v + 1 => v / 256 ^ (a % 4) % 256 ^ k

/-- LD (R237, R238). -/
def engLd (n : Nat) (x : MOp) : Regs → Option Body := fun r =>
  (mAddr x r 4 false).map fun a d =>
    let a := engData n (a - a % 4)
    ([(2, .reg x.rd (BitVec.ofNat 32 (d.dataRead n a 4)))], d.eccRead a false)

/-- LDH: a half-word sign-extended, with ix 3 a byte zero-extended. -/
def engLdh (n : Nat) (x : MOp) : Regs → Option Body := fun r =>
  (mAddr x r 2 true).map fun a d =>
    if x.ix == 3 then ([(2, .reg x.rd (BitVec.ofNat 32 (d.dataRead n (engData n a) 1)))], d.eccRead (engData n a) false)
    else
      let a := engData n (a - a % 2)
      ([(2, .reg x.rd (wordI (sext 16 (d.dataRead n a 2))))], d.eccRead a false)

/-- ST and STH: written at the end of the issue cycle (R240). -/
def engSt (n : Nat) (x : MOp) : Regs → Option Body := fun r =>
  (mAddr x r 4 false).map fun a d =>
    let a := engData n (a - a % 4)
    ([], d.mwr a 4 (r.rg x.rd).toNat)

def engSth (n : Nat) (x : MOp) : Regs → Option Body := fun r =>
  (mAddr x r 2 true).map fun a d =>
    if x.ix == 3 then ([], (d.eccRead (engData n a) false).mwr (engData n a) 1 (r.rg x.rd).toNat)
    else
      let a := engData n (a - a % 2)
      ([], (d.eccRead a false).mwr a 2 (r.rg x.rd).toNat)

/-- LDX: the exchange memory is read in cycle t + 4 (R240). -/
def engLdx (x : MOp) : Regs → Option Body := fun r =>
  (mAddr x r 4 false).map fun a d => ([(4, .ldx x.rd (a % 65536 / 4 * 4))], d)

/-- STX: written at the end of cycle t + 4. -/
def engStx (n : Nat) (x : MOp) : Regs → Option Body := fun r =>
  (mAddr x r 4 false).map fun a d => ([], (d.putXq (insXq ((d.eng n).abs + 4, n, a % 65536 / 4 * 4, r.rg x.rd) d.xq)))

/-- A word of the input image of the run, as an engine with this p3 reads it (R247, R272, R408, R415). -/
def Dev.imgWord (d : Dev) (p3 : Bool) (a : Nat) : Word :=
  let a := a % 8192 / 4 * 4
  let w : Word := if d.twin.shadowRun then (if a < 0x1414 then BitVec.ofNat 32 (fieldAt d.twin.snapImg a 4) else 0) else SMap.getD d.img 0 a
  if a == 0x140C then putField (if d.standby then w ||| 2#32 else w) 0 1 (b2n p3) else w

def engSmp (x : MOp) : Regs → Option Body := fun r =>
  (mAddr x r 32 false).map fun a d => ([(2, .reg x.rd (d.imgWord (r.pr 3) a))], d)

/-! ### Tables, sections, ramps, blends -/

/-- A signed word of the engine's memory. -/
def Dev.engI (d : Dev) (n off k : Nat) : Int := sext (8 * k) (d.mrd (engBase n + off) k)

/-- LUTG (R248, R275). -/
def engLutg (n : Nat) (x : UOp) : Regs → Option Body := fun r =>
  (ownBits x.low 3).map fun t d =>
    let map := if d.twin.shadowRun then (d.eng n).oldMap else d.fld (Reg.AECTL_LUT_MAP n) 8 8
    let p := map / 4 ^ t % 4
    let v := sI (r.rg x.rs)
    let i := (v / 2 ^ 24 + 128).toNat
    let off := 0x20000 + 2048 * p + 8 * i
    let y := d.engI n off 4 + rndShift 24 (d.engI n (off + 4) 4 * (v % 2 ^ 24))
    (regSat 4 x.rd (satN 32 y), (d.eccRead (engBase n + off) false).eccRead (engBase n + off + 4) false)

/-- BIQ (R249). -/
def engBiq (n : Nat) (x : UOp) : Regs → Option Body := fun r =>
  (ownBits x.low 15).map fun k d =>
    let c (j : Nat) : Int := d.engI n (0x30000 + 64 * k + 4 * j) 4
    let v := sI (r.rg x.rs)
    let z1 := d.engI n (0x30018 + 64 * k) 8
    let z2 := d.engI n (0x30020 + 64 * k) 8
    let y := satN 32 (rndShift 30 (c 0 * v + z1))
    let n1 := satN 64 (c 1 * v - c 3 * y.1 + z2)
    let n2 := satN 64 (c 2 * v - c 4 * y.1)
    ((8, .reg x.rd (wordI y.1)) :: (8, .biq k n1.1 n2.1) :: (if y.2 || n1.2 || n2.2 then [(1, .sat)] else []),
      forN 9 (fun j d => d.eccRead (engBase n + 0x30000 + 64 * k + (if j < 5 then 4 * j else 4 * j + 4)) false) d)

/-- RAMP (R250): the state changes at once. -/
def engRamp (n : Nat) (x : UOp) : Regs → Option Body := fun r =>
  (ownBits x.low 0x31F).map fun b d =>
    let q := b % 32; let op := b / 256
    let off := 0x30600 + 16 * q
    let v := d.engI n off 4; let g := d.engI n (off + 4) 4; let dl := max 0 (d.engI n (off + 8) 4)
    let s := sI (r.rg x.rs)
    let put (o : Nat) (y : Int) (d : Dev) : Dev := d.mwr (engBase n + off + o) 4 (low 32 y)
    let d := (((d.eccRead (engBase n + off) false).eccRead (engBase n + off + 4) false).eccRead (engBase n + off + 8) false)
    let v' := if op == 0 then v + clampI (-dl) dl (g - v) else if op == 1 then s else v
    let d := if op == 0 || op == 1 then put 0 v' d else if op == 2 then put 4 s d else put 8 (max 0 s) d
    ([(2, .reg x.rd (wordI v'))], d)

/-- The weight of a blend channel in the run (R251, R415). -/
def Dev.blendW (d : Dev) (n b : Nat) : Nat :=
  if d.twin.shadowRun then SMap.getD d.twin.oldBlend 0 (8 * n + b) else d.mrd (engBase n + 0x30800 + 16 * b) 4

/-- BLEND (R251). -/
def engBlend (n : Nat) (x : RI) : Regs → Option Body := fun r =>
  match x with
  | .i _ _ _ => none
  | .r rd rs rt md =>
    (ownBits md 7).map fun b d =>
      let a := sI (r.rg rs)
      let y := a + rndShift 31 ((sI (r.rg rt) - a) * (d.blendW n b : Nat))
      (regSat 4 rd (satN 32 y), d.eccRead (engBase n + 0x30800 + 16 * b) false)

/-! ### Outputs, traces, mailbox -/

/-- A REF or EDGE on its way to the staging; past the OUT_PHASE of its period it is late, where that period has none it is not; in a shadow run
it goes to the check value only (R26, R246, R415, R536). -/
def Dev.output (n : Nat) (edge : Bool) (tgt : Nat) (v : Word) (d : Dev) : Dev :=
  let e := d.eng n
  let o : OutW := { land := e.abs + 8, eng := n, edge := edge, tgt := tgt, val := v }
  let d := d.setEng n fun e => { e with outLast := some e.cyc }
  let logs := d.ctxEn n && (d.twin.shadowRun || d.role == 2)
  let d := if logs then (d.putTwin { d.twin with ocrcLog := d.twin.ocrcLog ++ [o] }) else d
  if d.twin.shadowRun then d
  else if !d.tb.outSkip && !d.beforeOut then (d.inc (Reg.AECTL_CNT_LATE n) 32).aeEvt n 2
  else d.putOutQ (d.outQ ++ [o])

/-- What REF stages of its value: q15 (R246). -/
def refValue (v : Word) : Int × Bool := satN 16 (rndShift 16 (sI v))

def engRef (n : Nat) (x : TOp) : Regs → Option Body := fun r =>
  match tBase x r, ownBits x.low 0x1FF with
  | some b, some t => some fun d =>
    let v := r.rg x.rd
    (if (refValue v).2 then [(1, .sat)] else [], d.output n false ((b + t) % 512) v)
  | _, _ => none

def engEdge (n : Nat) (x : TOp) : Regs → Option Body := fun r =>
  match tBase x r, ownBits x.low 0x1FF with
  | some b, some t => some fun d => ([], d.output n true ((b + t) % 512) (r.rg x.rd))
  | _, _ => none

/-- TRC (R245, R255, R284): rs zero. -/
def engTrc (n : Nat) (x : UOp) : Regs → Option Body := fun r =>
  if x.rs != 0 then none
  else (ownBits x.low 7).map fun t d =>
    ([], d.silSample n t (r.rg x.rd) (d.eng n).per (d.eng n).cyc)

def engXput (n : Nat) (x : TOp) : Regs → Option Body := fun r =>
  match tBase x r, ownBits x.low 0xFF with
  | some b, some s => some fun d => ([], d.setEng n fun e => { e with stage := SMap.put e.stage 0 ((b + s) % 256) (r.rg x.rd) })
  | _, _ => none

def engXget (x : TOp) : Regs → Option Body := fun r =>
  match tBase x r, ownBits x.low 0x7FF with
  | some b, some s => some fun d => ([(2, .reg x.rd (d.rd (Reg.AECTL_MBOX (s / 256) ((b + s) % 256))))], d)
  | _, _ => none

/-! ### Sort units -/

/-- The engine is assigned to a unit in its issue cycle: a window in force covers it (R282). -/
def Dev.sortWindow (d : Dev) (n u : Nat) : Bool :=
  let c := (d.eng n).cyc
  (d.sortU u).win.any fun w => w.1 == n && decide (2 * w.2.1 ≤ c) && decide (c < 2 * w.2.2)

/-- Inserts into a ranking: descending signed value, the lower index first among equals (R252, R283). -/
def insRank (x : Nat × Word) : List (Nat × Word) → List (Nat × Word)
  | [] => [x]
  | y :: l => if y.2.slt x.2 || (x.2 == y.2 && x.1 < y.1) then x :: y :: l else y :: insRank x l

/-- A ranking becomes visible (R283). -/
def Dev.showRank (u : Nat) (l : List Nat) (d : Dev) : Dev :=
  (forN 48 (fun r d =>
    d.wr (Reg.SORT_RANK u r) (match (l.drop r).head? with | some i => BitVec.ofNat 32 (i + 2 ^ 31) | none => 0)) d).inc (Reg.SORT_CNT u) 32

/-- Rankings that an instruction in a cycle is the first to see become visible, in the order of their LASTs. -/
def Dev.sortFlush (u c : Nat) (d : Dev) : Dev :=
  let l := (d.sortU u).pend
  let d := d.setSort u fun s => { s with pend := s.pend.filter fun e => c < e.1 }
  (l.filter fun e => e.1 ≤ c).foldl (fun d e => d.showRank u e.2) d

/-- Judges an access: assigned, or the unit is not this engine's, with OUTWIN where no window covers it (R252, R282, R290). -/
def Dev.sortAccess (n u : Nat) (d : Dev) : Bool × Dev :=
  if d.sortWindow n u then (d.bit Reg.SORT_CTL u, d) else (false, d.setB Reg.SORT_EVT u true)

def engSorts (n : Nat) (x : TOp) : Regs → Option Body := fun r =>
  match tBase x r, ownBits x.low 0x101 with
  | some b, some f => some fun d =>
    let u := f % 2
    match d.sortAccess n u with
    | (false, d) => ([], d)
    | (true, d) =>
      let i := b % 64
      let v := r.rg x.rd
      let d := d.setSort u fun s =>
        if s.items.any fun e => e.1 == i then { s with items := s.items.map fun e => if e.1 == i then (i, v) else e }
        else if s.items.length < 48 then { s with items := s.items ++ [(i, v)] } else s
      if f < 256 then ([], d)
      else
        let rank := ((d.sortU u).items.foldl (fun l e => insRank e l) []).map (·.1)
        ([], d.setSort u fun s => { s with items := [], pend := s.pend ++ [((d.eng n).abs + 64, rank)] })
  | _, _ => none

/-- The visible ranking of a unit. -/
def Dev.ranking (d : Dev) (u : Nat) : List Nat :=
  (List.range 48).filterMap fun r => let w := d.rd (Reg.SORT_RANK u r); if w.getLsbD 31 then some (w.toNat % 64) else none

def engSortg (n : Nat) (x : TOp) : Regs → Option Body := fun r =>
  match tBase x r, ownBits x.low 0x201 with
  | some b, some f => some fun d =>
    let u := f % 2
    let none' : Word := 0xFFFFFFFF
    match d.sortAccess n u with
    | (false, d) => ([(2, .reg x.rd none')], d)
    | (true, d) =>
      let d := d.sortFlush u (d.eng n).abs
      let l := d.ranking u
      let k := b % 64
      let v : Word := if f < 512 then (match (l.drop k).head? with | some i => BitVec.ofNat 32 i | none => none')
        else (match l.findIdx? (· == k) with | some i => BitVec.ofNat 32 i | none => none')
      ([(2, .reg x.rd v)], d)
  | _, _ => none

/-- SORT_RANKING_DONE (R283): the oldest ranking in the making becomes visible. -/
def sortRankingDone (u : Nat) (d : Dev) : Dev :=
  match (d.sortU u).pend with
  | [] => d
  | (_, l) :: rest => (d.setSort u fun s => { s with pend := rest }).showRank u l

/-- SORT_WINDOW_WRITE (R282): a write that makes two enabled windows overlap, or an enabled one empty, is refused. -/
def sortWindowWrite (u j : Nat) (range : Bool) (v : Word) (d : Dev) : Dev :=
  let a := if range then Reg.SORT_WRNG u j else Reg.SORT_WCTL u j
  let d' := d.genWrite a v
  let w (i : Nat) : Bool × Nat × Nat := (d'.bit (Reg.SORT_WCTL u i) 0, d'.fld (Reg.SORT_WRNG u i) 0 16, d'.fld (Reg.SORT_WRNG u i) 16 16)
  let me := w j
  let bad := me.1 && (decide (me.2.2 ≤ me.2.1) ||
    (List.range 8).any fun i => i != j && (w i).1 && decide (me.2.1 < (w i).2.2) && decide ((w i).2.1 < me.2.2))
  if bad then d.setB Reg.SORT_EVT 2 true else d'

/-! ### AECTL commands -/

/-- An arm for period `p` is accepted: its ENG_START is still to come and less than 2^31 periods ahead (R269). -/
def Dev.armOk (d : Dev) (p : Nat) : Bool :=
  let n := (p + 2 ^ 32 - d.tb.k) % 2 ^ 32
  d.tb.inPeriod && decide (n < 2 ^ 31) && (n != 0 || d.tb.engAt.isSome)

/-- AECTL_EN_WRITE, a write of AECTL_CTL: EN takes effect at the next ENG_START (R265). -/
def aectlEnWrite (n : Nat) (v : Word) (d : Dev) : Dev := d.genWrite (Reg.AECTL_CTL n) v

/-- A write of AECTL_SWAP (R269, R270). -/
def swapWrite (n : Nat) (v : Word) (d : Dev) : Dev :=
  if v.getLsbD 0 && v.getLsbD 1 then d.aeEvt n 9
  else if v.getLsbD 0 then
    let p := (d.rd (Reg.AECTL_SWAP_AT n)).toNat
    if d.armOk p then (d.setB (Reg.AECTL_STAT n) 2 true).setEng n fun e => { e with swapAt := p } else d.aeEvt n 6
  else if v.getLsbD 1 then
    -- in the clock of the ENG_START that made the swap: too late
    if d.bit (Reg.AECTL_EVT n) 5 && (d.eng n).swapAt == d.tb.k && d.tb.inPeriod && d.tb.engAt.isNone && d.now == d.tb.bnd + d.tb.engStart then d.aeEvt n 6
    else d.setB (Reg.AECTL_STAT n) 2 false
  else d

/-- A write of AECTL_TICK (R273). -/
def tickWrite (n : Nat) (v : Word) (d : Dev) : Dev :=
  if v.getLsbD 8 && !d.armOk (d.rd (Reg.AECTL_TICK_AT n)).toNat then d.aeEvt n 9
  else
    let d := d.setF (Reg.AECTL_TICK n) 0 8 (fieldOf v 0 8)
    if v.getLsbD 8 then (d.setB (Reg.AECTL_STAT n) 3 true).setEng n fun e => { e with tickAt := (d.rd (Reg.AECTL_TICK_AT n)).toNat } else d

/-- LUT_MAP_WRITE (R276): staged until the next ENG_START. -/
def lutMapWrite (n : Nat) (v : Word) (d : Dev) : Dev := d.setF (Reg.AECTL_LUT_MAP n) 0 8 (fieldOf v 0 8)

/-- BIQ_LOAD and BIQ_ZCLR (R279). -/
def biqLoad (n : Nat) (v : Word) (d : Dev) : Dev := d.genWrite (Reg.AECTL_BIQ_LOAD n) v
def biqZclr (n : Nat) (v : Word) (d : Dev) : Dev := d.genWrite (Reg.AECTL_BIQ_ZCLR n) v

/-- A write of AECTL_BLEND_b (R280, R281). -/
def blendWrite (n b : Nat) (v : Word) (d : Dev) : Dev :=
  let m := max 1 (fieldOf v 0 16)
  let p := (d.rd (Reg.AECTL_BLEND_AT n b)).toNat
  if (v.getLsbD 16 && v.getLsbD 17) || (v.getLsbD 16 && !d.armOk p) then d.aeEvt n 9
  else
    let d := d.wr (Reg.AECTL_BLEND n b) (BitVec.ofNat 32 m)
    if v.getLsbD 16 then
      (d.setB (Reg.AECTL_STAT n) (8 + b) true).setEng n fun e =>
        { e with blends := SMap.put e.blends {} b { (SMap.getD e.blends {} b) with armAt := p, armM := m } }
    else if v.getLsbD 17 then (d.setB (Reg.AECTL_STAT n) (8 + b) false).setB (Reg.AECTL_STAT n) (16 + b) false
    else d

/-! ### ENG_START at an engine -/

/-- One blend channel at the ENG_START of period `k` (R280, R281). -/
def Dev.blendStart (n b k : Nat) (d : Dev) : Dev :=
  let x := SMap.getD (d.eng n).blends {} b
  let a := engBase n + 0x30800 + 16 * b
  let put (m j : Nat) (d : Dev) : Dev := (d.mwr a 4 ((j * 2 ^ 31 + m / 2) / m)).mwr (a + 4) 4 j
  if d.bit (Reg.AECTL_STAT n) (8 + b) && x.armAt == k then
    let d := (d.setB (Reg.AECTL_STAT n) (8 + b) false).setB (Reg.AECTL_STAT n) (16 + b) true
    (d.setEng n fun e => { e with blends := SMap.put e.blends {} b { x with m := x.armM } }) |> put x.armM 0
  else if d.bit (Reg.AECTL_STAT n) (16 + b) then
    let j := d.mrd (a + 4) 2 + 1
    let d := put x.m j d
    if x.m ≤ j then (d.setB (Reg.AECTL_STAT n) (16 + b) false).aeEvt n 8 else d
  else d

/-- The tick at the ENG_START of period `k` (R272, R273). -/
def Dev.tickStart (n k : Nat) (d : Dev) : Dev :=
  let d := if d.bit (Reg.AECTL_STAT n) 3 && (d.eng n).tickAt == k then
      ((((d.setB (Reg.AECTL_STAT n) 3 false).setF (Reg.AECTL_TICK n) 24 8 (d.fld (Reg.AECTL_TICK n) 0 8)).setF (Reg.AECTL_TICK n) 16 8 0)).aeEvt n 7
    else d
  let old := (d.eng n).p3
  if !d.bit (Reg.AECTL_STAT n) 4 then d.setEng n fun e => { e with oldP3 := old }
  else
    let cnt := d.fld (Reg.AECTL_TICK n) 16 8
    let act := d.fld (Reg.AECTL_TICK n) 24 8
    let tick := cnt == 0
    let d := d.setF (Reg.AECTL_TICK n) 16 8 ((cnt + 1) % (if act == 0 then 256 else act))
    let d := if tick then d.wr (Reg.AECTL_TICK_LAST n) (BitVec.ofNat 32 k) else d
    d.setEng n fun e => { e with p3 := tick, oldP3 := old }

/-- Loads of staged sets and clears of section states (R279). -/
def Dev.biqApply (n load zclr : Nat) (d : Dev) : Dev :=
  forN 16 (fun k d =>
    let a := engBase n + 0x30000 + 64 * k
    let d := if nbit load k then forN 5 (fun j (d : Dev) => (d.eccRead (engBase n + 0x30400 + 32 * k + 4 * j) false).mwr (a + 4 * j) 4 (d.mrd (engBase n + 0x30400 + 32 * k + 4 * j) 4)) d else d
    let d := if nbit zclr k then (d.mwr (a + 0x18) 8 0).mwr (a + 0x20) 8 0 else d
    (if nbit load k then d.setB (Reg.AECTL_BIQ_LOAD n) k false else d) |> fun d => if nbit zclr k then d.setB (Reg.AECTL_BIQ_ZCLR n) k false else d) d

/-- Whatever a new ENG_START of period `k` changes at an engine before it starts: enable, bank, map, sections, tick, blends (R265, R268 to
R281). On a standby the sections wait for the live run (R418). -/
def Dev.engChanges (n k : Nat) (d : Dev) : Dev :=
  let d := if d.engRuns n then d.engStop n 1 (d.eng n).pc else d
  let d := d.setB (Reg.AECTL_STAT n) 4 (d.bit (Reg.AECTL_CTL n) 0)
  let swap := d.bit (Reg.AECTL_STAT n) 2 && (d.eng n).swapAt == k
  let d := if swap then
      ((d.setB (Reg.AECTL_STAT n) 1 (!d.bit (Reg.AECTL_STAT n) 1)).setB (Reg.AECTL_STAT n) 2 false).aeEvt n 5
    else d
  let old := d.fld (Reg.AECTL_LUT_MAP n) 8 8
  let d := d.setF (Reg.AECTL_LUT_MAP n) 8 8 (d.fld (Reg.AECTL_LUT_MAP n) 0 8)
  let load := d.fld (Reg.AECTL_BIQ_LOAD n) 0 16; let zclr := d.fld (Reg.AECTL_BIQ_ZCLR n) 0 16
  let d := d.setEng n fun e => { e with oldMap := old, held := false, busOld := [], bankHold := swap && d.standby && d.bit (Reg.AECTL_STAT n) 4, biqDue := load, zclrDue := zclr }
  let d := if d.standby then d else d.biqApply n load zclr
  let d := d.tickStart n k
  let d := forN 8 (fun b d => (d.putTwin { d.twin with oldBlend := SMap.put d.twin.oldBlend 0 (8 * n + b) (d.mrd (engBase n + 0x30800 + 16 * b) 4) })) d
  forN 8 (fun b d => d.blendStart n b k) d

/-- The staging copies of the engines that executed HALT become visible (R253, R274). -/
def Dev.publish (d : Dev) : Dev :=
  forN 8 (fun n d =>
    if (d.eng n).halted then forN 256 (fun s d => d.wr (Reg.AECTL_MBOX n s) (SMap.getD (d.eng n).stage 0 s)) d else d) d

/-- An engine whose EN is in force starts at instruction 0, but one that a stop of this period keeps (R223, R265, R268). -/
def Dev.engBegin (n per base : Nat) (p3 : Bool) (d : Dev) : Dev :=
  let d := d.setEng n fun e => { e with halted := false }
  if !d.bit (Reg.AECTL_STAT n) 4 || (d.eng n).held then d
  else (d.setB (Reg.AECTL_STAT n) 0 true).setEng n fun e =>
    { e with
      pc := 0, cyc := 0, per := per, base := base, pend := [], outLast := none,
      regs := { e.regs with p := (e.regs.p &&& 7#4) ||| (if p3 then 8#4 else 0), l0 := {}, l1 := {} } }

/-- The sort units at the start of a run: open sets are discarded (R283). -/
def Dev.sortRun (d : Dev) : Dev := forN 2 (fun u d => d.setSort u fun s => { s with items := [] }) d

/-- The sort units at an ENG_START `c` cycles after the last one: their window registers come into force (R282, R283). -/
def Dev.sortStart (c : Nat) (d : Dev) : Dev :=
  forN 2 (fun u d => d.setSort u fun s =>
    { s with
      pend := s.pend.map fun e => (e.1 - c, e.2),
      win := (List.range 8).filterMap fun j =>
        if d.bit (Reg.SORT_WCTL u j) 0 then
          some (d.fld (Reg.SORT_WCTL u j) 1 3, d.fld (Reg.SORT_WRNG u j) 0 16, d.fld (Reg.SORT_WRNG u j) 16 16) else none }) d.sortRun

/-- Outputs in order of arrival, ascending by engine within a clock (R246). -/
def insOut (x : OutW) : List OutW → List OutW
  | [] => [x]
  | y :: l => if x.land < y.land || (x.land == y.land && x.eng < y.eng) then x :: y :: l else y :: insOut x l

/-- An output reaches the staging. -/
def Dev.stageOut (o : OutW) (d : Dev) : Dev :=
  if o.edge then d.stageEdge o.tgt (o.val.toNat % 2 ^ 20) (o.val.toNat / 2 ^ 20 % 4) else d.stageRef o.tgt (refValue o.val).1

/-- Outputs at OUT_PHASE: what has reached the staging by then is taken, the rest is late (R26, R246). -/
def Dev.takeOutputs (d : Dev) : Dev :=
  let lim := (d.tb.outPhase - d.tb.engStart) / 2
  let l := d.outQ.foldl (fun l o => insOut o l) []
  l.foldl (fun d o => if lim < o.land then (d.inc (Reg.AECTL_CNT_LATE o.eng) 32).aeEvt o.eng 2 else d.stageOut o) (d.putOutQ [])

/-- The outputs of a run whose period had no OUT_PHASE stand in the staging by the next ENG_START; whether the run that starts now has an
OUT_PHASE is known (R26, R536). -/
def Dev.stageSkipped (d : Dev) : Dev :=
  let d := if d.tb.outSkip then (d.outQ.foldl (fun l o => insOut o l) []).foldl (fun d o => d.stageOut o) (d.putOutQ []) else d
  d.putTb { d.tb with outSkip := d.tb.outAt.isNone }

/-- OCRC over a run's outputs in the order in which they reach the staging (R415). -/
def Dev.ocrc (d : Dev) : Nat :=
  crc32 ((d.twin.ocrcLog.foldl (fun l o => insOut o l) []).map fun o => beBytes 2 o.tgt ++ beBytes 4 o.val.toNat).flatten

/-! ### Meanings of the AECTL and SORT commands -/

def execSortRankingDone (u : Fin 2) (s : State) : Host.Outcome State Fault Refusal := run (sortRankingDone u) s
def execAectlEnWrite (m : Master) (n : Fin 8) (v : Word) (s : State) : Host.Outcome State Fault Refusal := run (Dev.viaBus m (Reg.AECTL_CTL n) (aectlEnWrite n v)) s
def execSwapArm (m : Master) (n : Fin 8) (v : Word) (s : State) : Host.Outcome State Fault Refusal := run (Dev.viaBus m (Reg.AECTL_SWAP n) (swapWrite n v)) s
def execSwapCancel (m : Master) (n : Fin 8) (v : Word) (s : State) : Host.Outcome State Fault Refusal := run (Dev.viaBus m (Reg.AECTL_SWAP n) (swapWrite n v)) s
def execTickArm (m : Master) (n : Fin 8) (v : Word) (s : State) : Host.Outcome State Fault Refusal := run (Dev.viaBus m (Reg.AECTL_TICK n) (tickWrite n v)) s
def execLutMapWrite (m : Master) (n : Fin 8) (v : Word) (s : State) : Host.Outcome State Fault Refusal := run (Dev.viaBus m (Reg.AECTL_LUT_MAP n) (lutMapWrite n v)) s
def execBiqLoad (m : Master) (n : Fin 8) (v : Word) (s : State) : Host.Outcome State Fault Refusal := run (Dev.viaBus m (Reg.AECTL_BIQ_LOAD n) (biqLoad n v)) s
def execBiqZclr (m : Master) (n : Fin 8) (v : Word) (s : State) : Host.Outcome State Fault Refusal := run (Dev.viaBus m (Reg.AECTL_BIQ_ZCLR n) (biqZclr n v)) s
def execBlendArm (m : Master) (n ch : Fin 8) (v : Word) (s : State) : Host.Outcome State Fault Refusal := run (Dev.viaBus m (Reg.AECTL_BLEND n ch) (blendWrite n ch v)) s
def execBlendCancel (m : Master) (n ch : Fin 8) (v : Word) (s : State) : Host.Outcome State Fault Refusal := run (Dev.viaBus m (Reg.AECTL_BLEND n ch) (blendWrite n ch v)) s
def execSortWindowWrite (m : Master) (u : Fin 2) (j : Fin 8) (range : Bool) (v : Word) (s : State) : Host.Outcome State Fault Refusal :=
  run (Dev.viaBus m (if range then Reg.SORT_WRNG u j else Reg.SORT_WCTL u j) (sortWindowWrite u j range v)) s

end Sys2Proof.Machine
end

