-- ==== Sys2Proof/Machine/Service.lean ====
section
/-! DEFINITION. SERVICE frames, missing records and REPOLL (spec/05_cell_link.md, R164 to R171, R174; spec/12_twin.md, R409, R410). -/

namespace Sys2Proof.Machine

/-! ### Twin-link frames -/

/-- SOF bytes 1 to 7 of a frame on the twin link (R409). -/
def Dev.twinSof (d : Dev) (kind ring : Nat) : List Byte := (d.sof kind false 0).take 6 ++ [BitVec.ofNat 8 (8 * ring)]

/-- Sends a frame over the twin link, once it has trained. -/
def Dev.twinSend (kind ring : Nat) (data : List Byte) (d : Dev) : Dev :=
  if d.bit Reg.SYS_READY 15 then (d.twinTake (2 + data.length / 8)).send (.frame 24 (mkFrame (d.twinSof kind ring) data)) else d

/-- The next scheduled frame on the twin link: STATUS at ENG_START, COMMAND from OUT_PHASE on (R409). -/
def Dev.twinNext (d : Dev) : Nat :=
  match d.tb.engAt, d.tb.outAt with
  | some e, _ => e
  | none, some o => o
  | none, none => if d.atm.cmdDue then d.now else d.nextPhases.1

/-- The SERVICE frames that wait for the twin link go out in order, each where it ends before the next scheduled frame (R29, R171, R409). -/
def Dev.twinSvcFlush (d : Dev) : Dev :=
  forN d.twin.svcWait.length (fun _ d =>
    match d.twin.svcWait with
    | [] => d
    | (r, b) :: rest =>
      if !d.tb.inPeriod || decide (d.twinFree (2 + b.length / 8) ≤ 80 * d.twinNext) then
        (d.putTwin { d.twin with svcWait := rest }).twinSend 12 r b
      else d) d

/-- A SERVICE frame for the other unit, behind those that wait. -/
def Dev.twinForward (ring : Nat) (data : List Byte) (d : Dev) : Dev :=
  (d.putTwin { d.twin with svcWait := d.twin.svcWait ++ [(ring, data)] }).twinSvcFlush

/-- The ring that a COMMAND or SERVICE frame of the twin link names. -/
def fRing (f : Frame) : Nat := byteAt f.sof 6 / 8

/-- The unit's own port of a ring, in RUN. -/
def Dev.ownPort (d : Dev) (ring : Nat) : Option Nat := (List.range 24).find? fun p => d.inRun p && d.ringOf p == ring

/-! ### SERVICE frames -/

/-- A field of the wire stored little-endian, field by field (R13). -/
def leFields : List Nat → List Byte → List Byte
  | [], _ => []
  | n :: ns, bs => (bs.take n).reverse ++ leFields ns (bs.drop n)

/-- The sizes of the descriptor's fields (R174). -/
def descSizes : List Nat := [4, 1, 1, 2, 8, 2, 2, 4, 4, 4, 4, 2, 2, 2, 2, 2, 2, 2, 1, 9, 4]

/-- The reply to a descriptor READ of this device: the copy is stored where DCRC is good (R174, R176). -/
def Dev.descReply (ring : Nat) (f : Frame) (d : Dev) : Dev :=
  let i := byteAt f.data 0
  let ports := (List.range 24).filter fun p => d.ringOf p == ring && (d.port p).readDue.contains i
  let rep := f.data.drop 16
  let desc := (rep.drop 8).take 64
  if byteAt f.data 1 != 3 || fieldAt f.data 4 2 != 0 || ports.isEmpty || byteAt rep 1 != 0 || byteAt rep 0 != i || fieldAt rep 6 2 != 64 then d
  else
    let d := ports.foldl (fun d p => d.setPort p fun q => { q with readDue := q.readDue.filter (· != i) }) d
    match d.cellAt ring i with
    | none => d
    | some c =>
      if fieldAt desc 60 4 != crc32 (desc.take 60) then d
      else
        let l := leFields descSizes desc
        let d := forN 16 (fun j (x : Dev) => x.wr (Reg.CELL_DESC c j) (BitVec.ofNat 32 (beVal ((l.drop (4 * j)).take 4).reverse))) d
        d.setCell c fun x => { x with disc := true }

/-- A SERVICE frame is written to the receive queue of its port (R171). -/
def Dev.svcDeliver (p : Nat) (f : Frame) (d : Dev) : Dev :=
  if !d.bit (Reg.RING_SVC p) 14 then d
  else (d.qPut (d.fld (Reg.RING_SVC p) 8 6) 3 (0x20 + d.ringOf p) 0 0 (d.tb.dt / 2 ^ 32 % 65536) d.now f.data).2

/-- A good SERVICE frame of this unit, at its own port `p` (R171, R172, R174). -/
def Dev.svcOwn (p : Nat) (atA : Bool) (f : Frame) (d : Dev) : Dev :=
  let d := if byteAt f.data 1 == 1 then d.discovered p atA f else d.descReply (d.ringOf p) f
  d.svcDeliver p f

/-- SERVICE_FRAME_RECEIVED and DISCOVER_RESULT (R140, R171): a bad frame is discarded; one that the other unit of a twin launched goes on
to that unit. -/
def serviceFrameReceived (p : Nat) (f : Frame) (d : Dev) : Dev :=
  if fKind f != 3 || fNslots f != 0 || 128 < f.data.length / 8 then d
  else if fBad f then d.inc (Reg.RING_CNT_FCRC p) 32
  else
    let d := (d.seeEpoch f).copyIn p f
    if d.role != 0 && fOrigin f != d.twinId then d.twinForward (d.ringOf p) f.data
    else d.svcOwn p (!d.endB p) f

/-- TWIN_SERVICE_RECEIVED (R171, R409): as if it had arrived at this unit's own port of that ring. -/
def twinServiceReceived (f : Frame) (d : Dev) : Dev :=
  if fKind f != 12 || fBad f || d.role == 0 then d
  else
    let d := d.seeEpoch f
    match (List.range 24).find? fun p => d.bit (Reg.RING_LINK_CTL p) 0 && d.ringOf p == fRing f with
    | none => d
    | some p =>
      let g := mkFrame ((d.sof 3 (d.endB p) 0)) f.data
      d.svcOwn p (d.endB p) g

/-- SERVICE_LAUNCH (R29, R169 to R171): the head packet of the transmit queue, if the frame ends within the gap. The packet holds the
request header and the payload; the device adds the reply area. -/
def serviceLaunch (p gapBlocks : Nat) (d : Dev) : Dev :=
  let q := d.fld (Reg.RING_SVC p) 0 6
  if !(d.inRun p && d.bit (Reg.RING_SVC p) 6 && d.bit Reg.QM_CTL 0 && d.bit (Reg.QM_Q_CFG q) 0 && d.qCons q == 2) then d
  else match d.qHead q with
    | none => d
    | some k =>
      let bytes := d.pktBytes k.slots k.len
      let d := d.pktRead k.slots k.len
      let plen := fieldAt bytes 6 2
      let n := 1 + (plen + 7) / 8 + byteAt bytes 3
      if 128 < n then (d.qPop q).inc (Reg.RING_CNT_SVC p) 32
      else if gapBlocks < n + 2 + (d.repeats p).length || !(d.port p).svcWait.isEmpty || !d.gapFits p (n + 2) then d
      else
        let body := bytes.take (8 + plen)
        ((d.qPop q).sendFrame p (d.sof 3 (d.endB p) 0) (body ++ List.replicate (8 * n - body.length) 0))

/-! ### Missing records -/

/-- The positions of a port's ring whose record is missing (R164). -/
def Dev.missing (d : Dev) (p : Nat) : List Nat :=
  ((List.range (d.nslot p)).map (· + 1)).filter fun i =>
    match d.cellAt (d.ringOf p) i with
    | none => false
    | some c => let st := d.cellState c; decide (1 ≤ st) && decide (st ≤ 4) && !(d.cell c).acc

/-- A REPOLL for `m` positions launched at `t80` (1/80 ns from the boundary) ends by ENG_START (R164). -/
def Dev.repollFits (d : Dev) (p m t80 : Nat) : Bool :=
  decide (t80 + 80 * 40 + 5 * (d.rd (Reg.RING_HR p)).toNat + (2 + 3 * m) * d.tBlk80 p + 80 * 60 ≤ 80 * d.tb.engStart)

/-- The positions of a REPOLL are kept at the ports of the ring, whose copies are judged by them (R147). -/
def Dev.askedFor (p : Nat) (l : List Nat) (d : Dev) : Dev :=
  forN 24 (fun q d => if d.ringOf q == d.ringOf p then
    d.setPort q fun x => { x with asked := (d.tb.k, l.reverse) :: x.asked.filter fun a => a.1 == d.tb.k } else d) d

/-- A REPOLL frame: slots pre-filled with the positions it asks for, in the order of COLLECT's slots (R139). -/
def Dev.repoll (p : Nat) (l : List Nat) (d : Dev) : Dev :=
  if !d.inRun p then d
  else (d.sendFrame p (d.sof 4 (d.endB p) l.length)
    ((if d.endB p then l else l.reverse).map fun i => BitVec.ofNat 8 (16 * i) :: List.replicate 23 (0 : Byte)).flatten).inc (Reg.RING_CNT_RPSENT p) 32

/-- A round is one of the ring: both its ports count it (R164). -/
def Dev.countRound (p : Nat) (d : Dev) : Dev :=
  forN 24 (fun q d => if d.ringOf q == d.ringOf p && (q == p || d.partner p == some q) then d.setPort q fun x => { x with rounds := x.rounds + 1 } else d) d

/-- MISSING_DECISION (R164, R165): a round of REPOLL from both ends; a twin unit sends its list to the other unit and asks from its own
end. -/
def missingDecision (p sinceBoundary16 : Nat) (d : Dev) : Dev :=
  let l := d.missing p
  if !d.inRun p || !d.tb.inPeriod || d.tb.engPast || l.isEmpty || d.fld (Reg.RING_REPOLL p) 0 2 ≤ (d.port p).rounds then d
  else
    let d := (d.countRound p).askedFor p l
    let fits := d.repollFits p l.length (5 * sinceBoundary16)
    let d := if d.role == 0 then d
      else
        let mask := l.foldl (fun v i => v + 2 ^ (i - 1)) 0
        d.twinSend 8 0 ([BitVec.ofNat 8 (d.ringOf p)] ++ beBytes 2 mask ++ List.replicate 5 0)
    if !fits then d
    else
      let d := d.repoll p l
      match d.partner p with
      | some q => if d.role == 0 then d.repoll q l else d
      | none => d

/-- TWIN_MISS_RECEIVED (R165, R410): the other unit's list, asked for from this end. -/
def twinMissReceived (f : Frame) (d : Dev) : Dev :=
  if fKind f != 8 || fBad f || d.role == 0 || !d.tb.inPeriod || d.tb.engPast || fPeriod f != d.tb.k then d
  else
    let d := d.seeEpoch f
    forN (f.data.length / 8) (fun j (d : Dev) =>
      let b := (f.data.drop (8 * j)).take 8
      let l := ((List.range 12).filter fun i => nbit (fieldAt b 1 2) i).map (· + 1)
      match d.ownPort (byteAt b 0) with
      | none => d
      | some p => if !l.isEmpty && d.repollFits p l.length (80 * (d.now - d.tb.bnd)) then (d.askedFor p l).repoll p l else d) d

/-! ### Meanings -/

def execDiscoverResult (port : Fin 24) (f : Frame) (s : State) : Host.Outcome State Fault Refusal := run (Dev.frameIn port f (serviceFrameReceived port)) s
def execServiceFrameReceived (port : Fin 24) (f : Frame) (s : State) : Host.Outcome State Fault Refusal := run (Dev.frameIn port f (serviceFrameReceived port)) s
def execServiceLaunch (port : Fin 24) (gapBlocks : Nat) (s : State) : Host.Outcome State Fault Refusal := run (Dev.inLanes (serviceLaunch port gapBlocks)) s
def execMissingDecision (port : Fin 24) (sinceBoundary16 : Nat) (s : State) : Host.Outcome State Fault Refusal := run (missingDecision port sinceBoundary16) s
def execTwinMissReceived (f : Frame) (s : State) : Host.Outcome State Fault Refusal := run (Dev.frameIn 24 f twinMissReceived) s
def execTwinServiceReceived (f : Frame) (s : State) : Host.Outcome State Fault Refusal := run (Dev.frameIn 24 f twinServiceReceived) s

end Sys2Proof.Machine
end

