-- ==== Sys2Proof/Machine/Twin.lean ====
section
/-! DEFINITION. Twin operation: roles, frames of the twin link, the check, takeover, claim, yield and swap (spec/12_twin.md, R405 to
R429). -/

namespace Sys2Proof.Machine

def Dev.twinEvt (i : Nat) (d : Dev) : Dev := d.setB Reg.TWIN_EVT i true
def Dev.setTwin (f : Twin → Twin) (d : Dev) : Dev := d.putTwin (f d.twin)
def Dev.setRole (r : Nat) (d : Dev) : Dev := d.setF Reg.TWIN_STAT 0 3 r
def Dev.setArb (b : Bool) (d : Dev) : Dev := d.setB Reg.TWIN_STAT 4 b

/-- POLICY of this unit. -/
def Dev.policyOf (d : Dev) : Nat := d.fld Reg.TWIN_CTL 2 2

/-! ### Roles -/

/-- The unit becomes HOLDER under the epoch after the newest it has seen (R420). -/
def Dev.becomeHolder (d : Dev) : Dev :=
  let e := (d.twin.seen + 1) % 256
  (((d.setRole 2).setArb true).setF Reg.TWIN_STAT 16 8 e).setTwin fun t => { t with
    seen := e, claimAt := none, yieldDue := false, swapP := none, swapAcc := false, passes := 0, shadowPer := none }

/-- A command taken over after the period's commit: the rings whose relay has not begun get the records of this unit's own set (R422). -/
def Dev.launchOwn (d : Dev) : Dev :=
  if !d.tb.inPeriod || d.tb.outAt.isSome || d.tb.engAt.isSome then d
  else
    let s := d.sendSet
    let d : Dev := d.putAtm { d.atm with cmdDue := false }
    d.runPorts.foldl (fun d p => if d.twin.relayed.contains (d.ringOf p) then d else d.sendCommand p s) d

/-- TAKEOVER of a unit that takes command (R420, R422). -/
def Dev.takeCommand (d : Dev) : Dev := (((d.becomeHolder).twinEvt 0).inc Reg.TWIN_CNT_TAKE 32).launchOwn

/-- The unit gives command up and enters SYNCING (R423, R425). -/
def Dev.giveCommand (d : Dev) : Dev :=
  let d := ((d.setRole 3).setArb false).setF Reg.TWIN_STAT 16 8 d.twin.seen
  (d.putAtm { d.atm with cmdDue := false }).setTwin fun t => { t with passes := 0, yieldDue := false, swapP := none, swapAcc := false, ctxPer := none }

/-- TAKEOVER (R420): TWIN_ARB_IN has been low for 50 ns, and no valid block has come on a twin lane for 200 ns. -/
def takeover (d : Dev) : Dev :=
  if d.role == 4 || (d.role == 3 && d.bit Reg.TWIN_CTL 5) then d.dueAt (d.twin.blkAt + 200) fun d => (d.setB Reg.TWIN_STAT 3 false).takeCommand else d

/-- CLAIM (R421): not while a partner that is HOLDER, SYNCING or STANDBY is heard; of two units in SEEK the preferred one. -/
def claim (d : Dev) : Dev :=
  let up := d.bit Reg.TWIN_STAT 5
  let pr := d.fld Reg.TWIN_STAT 6 3
  let mine := d.bit Reg.TWIN_CTL 1
  let first := if mine == d.twin.pPref then !d.twinId else mine
  if d.role != 1 || !d.atm.running || d.twin.claimAt.isSome || (up && 2 ≤ pr) || (up && pr == 1 && !first) then d
  else ((d.setB Reg.TWIN_STAT 3 false).setArb true).setTwin fun t => { t with claimAt := some d.now }

/-- CLAIM_CONFIRM (R421): TWIN_ARB_IN as sampled 1 us after the claim. -/
def claimConfirm (arbInHigh : Bool) (d : Dev) : Dev :=
  match d.twin.claimAt with
  | none => d
  | some t => d.dueAt (t + 1000) fun d =>
    let d := d.setB Reg.TWIN_STAT 3 arbInHigh
    if arbInHigh && d.twinId then ((d.setArb false).twinEvt 9).setTwin fun t => { t with claimAt := none } else d.takeCommand

/-- YIELD (R423): after a frame of another HOLDER under a newer epoch, or on unit 1 where TWIN_ARB_IN has been high for 1 us. -/
def yieldCommand (d : Dev) : Dev :=
  if d.role != 2 then d
  else if d.twin.yieldDue then (d.giveCommand).twinEvt 1
  else if d.twinId then ((d.setB Reg.TWIN_STAT 3 true).giveCommand).twinEvt 1
  else d

/-! ### The check (R414 to R417) -/

/-- The context engines with the place of each context in a COPY. -/
def Dev.ctxPlaces (d : Dev) : List (Nat × Nat) :=
  ((List.range 8).foldl (fun r n => if d.ctxEn n then (r.1 ++ [(n, r.2)], r.2 + d.ctxLen n) else r) (([], 0) : List (Nat × Nat) × Nat)).1

/-- Loads one engine's context (R414, R416). -/
def Dev.loadContext (n : Nat) (b : List Byte) (d : Dev) : Dev :=
  let w (i : Nat) : Nat := fieldAt b i 4
  let mem (a i k : Nat) (d : Dev) : Dev := forN k (fun j (x : Dev) => x.mwr (a + 4 * j) 4 (w (i + 4 * j))) d
  let g := (List.range 16).foldl (fun m i => SMap.put m (0 : Word) i (BitVec.ofNat 32 (w (4 * i)))) []
  let acc := (List.range 4).foldl (fun m i => SMap.put m 0 i (w (0x40 + 12 * i) + w (0x44 + 12 * i) * 2 ^ 32 + w (0x48 + 12 * i) % 256 * 2 ^ 64)) []
  let p := BitVec.ofNat 4 (w 0x70 % 8 / 2 * 2)
  let mb := 16 * d.fld (Reg.TWIN_CTX n) 4 5
  let area := d.fld (Reg.TWIN_CTX n) 16 10
  let d := d.setEng n fun e => { e with
    regs := { e.regs with g := g, acc := acc, p := (e.regs.p &&& 9#4) ||| (p &&& 6#4) },
    stage := (List.range mb).foldl (fun m s => SMap.put m 0 s (BitVec.ofNat 32 (w (0x300 + 4 * s)))) e.stage }
  let d := forN 16 (fun k d => mem (engBase n + 0x30018 + 64 * k) (0x80 + 16 * k) 4 d) d
  let d := forN 32 (fun r d => mem (engBase n + 0x30600 + 16 * r) (0x180 + 12 * r) 3 d) d
  mem (engBase n + 0x10000 + 0x8000 - 64 * area) (0x300 + 4 * mb) (16 * area) d

/-- The load of a COPY, a word per system clock in each engine, ends before the next ENG_START (R416). -/
def Dev.loadFits (d : Dev) : Bool :=
  let words := d.ctxPlaces.foldl (fun m e => max m ((d.ctxLen e.1 + 3) / 4)) 0
  let halt := (List.range 8).foldl (fun m n => max m (d.eng n).abs) 0
  decide (3 * max d.now (d.tb.bnd + d.tb.engStart + 2 * halt) + 5 * words ≤ 3 * d.nextPhases.1)

/-- Every live run has halted and COPY of the period before is complete: its contexts are loaded (R416). -/
def Dev.twinLoadCopy (d : Dev) : Dev :=
  if !d.standby || d.twin.shadowRun || d.tb.engAt.isSome || (List.range 8).any d.engRuns then d
  else match d.twin.copy with
    | none => d
    | some (p, data) =>
      if p != (d.tb.k + 2 ^ 32 - 1) % 2 ^ 32 || d.twin.ctxPer == some p || !d.loadFits then d
      else
        let d := d.ctxPlaces.foldl (fun d e => d.loadContext e.1 ((data.drop e.2).take (d.ctxLen e.1)) ) d
        d.setTwin fun t => { t with ctxPer := some p }

/-- The outcome of a check: 0 passes, 1 diverges, 2 is void (R417, R428). -/
def Dev.checkDone (out : Nat) (d : Dev) : Dev :=
  let d := match d.twin.shadowPer with | some p => d.wr Reg.TWIN_CHK (BitVec.ofNat 32 p) | none => d
  let passes := if out == 0 then d.twin.passes + 1 else 0
  let divs := if out == 1 then d.twin.divs + 1 else 0
  let d := d.setTwin fun t => { t with shadowPer := none, passes := passes, divs := divs, lastDiv := out == 1 }
  if out == 0 then
    let d := d.setLevel 90 false
    if d.role == 3 && 2 ≤ passes then ((d.setRole 4).setTwin fun t => { t with sbyAt := d.now }).twinEvt 7 else d
  else
    let lost := d.role == 4
    let d := if out == 1 then
        let d := (d.twinEvt 4).inc Reg.TWIN_CNT_DIV 32
        if d.fld Reg.TWIN_CTL 8 4 ≤ divs then d.setLevel 90 true else d
      else ((d.twinEvt 11).twinEvt 6).inc Reg.TWIN_CNT_VOID 32
    if lost then (d.setRole 3).twinEvt 6 else d

/-- The check of the shadow run's period, once captures, COPY and STATUS are all there (R417). -/
def Dev.twinCheck (d : Dev) : Dev :=
  match d.twin.shadowPer, d.twin.copy, d.twin.stat with
  | some p, some (cp, data), some (sp, ocrc) =>
    if !d.standby || cp != p || sp != p || !d.twin.capBusy.isEmpty || !(d.ctxPlaces.all fun e => SMap.getD d.twin.caps 0 e.1 != 0) then d
    else if !d.twin.shadowOk || !d.twin.shadowEnd then d.checkDone 2
    else
      let same := d.ocrc == ocrc &&
        d.ctxPlaces.all fun e => SMap.getD d.twin.caps 0 e.1 == crc32 ((data.drop e.2).take (d.ctxLen e.1)) + 1
      d.checkDone (if same then 0 else 1)
  | _, _, _ => d

/-- CONTEXT_CAPTURE_DONE (R416). -/
def contextCaptureDone (n : Nat) (d : Dev) : Dev :=
  let v := SMap.getD d.twin.capBusy 0 n
  if v == 0 then d
  else (d.setTwin fun t => { t with capBusy := SMap.put t.capBusy 0 n 0, caps := SMap.put t.caps 0 n v }).twinCheck

/-- LIVE_RUN_START (R415, R416, R418): cycle TWIN_LIVE after ENG_START. A live run that starts before every capture has ended breaks
R416. -/
def liveRunStart (d : Dev) : Dev :=
  if !d.twin.shadowRun then d
  else d.dueAt (d.tb.bnd + d.tb.engStart + 2 * d.fld Reg.TWIN_LIVE 0 17) fun d =>
    let early := !d.twin.capBusy.isEmpty || decide (d.fld Reg.TWIN_LIVE 0 17 < d.twin.capEnd) || (List.range 8).any d.engRuns
    let d := d.xFlushAll
    let d := d.setTwin fun t => { t with shadowRun := false, shadowEnd := t.shadowEnd && !early }
    let d := forN 8 (fun n (d : Dev) => (d.biqApply n (d.eng n).biqDue (d.eng n).zclrDue).setEng n fun e => { e with biqDue := 0, zclrDue := 0 }) d
    let d := (d.publish).sortRun
    forN 8 (fun n (d : Dev) => d.engBegin n d.tb.k (d.fld Reg.TWIN_LIVE 0 17) (d.eng n).p3) d

/-! ### Frames of the twin link -/

/-- TWIN_COMMAND_RECEIVED (R152, R409, R419): a whole frame is relayed from this unit's own port of its ring. -/
def twinCommandReceived (f : Frame) (d : Dev) : Dev :=
  if fKind f != 2 || fBad f || d.role == 0 then d
  else
    let d := d.seeEpoch f
    if !d.standby then d
    else match d.ownPort (fRing f) with
      | none => d
      | some p =>
        let sof := f.sof.take 6 ++ [BitVec.ofNat 8 (128 * b2n (d.endB p) + 64 * b2n d.twinId + f.data.length / 16)]
        (d.sendFrame p sof f.data).setTwin fun t => { t with relayed := fRing f :: t.relayed }

/-- TWIN_COPY_RECEIVED (R411, R414, R416, R417). -/
def twinCopyReceived (f : Frame) (d : Dev) : Dev :=
  if fKind f != 9 || fBad f || !d.standby then d
  else (((d.seeEpoch f).setTwin fun t => { t with copy := some (fPeriod f, f.data) }).twinCheck).twinLoadCopy

/-- TWIN_SNAP_RECEIVED (R411): the input image, four zero bytes, the latched exchange area. -/
def twinSnapReceived (f : Frame) (d : Dev) : Dev :=
  if fKind f != 10 || fBad f || !d.standby then d
  else (d.seeEpoch f).setTwin fun t => { t with snapPer := some (fPeriod f), snapImg := f.data.take 0x1414, snapXin := f.data.drop 0x1418 }

/-- POLICY_MISMATCH (R426, R427). -/
def Dev.policyCheck (d : Dev) : Dev :=
  let bad := d.role != 0 && d.twin.heard && (d.policyOf != d.twin.pPolicy || (d.bit Reg.TWIN_CTL 1 && d.twin.pPref))
  let was := d.twin.mismatch
  let d := d.setTwin fun t => { t with mismatch := bad }
  if bad && !was then (d.twinEvt 10).raise 89 else d

/-- The partner's swap request and acceptance (R425, R426). The STATUS carries no period: an accepting unit takes one as a free value
(DESIGN CHOICE, safe, notes/assumptions/110). -/
def Dev.partnerSwap (req acc : Bool) (d : Dev) : Dev :=
  let d := d.setTwin fun t => { t with swapAcc := t.swapP.isSome && (acc || t.swapAcc) }
  let mine := d.twin.swapP.isSome && !d.twin.partSwap
  let ok := req && !mine && (d.role == 4 || (d.role == 2 && d.policyOf == 0)) && !d.twin.mismatch
  if ok && !d.twin.partSwap then
    d.nextFree.setTwin fun t => { t with partSwap := true, swapAcc := true, swapP := some (Config.freeNat d.freeCtr % 2 ^ 32) }
  else if !req && d.twin.partSwap then d.setTwin fun t => { t with partSwap := false, swapAcc := false, swapP := none }
  else d

/-- TWIN_STATUS_RECEIVED (R410, R417, R421, R425 to R428). -/
def twinStatusReceived (f : Frame) (d : Dev) : Dev :=
  if fKind f != 11 || fBad f || d.role == 0 then d
  else
    let d := d.seeEpoch f
    let b0 := byteAt f.data 0
    let b1 := byteAt f.data 1
    let pr := b0 % 8
    let d := (d.setF Reg.TWIN_STAT 6 3 pr).setB Reg.TWIN_STAT 5 true
    let diff := nbit b0 3 != d.bit Reg.TWIN_STAT 3
    let n := if diff then d.twin.arbDiff + 1 else 0
    let d := d.setTwin fun t => { t with
      heard := true, noStat := 0, statLost := false, pPref := nbit b0 5, pPolicy := b0 / 64, arbDiff := n, arbFault := decide (2 ≤ n),
      stat := if pr == 2 then some ((fPeriod f + 2 ^ 32 - 1) % 2 ^ 32, fieldAt f.data 4 4) else t.stat }
    let d := if n == 2 then (d.twinEvt 8).raise 89 else d
    let d := d.policyCheck
    let d := if d.role == 1 && pr == 2 then ((d.setRole 3).setArb false).setTwin fun t => { t with claimAt := none, passes := 0 } else d
    let d := if d.role == 2 && nbit b1 0 then d.twinEvt 5 else d
    (d.partnerSwap (nbit b1 1) (nbit b1 2)).twinCheck

/-- The level of TWIN_ARB_IN as a STATUS arrives is read, and the STATUS judged by it (R410, R427). -/
def twinStatusAt (arbIn : Bool) (f : Frame) (d : Dev) : Dev := (d.setB Reg.TWIN_STAT 3 arbIn)|> Dev.frameIn 24 f twinStatusReceived

/-- TWIN_STATUS_TIMEOUT (R427). -/
def twinStatusTimeout (d : Dev) : Dev :=
  if d.role == 0 || !d.bit Reg.SYS_READY 15 || d.twin.noStat < 2 || d.twin.statLost then d
  else ((d.setB Reg.TWIN_STAT 5 false).setTwin fun t => { t with statLost := true }).raise 89

/-- The STATUS frame of this unit (R410). -/
def Dev.sendStatus (ocrc : Nat) (d : Dev) : Dev :=
  let b0 := d.role + 8 * b2n (d.bit Reg.TWIN_STAT 4) + 16 * b2n (d.bit Reg.TWIN_STAT 3) + 32 * b2n (d.bit Reg.TWIN_CTL 1) + 64 * d.policyOf
  let b1 := b2n d.twin.lastDiv + 2 * b2n (d.twin.swapP.isSome && !d.twin.partSwap) + 4 * b2n (d.twin.partSwap && d.twin.swapAcc)
  d.twinSend 11 0 ([BitVec.ofNat 8 b0, BitVec.ofNat 8 b1, BitVec.ofNat 8 d.epoch, 0] ++ beBytes 4 ocrc)

/-! ### Role swap (R425, R426) -/

/-- The arm of a swap for period `p`, refused with SWAP_REF. -/
def Dev.armSwap (p : Nat) (d : Dev) : Dev :=
  let pr := d.fld Reg.TWIN_STAT 6 3
  let ahead := (p + 2 ^ 32 - d.tb.k) % 2 ^ 32
  if !(d.role == 2 || d.role == 4) || !(pr == 2 || pr == 4) || !d.tb.inPeriod || ahead < 2 || 2 ^ 31 ≤ ahead then d.twinEvt 3
  else d.setTwin fun t => { t with swapP := some p, swapAcc := false, partSwap := false }

/-- A write of TWIN_CMD. -/
def twinCmdWrite (v : Word) (d : Dev) : Dev :=
  if fieldOf v 16 16 != 0x5A7E then d
  else if v.getLsbD 0 && v.getLsbD 1 then d.twinEvt 12
  else if v.getLsbD 0 then d.armSwap (d.rd Reg.TWIN_SWAP_AT).toNat
  else if v.getLsbD 1 then d.setTwin fun t => { t with swapP := none, swapAcc := false, partSwap := false }
  else d

/-- RETURN_HOLD_EXPIRY (R426): STANDBY for TWIN_HOLD seconds. -/
def returnHoldExpiry (d : Dev) : Dev :=
  if d.role == 4 && d.bit Reg.TWIN_CTL 1 && !d.twin.pPref && d.policyOf == 0 && !d.twin.mismatch && d.twin.swapP.isNone then
    d.dueAt (d.twin.sbyAt + d.fld Reg.TWIN_HOLD 0 16 * 10 ^ 9) fun d => d.armSwap ((d.tb.k + 2) % 2 ^ 32)
  else d

/-- At boundary B_P the holder drops arbitration and the standby takes command (R425); without an acceptance nothing is made. -/
def Dev.swapBoundary (d : Dev) : Dev :=
  match d.twin.swapP with
  | none => d
  | some p =>
    if p != d.tb.k then d
    else if !d.twin.swapAcc then d.setTwin fun t => { t with swapP := none }
    else if d.role == 2 then (d.giveCommand.twinEvt 2).setTwin fun t => { t with partSwap := false }
    else if d.role == 4 then (((d.setB Reg.TWIN_STAT 3 false).becomeHolder).twinEvt 2).setTwin fun t => { t with partSwap := false }
    else d.setTwin fun t => { t with swapP := none, swapAcc := false, partSwap := false }

/-- No acceptance before the ENG_START of P - 1: the request is refused (R425). -/
def Dev.swapLate (d : Dev) : Dev :=
  match d.twin.swapP with
  | none => d
  | some p =>
    if p == (d.tb.k + 1) % 2 ^ 32 && !d.twin.swapAcc then (d.twinEvt 3).setTwin fun t => { t with swapP := none, partSwap := false } else d

/-! ### Registers (R429) -/

/-- TWIN_CTL_WRITE (R405, R429): fields other than PREF and POLICY only while the atomizer is stopped. -/
def twinCtlWrite (v : Word) (d : Dev) : Dev :=
  let v := (if fieldOf v 8 4 == 0 then putField v 8 4 1 else v) &&& 0xF0F3F#32
  let old := d.rd Reg.TWIN_CTL
  if 8 < fieldOf v 16 4 || (d.atmRuns && (v ^^^ old) &&& 0xFFFFFFF1#32 != 0) then d.twinEvt 12
  else
    let d := d.wr Reg.TWIN_CTL v
    let d := if v.getLsbD 0 && !old.getLsbD 0 then d.setRole 1
      else if !v.getLsbD 0 && old.getLsbD 0 then ((d.setRole 0).setArb false).setTwin fun t => { seen := t.seen }
      else d
    d.policyCheck

/-- TWIN_CTX_WRITE (R429): the contexts of all engines take at most 2,046 blocks. -/
def twinCtxWrite (n : Nat) (v : Word) (d : Dev) : Dev :=
  let size (w : Word) : Nat := if w.getLsbD 0 then (768 + 64 * fieldOf w 4 5 + 64 * fieldOf w 16 10) / 8 else 0
  let total := (List.range 8).foldl (fun s m => s + size (if m == n then v else d.rd (Reg.TWIN_CTX m))) 0
  if d.atmRuns || 16 < fieldOf v 4 5 || 512 < fieldOf v 16 10 || 2046 < total then d.twinEvt 12 else d.genWrite (Reg.TWIN_CTX n) v

/-- Writes of TWIN_LIVE and TWIN_HOLD. -/
def twinLiveWrite (v : Word) (d : Dev) : Dev := if d.atmRuns then d.twinEvt 12 else d.genWrite Reg.TWIN_LIVE v
def twinHoldWrite (v : Word) (d : Dev) : Dev := d.genWrite Reg.TWIN_HOLD (if fieldOf v 0 16 == 0 then 1 else v)


/-! ### Meanings -/

def execTwinCtlWrite (m : Master) (v : Word) (s : State) : Host.Outcome State Fault Refusal := run (Dev.viaBus m Reg.TWIN_CTL (twinCtlWrite v)) s
def execTwinCommandReceived (f : Frame) (s : State) : Host.Outcome State Fault Refusal := run (Dev.frameIn 24 f twinCommandReceived) s
def execTwinCopyReceived (f : Frame) (s : State) : Host.Outcome State Fault Refusal := run (Dev.frameIn 24 f twinCopyReceived) s
def execTwinSnapReceived (f : Frame) (s : State) : Host.Outcome State Fault Refusal := run (Dev.frameIn 24 f twinSnapReceived) s
def execTwinStatusReceived (x : StatusIn) (s : State) : Host.Outcome State Fault Refusal := run (Dev.inLanes (twinStatusAt x.arbIn x.frame)) s
def execLiveRunStart (s : State) : Host.Outcome State Fault Refusal := run liveRunStart s
def execContextCaptureDone (n : Fin 8) (s : State) : Host.Outcome State Fault Refusal := run (contextCaptureDone n) s
def execTakeover (s : State) : Host.Outcome State Fault Refusal := run takeover s
def execClaim (s : State) : Host.Outcome State Fault Refusal := run claim s
def execClaimConfirm (arbInHigh : Bool) (s : State) : Host.Outcome State Fault Refusal := run (claimConfirm arbInHigh) s
def execYield (s : State) : Host.Outcome State Fault Refusal := run yieldCommand s
def execSwap (m : Master) (v : Word) (s : State) : Host.Outcome State Fault Refusal := run (Dev.viaBus m Reg.TWIN_CMD (twinCmdWrite v)) s
def execCancel (m : Master) (v : Word) (s : State) : Host.Outcome State Fault Refusal := run (Dev.viaBus m Reg.TWIN_CMD (twinCmdWrite v)) s
def execReturnHoldExpiry (s : State) : Host.Outcome State Fault Refusal := run returnHoldExpiry s
def execTwinStatusTimeout (s : State) : Host.Outcome State Fault Refusal := run twinStatusTimeout s
def execTwinCtxWrite (m : Master) (n : Fin 8) (v : Word) (s : State) : Host.Outcome State Fault Refusal := run (Dev.viaBus m (Reg.TWIN_CTX n) (twinCtxWrite n v)) s

end Sys2Proof.Machine
end

