-- ==== Sys2Proof/Machine/Period.lean ====
section
/-! DEFINITION. The four instants of the control period and what meets at them, grid changes and steps of device time, fault events
(spec/01_control_period.md, R14 to R29, R536; spec/13_clocks_time.md, R446, R447; spec/11_protection_safety.md, R375). -/

namespace Sys2Proof.Machine

/-! ### The boundary -/

/-- The converter snapshot, with GATE_STAT and the device time of the boundary (R22, R247). -/
def Dev.snapshot (d : Dev) : Dev :=
  let conv := (List.range 64).foldl (fun m i => SMap.put m (0, 0) i (SMap.getD (d.adc (i / 32)).snap (0, 0) (i % 32))) []
  let m := SMap.put conv (0, 0) 64 (d.rd Reg.GATE_STAT, 0)
  d.putSnap (SMap.put m (0, 0) 65 (BitVec.ofNat 32 d.tb.bnd, BitVec.ofNat 32 (d.tb.bnd / 2 ^ 32)))

/-- A request to measure a round trip to a position (R134, R157). -/
def Dev.probe (p i : Nat) (d : Dev) : Dev :=
  let b := [0x4B#8, BitVec.ofNat 8 (64 * b2n (d.endB p) + i), (d.port p).pseq, 0, 0, 0, 0]
  d.send (.block p (b ++ [crc8 b]))

/-- A calibration of a port measures its round trips in this period: periods P0 + 17 to P0 + 32 of a ring start, later the 16 from the one
behind its start on (R156). -/
def Dev.probing (d : Dev) (p : Nat) : Bool :=
  let q := d.port p
  if q.startDone then d.calWanted p && decide (q.calP < 16) else decide (17 ≤ q.runSince) && decide (q.runSince ≤ 32)

/-- The PROBEs of a period, for each position that has still to answer, as many as the gap holds (R29, R156, R169). -/
def Dev.probes (p : Nat) (d : Dev) : Dev :=
  let q := d.port p
  let due := ((List.range (d.nslot p)).map (· + 1)).filter fun i => decide (SMap.getD q.calN 0 i < d.fld (Reg.RING_CAL p) 20 4)
  if !d.probing p || due.isEmpty then d
  else due.foldl (fun d i => if d.gapFits p 1 then (d.laneTake p 1).probe p i else d) (d.setPort p fun q => { q with pseq := q.pseq + 1 })

/-- The other unit's end of a ring of a twin, as the boundary finds it: ONE_END, and the clearing of its offsets where it has left RUN (R131,
R158; DEDUCED, notes/assumptions/103). -/
def Dev.farEnd (p : Nat) (d : Dev) : Dev :=
  let seen := (d.port p).farSeen
  let d := d.setPort p fun q => { q with farSeen := false }
  if !d.inRun p || (d.partner p).isSome then d
  else if seen then d.setB (Reg.RING_LINK_STAT p) 1 false
  else if d.bit (Reg.RING_LINK_STAT p) 1 then d
  else ((d.setB (Reg.RING_LINK_STAT p) 1 true).linkEvt p 9).ofsClear p (!d.endB p)

/-- OFS_APPLY of a ring start, four boundaries behind its step 5: the descriptors that wait are read (R156 steps 7 and 8). -/
def Dev.startApply (p : Nat) (d : Dev) : Dev :=
  match (d.port p).applyLeft with
  | some (n + 1) =>
    let d := d.setPort p fun q => { q with applyLeft := some n }
    if n != 0 then d
    else (d.port p).readWait.reverse.foldl (fun d i => d.readDesc p i) (d.setPort p fun q => { q with readWait := [] })
  | _ => d

/-- TIME and COLLECT of a port at a boundary, with the repeats that go before, and what the device sends of its own in the gaps behind
(R21, R29, R132, R134, R135, R156, R160). -/
def Dev.portBoundary (p : Nat) (d : Dev) : Dev :=
  let d := d.farEnd p
  if !d.inRun p then d else
  let b := d.tb.bnd
  let d := d.setB (Reg.RING_LINK_STAT p) 3 (d.port p).wrapped
  let t := [0x33#8] ++ beBytes 6 (b % 2 ^ 48)
  let d := d.laneTake p (3 + 3 * d.nslot p)
  let d := ((d.tripRepeat p).send (.block p (t ++ [crc8 t]))).send
    (.frame p (mkFrame (d.sof 1 (d.endB p) (d.nslot p)) (List.replicate (24 * d.nslot p) 0)))
  let d := d.svcFlush p
  let q := d.port p
  let hi := b / 2 ^ 48
  let d := if !q.startDone && q.runSince == 1 then (d.startWrites p).setPort p fun q => { q with hiSent := hi + 1 }
    else if (b + 2000000000) / 2 ^ 48 != hi && q.hiSent != hi + 2 then
      (d.svcRequest p 0 4 0 0x0100 (beBytes 4 hi)).setPort p fun q => { q with hiSent := hi + 2 }
    else d
  let d := (d.probes p).startApply p
  let cal := (d.port p).startDone && d.calWanted p
  d.setPort p fun q => { q with
    runSince := q.runSince + 1, calDue := q.calDue + 1, calP := if cal then q.calP + 1 else q.calP, discAgo := q.discAgo.map (· + 1), wrapped := false,
    rounds := 0 }

/-- A step of device time by `s` (2^-16 ns) at the boundary in progress (R447, R536). -/
def Dev.makeStep (s : Int) (d : Dev) : Dev :=
  let d : Dev := d.putTb { d.tb with stepPend := none, stepSrv := none }
  let t := ((d.tb.bnd : Int) * 65536 + s).toNat
  let ns := rnd s 65536
  let d := d.shiftTimes ns
  let d := forN 2 (fun n d => d.setServo n fun x => { x with lastX := x.lastX + s, lo := x.lo + s, hi := x.hi + s }) d
  let d : Dev := (d.putTb { d.tb with dt := t * 2 ^ 32, bnd := t / 65536, notBefore := (t + 65535) / 65536 + 10000 }).putNet { d.net with steps := d.net.steps + 1 }
  (d.setB Reg.TIME_STATUS 9 true).flcEvent 0x0A (leBytes 8 (low 64 ns))

/-- A waiting step is judged again at the boundary (R446). -/
def Dev.boundaryStep (d : Dev) : Dev :=
  match d.tb.stepPend with
  | none => d
  | some s => if d.stepOk s d.tb.bnd then d.makeStep s else (d.setB Reg.TIME_STATUS 10 true).stepGiveUp

/-- A waiting T_P and anchor come into force (R19, R536). -/
def Dev.boundaryGrid (d : Dev) : Dev :=
  if !d.tb.gridPend then d
  else (d.putTb { d.tb with
    gridPend := false, oldTP := some d.tb.tP, tP := d.fld Reg.TIME_PERIOD 0 18, anchor := d.fld Reg.TIME_ANCHOR 0 18, notBefore := max d.tb.notBefore (d.tb.bnd + 10000) })

/-- ENG_START and OUT_PHASE of the period that begins: each occurs if it falls before the next boundary (R16, R536). -/
def Dev.placePhases (d : Dev) : Dev :=
  let n := d.nextBoundary
  let e := d.tb.bnd + d.tb.engStart
  let o := d.tb.bnd + d.tb.outPhase
  d.putTb { d.tb with engAt := if e < n then some e else none, outAt := if o < n then some o else none }

/-- PERIOD_BOUNDARY (R14, R15, R18, R21, R22, R536): due when ENG_START and OUT_PHASE of the period in progress are over. -/
def periodBoundary (d : Dev) : Dev :=
  if !d.tb.counting || d.tb.engAt.isSome || d.tb.outAt.isSome then d else
  let b := d.nextBoundary
  let d := d.advTo b
  let ph := d.tb.phPend
  let d : Dev := ((d.putTb { d.tb with
      bnd := b, k := (b - d.tb.anchor) / d.tb.tP % 2 ^ 32, inPeriod := true, engPast := false, oldTP := none, notBefore := b + 1, phPend := false,
      engStart := if ph then 10 * d.fld Reg.TIME_PHASES 0 16 else d.tb.engStart,
      outPhase := if ph then 10 * d.fld Reg.TIME_PHASES 16 16 else d.tb.outPhase }).putTwin { d.twin with relayed := [] })
  let d := if d.fc.relAt.any fun r => r != d.tb.k && (r + 1) % 2 ^ 32 != d.tb.k then (d.putFc { d.fc with relAt := none }) else d
  let d := (d.cellsDone.landSet.gateBoundary).snapshot
  let d := forN 24 (fun p d => d.portBoundary p) d
  d.swapBoundary.boundaryStep.boundaryGrid.placePhases

/-! ### ENG_START -/

/-- The first 64 × XIN bytes of exchange memory (R413), in the order of their addresses: each word least significant byte first, where R411
says nothing of their order in a SNAP (DESIGN CHOICE, notes/assumptions/84). -/
def Dev.xArea (d : Dev) : List Byte := (List.range (64 * d.fld Reg.TWIN_CTL 16 4)).map fun i => memByte d.mem (0x18000000 + i)

/-- SNAP (R411): the input image, four zero bytes, the latched exchange area; not sent where it cannot be complete at the standby before the
next ENG_START. -/
def Dev.sendSnap (d : Dev) : Dev :=
  if !d.twinBy (645 + 8 * d.fld Reg.TWIN_CTL 16 4) d.nextPhases.1 then d else
  d.twinSend 10 0 (((List.range 1285).map fun j => beBytes 4 (SMap.getD d.img 0 (4 * j)).toNat).flatten ++ List.replicate 4 0 ++ d.twin.xinLatch)

/-- What a unit of a twin pair sends at an ENG_START: STATUS, and as holder SNAP behind it (R409 to R411). LINK_UP falls when the period
brought no STATUS. -/
def Dev.twinStart (d : Dev) : Dev :=
  if d.role == 0 then d else
  let n := d.twin.noStat
  let d := if n == 0 then d else d.setB Reg.TWIN_STAT 5 false
  let d := d.setTwin fun t => { t with noStat := n + 1 }
  (if d.role == 2 then (d.sendStatus d.twin.ocrcLast).sendSnap else d.sendStatus 0).twinSvcFlush

/-- The engines at the ENG_START of a standby: its shadow run starts, of the period before (R415 to R418). A check still due is void. -/
def Dev.shadowStart (d : Dev) : Dev :=
  let d := if d.twin.shadowPer.isSome then d.checkDone 2 else d
  let k1 := (d.tb.k + 2 ^ 32 - 1) % 2 ^ 32
  let k2 := (d.tb.k + 2 ^ 32 - 2) % 2 ^ 32
  let d := d.setTwin fun t => { t with
    shadowRun := true, shadowEnd := true, ocrcLog := [], capBusy := [], caps := [], capEnd := 0, shadowPer := some k1,
    shadowOk := t.ctxPer == some k2 && t.snapPer == some k1 }
  forN 8 (fun n d => d.engBegin n k1 0 (d.eng n).oldP3) d

/-- The engines at ENG_START (R25, R253, R265 to R283, R413). -/
def Dev.enginesStart (d : Dev) : Dev :=
  if !d.domainOn 3 then d else
  let last := d.ocrc
  let d := forN 8 (fun n d => d.engChanges n d.tb.k) d
  let d := ((d.stageSkipped.xFlushAll).publish).sortStart (d.tb.tP / 2)
  let d := (d.eccSpan 0x18000000 (64 * d.fld Reg.TWIN_CTL 16 4)).setTwin fun t => { t with xinLatch := d.xArea, ctxs := [] }
  if d.standby then d.shadowStart
  else
    let d := d.setTwin fun t => { t with ocrcLast := last, ocrcLog := [] }
    forN 8 (fun n d => d.engBegin n d.tb.k 0 (d.eng n).p3) d

/-- p3 of the enabled engines, the next free value where they differ (R272; DEDUCED, notes/assumptions/20). -/
def Dev.imageP3 (d : Dev) : Bool :=
  let l := ((List.range 8).filter fun n => d.bit (Reg.AECTL_STAT n) 4).map fun n => (d.eng n).p3
  if l.all (· == true) then !l.isEmpty else if l.any (· == true) then Config.freeNat d.freeCtr % 2 == 1 else false

/-- ENG_START (R23 to R25, R167, R176, R178, R388, R415, R537). -/
def engStart (d : Dev) : Dev :=
  match d.tb.engAt with
  | none => d
  | some t =>
    if !d.tb.counting then d else
    let d := d.advTo t
    let d : Dev := d.putTb { d.tb with engAt := none, engPast := true }
    let d := d.cellsStart
    let d := d.enginesStart
    let d := (d.putImg (d.inputImage d.imageP3)).nextFree.cellsDone
    if d.domainOn 4 then d.swapLate.twinStart else d

/-! ### OUT_PHASE -/

/-- OUT_PHASE (R26, R200, R202). -/
def outPhase (d : Dev) : Dev :=
  match d.tb.outAt with
  | none => d
  | some t =>
    if !d.tb.counting || d.tb.engAt.isSome then d else
    let d := d.advTo t
    ((d.putTb { d.tb with outAt := none }).takeOutputs).atmOutPhase

/-- COPY behind the COMMAND stream, where every context engine halted before OUT_PHASE (R409, R411, R414, R418); not sent where it cannot
be complete at the standby before the next OUT_PHASE (R35). -/
def Dev.sendCopy (d : Dev) : Dev :=
  let l := d.ctxPlaces.map fun e => SMap.getD d.twin.ctxs [] e.1
  if d.role != 2 || l.any (·.isEmpty) || !d.twinBy (2 + l.flatten.length / 8) d.nextPhases.2 then d
  else (d.twinSend 9 0 l.flatten).setTwin fun t => { t with ctxs := [] }

/-- COMMAND_FRAME_LAUNCH with the COPY that follows it. -/
def commandLaunch (d : Dev) : Dev := if d.atm.cmdDue then (commandFrameLaunch d).sendCopy.twinSvcFlush else d

/-! ### Fault events -/

/-- FAULT_EVENT (R375 to R384, R287, R402): the sources raised since the last event form one. -/
def faultEvent (d : Dev) : Dev :=
  match d.fc.forming with
  | [] => d
  | i :: rest =>
    let d := d.formEvent
    d.silFault (i :: rest) (d.fld (Reg.FC_PCLS (i / 16)) (2 * (i % 16)) 2)

/-! ### Meanings -/

def execPeriodBoundary (s : State) : Host.Outcome State Fault Refusal := run periodBoundary s
def execEngStart (s : State) : Host.Outcome State Fault Refusal := run engStart s
def execOutPhase (s : State) : Host.Outcome State Fault Refusal := run outPhase s
def execCommandFrameLaunch (s : State) : Host.Outcome State Fault Refusal := run commandLaunch s
def execFaultEvent (s : State) : Host.Outcome State Fault Refusal := run faultEvent s

end Sys2Proof.Machine
end

