-- ==== Sys2Proof/Machine/Crypto.lean ====
section
/-! DEFINITION. The image's checks (spec/15_supervisor_boot.md, R495, R496): SHA-256 as FIPS 180-4 gives it, and the verification of an
ECDSA signature on P-256 as FIPS 186-5 gives it. The spec names both standards and states neither: their functions and constants are
PRESUMED from the standards (notes/assumptions/113). -/

namespace Sys2Proof.Machine

/-- `k n`, with `n` evaluated first. -/
def evalFirst {α : Type} (n : Nat) (k : Nat → α) : α :=
  match n with
  | 0 => k 0
  | m + 1 => k (m + 1)

theorem evalFirst_eq {α : Type} (n : Nat) (k : Nat → α) : evalFirst n k = k n := by cases n <;> rfl

/-! ### SHA-256 -/

/-- The round constants of SHA-256. -/
def shaK : List Nat :=
  [0x428a2f98, 0x71374491, 0xb5c0fbcf, 0xe9b5dba5, 0x3956c25b, 0x59f111f1, 0x923f82a4, 0xab1c5ed5, 0xd807aa98, 0x12835b01, 0x243185be,
   0x550c7dc3, 0x72be5d74, 0x80deb1fe, 0x9bdc06a7, 0xc19bf174] ++
  [0xe49b69c1, 0xefbe4786, 0x0fc19dc6, 0x240ca1cc, 0x2de92c6f, 0x4a7484aa, 0x5cb0a9dc, 0x76f988da, 0x983e5152, 0xa831c66d, 0xb00327c8,
   0xbf597fc7, 0xc6e00bf3, 0xd5a79147, 0x06ca6351, 0x14292967] ++
  [0x27b70a85, 0x2e1b2138, 0x4d2c6dfc, 0x53380d13, 0x650a7354, 0x766a0abb, 0x81c2c92e, 0x92722c85, 0xa2bfe8a1, 0xa81a664b, 0xc24b8b70,
   0xc76c51a3, 0xd192e819, 0xd6990624, 0xf40e3585, 0x106aa070] ++
  [0x19a4c116, 0x1e376c08, 0x2748774c, 0x34b0bcb5, 0x391c0cb3, 0x4ed8aa4a, 0x5b9cca4f, 0x682e6ff3, 0x748f82ee, 0x78a5636f, 0x84c87814,
   0x8cc70208, 0x90befffa, 0xa4506ceb, 0xbef9a3f7, 0xc67178f2]

/-- The initial hash of SHA-256. -/
def shaH : List Nat := [0x6a09e667, 0xbb67ae85, 0x3c6ef372, 0xa54ff53a, 0x510e527f, 0x9b05688c, 0x1f83d9ab, 0x5be0cd19]

/-- A 32-bit word rotated right by `n`. -/
def rotr32 (n x : Nat) : Nat := (x >>> n) ||| ((x <<< (32 - n)) % 2 ^ 32)

/-- One more word of the message schedule, put before the list of those so far, newest first. -/
def shaNext (l : List Nat) : List Nat :=
  let w (i : Nat) : Nat := l.getD i 0
  let s0 := rotr32 7 (w 14) ^^^ rotr32 18 (w 14) ^^^ (w 14 >>> 3)
  let s1 := rotr32 17 (w 1) ^^^ rotr32 19 (w 1) ^^^ (w 1 >>> 10)
  evalFirst ((s1 + w 6 + s0 + w 15) % 2 ^ 32) fun v => v :: l

/-- One round, with the sum of its constant and its schedule word. -/
def shaRound (h : List Nat) (kw : Nat) : List Nat :=
  match h with
  | [a, b, c, d, e, f, g, x] =>
    let t1 := x + (rotr32 6 e ^^^ rotr32 11 e ^^^ rotr32 25 e) + ((e &&& f) ^^^ ((2 ^ 32 - 1 - e) &&& g)) + kw
    let t2 := (rotr32 2 a ^^^ rotr32 13 a ^^^ rotr32 22 a) + ((a &&& b) ^^^ (a &&& c) ^^^ (b &&& c))
    evalFirst ((d + t1) % 2 ^ 32) fun e' => evalFirst ((t1 + t2) % 2 ^ 32) fun a' => [a', a, b, c, e', e, f, g]
  | l => l

/-- The hash after one block of 16 words. -/
def shaBlock (h m : List Nat) : List Nat :=
  let w := ((List.range 48).foldl (fun l _ => shaNext l) m.reverse).reverse
  (h.zip (((shaK.zip w).map fun e => e.1 + e.2).foldl shaRound h)).map fun e => (e.1 + e.2) % 2 ^ 32

/-- Big-endian words of a list of byte values. -/
def beWords : List Nat → List Nat
  | a :: b :: c :: d :: r => (a * 2 ^ 24 + b * 2 ^ 16 + c * 2 ^ 8 + d) :: beWords r
  | _ => []

/-- The first `n` blocks of 16 words. -/
def shaSplit : Nat → List Nat → List (List Nat)
  | 0, _ => []
  | n + 1, l => l.take 16 :: shaSplit n (l.drop 16)

/-- SHA-256 of a byte string (FIPS 180-4): eight words, the first most significant. -/
def sha256 (b : List Byte) : List Nat :=
  let n := b.length
  let w := beWords (b.map (·.toNat) ++ 0x80 :: List.replicate ((119 - n % 64) % 64) 0 ++ (List.range 8).reverse.map fun i => 8 * n / 256 ^ i % 256)
  (shaSplit (w.length / 16) w).foldl shaBlock shaH

/-- Words as one number, the first most significant. -/
def wordsVal (l : List Nat) : Nat := l.foldl (fun n w => n * 2 ^ 32 + w) 0

/-! ### ECDSA on P-256 -/

/-- The prime of P-256. -/
def p256P : Nat := 0xffffffff00000001000000000000000000000000ffffffffffffffffffffffff

/-- The order of P-256. -/
def p256N : Nat := 0xffffffff00000000ffffffffffffffffbce6faada7179e84f3b9cac2fc632551

/-- The coefficient b of P-256; the coefficient a is −3. -/
def p256B : Nat := 0x5ac635d8aa3a93e7b3ebbd55769886bc651d06b0cc53b0f63bce3c3e27d2604b

/-- A point of the curve in Jacobian coordinates: (x / z², y / z³), with z = 0 the point at infinity. -/
structure EcPt where
  x : Nat
  y : Nat
  z : Nat
  deriving DecidableEq, Repr

/-- A point from unreduced coordinates. -/
def ecPt (x y z : Nat) : EcPt := evalFirst (x % p256P) fun x => evalFirst (y % p256P) fun y => evalFirst (z % p256P) fun z => ⟨x, y, z⟩

/-- Twice a point. -/
def ecDbl (a : EcPt) : EcPt :=
  evalFirst (a.y * a.y % p256P) fun yy =>
  evalFirst (4 * a.x * yy % p256P) fun s =>
  evalFirst (a.z * a.z % p256P) fun zz =>
  evalFirst (3 * (a.x + zz) * (a.x + p256P - zz) % p256P) fun m =>
  evalFirst ((m * m + 2 * (p256P - s)) % p256P) fun x =>
  ecPt x (m * (s + p256P - x) + 8 * (p256P - yy * yy % p256P)) (2 * a.y * a.z)

/-- The sum of two points. -/
def ecAdd (a b : EcPt) : EcPt :=
  if a.z == 0 then b else if b.z == 0 then a else
  evalFirst (a.z * a.z % p256P) fun za =>
  evalFirst (b.z * b.z % p256P) fun zb =>
  evalFirst (a.x * zb % p256P) fun u1 =>
  evalFirst (b.x * za % p256P) fun u2 =>
  evalFirst (a.y * zb % p256P * b.z % p256P) fun s1 =>
  evalFirst (b.y * za % p256P * a.z % p256P) fun s2 =>
  evalFirst ((u2 + p256P - u1) % p256P) fun h =>
  evalFirst ((s2 + p256P - s1) % p256P) fun r =>
  if h == 0 then (if r == 0 then ecDbl a else ⟨1, 1, 0⟩) else
  evalFirst (h * h % p256P) fun hh =>
  evalFirst (hh * h % p256P) fun hhh =>
  evalFirst (u1 * hh % p256P) fun v =>
  evalFirst ((r * r + p256P - hhh + 2 * (p256P - v)) % p256P) fun x =>
  ecPt x (r * (v + p256P - x) + s1 * (p256P - hhh)) (h * (a.z * b.z % p256P))

/-- `r` times the power of `b` whose exponent is the low `n` bits of `e`, mod `m`, `r` squared at each bit. -/
def powMod (m b : Nat) : Nat → Nat → Nat → Nat
  | 0, _, r => r
  | n + 1, e, r => evalFirst (r * r % m) fun r => evalFirst (if e / 2 ^ n % 2 == 1 then r * b % m else r) fun r => powMod m b n e r

/-- 2ⁿ r + (u mod 2ⁿ) p + (v mod 2ⁿ) q, where `pq` is p + q. -/
def ecMul2 (u v : Nat) (p q pq : EcPt) : Nat → EcPt → EcPt
  | 0, r => r
  | n + 1, r =>
    let r := ecDbl r
    ecMul2 u v p q pq n (match u / 2 ^ n % 2, v / 2 ^ n % 2 with
      | 0, 0 => r
      | _, 0 => ecAdd r p
      | 0, _ => ecAdd r q
      | _, _ => ecAdd r pq)

/-- The base point of P-256. -/
def p256G : EcPt :=
  ⟨0x6b17d1f2e12c4247f8bce6e563a440f277037d812deb33a0f4a13945d898c296, 0x4fe342e2fe1a7f9b8ee7eb4a7c0f9e162bce33576b315ececbb6406837bf51f5, 1⟩

/-- An ECDSA signature (r, s) of the hash `e` verifies under the public key (qx, qy), a point of P-256 (FIPS 186-5). -/
def ecdsaOk (qx qy r s e : Nat) : Bool :=
  decide (0 < r) && decide (r < p256N) && decide (0 < s) && decide (s < p256N) && decide (qx < p256P) && decide (qy < p256P) &&
  (qy * qy % p256P == (qx * qx * qx + (p256P - 3) * qx + p256B) % p256P) &&
  evalFirst (powMod p256N s 256 (p256N - 2) 1) fun w =>
  evalFirst (e * w % p256N) fun u =>
  evalFirst (r * w % p256N) fun v =>
  let t := ecMul2 u v p256G ⟨qx, qy, 1⟩ (ecAdd p256G ⟨qx, qy, 1⟩) 256 ⟨1, 1, 0⟩
  t.z != 0 && (let zz := t.z * t.z % p256P; r * zz % p256P == t.x || (decide (r + p256N < p256P) && (r + p256N) * zz % p256P == t.x))

end Sys2Proof.Machine

namespace Sys2Proof

open Sys2Proof.Machine

/-! ### The image header (R495): numbers least significant byte first, byte strings most significant byte first -/

/-- The fused key hash used. -/
def Image.keyIdx (x : Image) : Nat := byteAt x.bytes 5

/-- The security version. -/
def Image.svn (x : Image) : Nat := byteAt x.bytes 6

/-- The image sequence number. -/
def Image.seq (x : Image) : Nat := fieldLe x.bytes 0x08 4

/-- The payload's bytes. -/
def Image.len (x : Image) : Nat := fieldLe x.bytes 0x0C 4

/-- The SRAM address of the payload. -/
def Image.load (x : Image) : Nat := fieldLe x.bytes 0x10 4

/-- The first instruction. -/
def Image.entry (x : Image) : Nat := fieldLe x.bytes 0x14 4

/-- The payload, from slot offset 0x100. -/
def Image.payload (x : Image) : List Byte := (x.bytes.drop 0x100).take x.len

/-- TAG, FMT and the reserved bytes are as the table has them, and so are the bounds of LEN, LOAD and ENTRY (R495, R496). -/
def Image.headOk (x : Image) : Bool :=
  fieldLe x.bytes 0 4 == 0x49565053 && byteAt x.bytes 4 == 1 && byteAt x.bytes 7 == 0 && fieldAt x.bytes 0x18 8 == 0 && fieldAt x.bytes 0xC0 64 == 0 &&
  x.len % 4 == 0 && decide (4 ≤ x.len) && decide (x.len ≤ 0x1F0000) && x.load % 4 == 0 && decide (x.load + x.len ≤ 0x1F0000) &&
  x.entry % 4 == 0 && decide (x.load ≤ x.entry) && decide (x.entry < x.load + x.len) && decide (0x100 + x.len ≤ x.bytes.length)

/-- The SHA-256 of PUBKEY is the fused hash KEYIDX, whose word 8k + w is `hashes` at that key (R496, R500). -/
def Image.keyOk (x : Image) (hashes : Nat → Nat) : Bool :=
  decide (x.keyIdx < 4) && sha256 ((x.bytes.drop 0x40).take 64) == (List.range 8).map fun w => hashes (8 * x.keyIdx + w)

/-- SIG verifies over bytes 0x00 to 0x7F (R495, R496). -/
def Image.sigOk (x : Image) : Bool :=
  ecdsaOk (fieldAt x.bytes 0x40 32) (fieldAt x.bytes 0x60 32) (fieldAt x.bytes 0x80 32) (fieldAt x.bytes 0xA0 32) (wordsVal (sha256 (x.bytes.take 0x80)))

/-- The SHA-256 of the payload equals DIGEST (R496). -/
def Image.digestOk (x : Image) : Bool := wordsVal (sha256 x.payload) == fieldAt x.bytes 0x20 32

end Sys2Proof
end

