-- ==== Sys2Proof/Machine/Supv.lean ====
section
/-! DEFINITION. The supervisor's system registers, interrupts, memory protection, watchdog, boot, fuses, debug access, and its devices
(spec/15_supervisor_boot.md, R483 to R511; spec/07_accord_isa.md, R258 to R262; spec/03_power_start_reset.md, R67 to R69). -/

namespace Sys2Proof.Machine

/-! ### System registers -/

/-- The reset value of a system register (R262 and the table of R492). -/
def sysReset (n : Nat) : Word :=
  if n == 5 then 0xFFFF0000 else if n == 0x301 || n == 0x305 then 1 else if n == 0x311 then 0x7D0 else 0

/-- A system register that stands in the table `sysr`. -/
def Dev.sysr (d : Dev) (n : Nat) : Word := SMap.getD d.sup.sysr (sysReset n) n
def Dev.setSysr (n : Nat) (v : Word) (d : Dev) : Dev :=
  d.putSup { d.sup with sysr := SMap.put d.sup.sysr (sysReset n) n v }

/-- The system register numbers that are implemented (R262). -/
def sysrKnown (n : Nat) : Bool :=
  decide (n < 8) || (decide (0x10 ≤ n) && decide (n < 0x24)) || (decide (0x100 ≤ n) && decide (n < 0x140) && n % 4 != 3) || n == 0x140 ||
    (decide (0x200 ≤ n) && decide (n < 0x205)) || (decide (0x300 ≤ n) && decide (n < 0x303)) || (decide (0x304 ≤ n) && decide (n < 0x307)) ||
    n == 0x308 || (decide (0x310 ≤ n) && decide (n < 0x315))

/-- PSR as a word. -/
def Dev.psr (d : Dev) : Word :=
  BitVec.ofNat 32 (b2n d.sup.sys + 2 * b2n d.sup.ie + 2 * (d.sup.regs.p.toNat / 2 * 2) + 32 * b2n d.sup.satf)

/-- PSR from a word. -/
def Dev.setPsr (v : Word) (d : Dev) : Dev :=
  (d.putSup { d.sup with
    sys := v.getLsbD 0, ie := v.getLsbD 1, satf := v.getLsbD 5,
    regs := { d.sup.regs with p := BitVec.ofNat 4 (fieldOf v 2 3 * 2) } })

/-- LS_REM of a loop. -/
def loopRem (l : Loop) : Word := BitVec.ofNat 32 (l.rem % 2 ^ 17 + 2 ^ 30 * b2n l.sup + 2 ^ 31 * b2n l.act)

/-- A loop register by its place in a group of four: first, last body address, state, index. -/
def loopRead (l : Loop) : Nat → Word
  | 0 => BitVec.ofNat 32 l.beg
  | 1 => BitVec.ofNat 32 l.fin
  | 2 => loopRem l
  | _ => BitVec.ofNat 32 (l.idx % 2 ^ 17)

def loopWrite (l : Loop) (v : Word) : Nat → Loop
  | 0 => { l with beg := v.toNat }
  | 1 => { l with fin := v.toNat }
  | 2 => { l with rem := fieldOf v 0 17, sup := v.getLsbD 30, act := v.getLsbD 31 }
  | _ => { l with idx := fieldOf v 0 17 }

/-! ### Interrupts -/

/-- An EVT register has a bit set that its IEN register enables. -/
def Dev.evtOn (d : Dev) (e i : Nat) : Bool := d.rd e &&& d.rd i != 0

/-- Interrupt line `l` is asserted (R486). -/
def Dev.irqLine (d : Dev) (l : Nat) : Bool :=
  let on (dom : Nat) (b : Bool) : Bool := d.domainOn dom && b
  match l with
  | 0 => d.evtOn Reg.FC_EVT Reg.FC_IEN
  | 1 => d.evtOn Reg.SYS_READY_EVT Reg.SYS_READY_IEN
  | 2 => d.evtOn Reg.SAFE_EVT Reg.SAFE_IEN
  | 3 => d.evtOn Reg.CLK_EVT Reg.CLK_IEN
  | 4 => d.evtOn Reg.TIME_EVT Reg.TIME_IEN
  | 5 => d.evtOn Reg.GATE_EVT Reg.GATE_IEN || d.evtOn Reg.GATE_SUP_EVT Reg.GATE_SUP_IEN
  | 6 => on 4 (d.evtOn Reg.ATM_EVT Reg.ATM_IEN)
  | 7 => on 4 ((List.range 5).any fun j => d.evtOn (Reg.CELL_EVT j) (Reg.CELL_IEN j))
  | 8 => on 4 (d.evtOn Reg.TWIN_EVT Reg.TWIN_IEN)
  | 9 => on 3 (d.rd Reg.SORT_EVT != 0)
  | 10 => on 3 (d.evtOn Reg.SIL_EVT Reg.SIL_IEN)
  | 43 => on 6 (d.evtOn (Reg.ADC_EVT 0) (Reg.ADC_IEN 0))
  | 44 => on 6 (d.evtOn (Reg.ADC_EVT 1) (Reg.ADC_IEN 1))
  | 45 => d.evtOn Reg.CMP_EVT Reg.CMP_IEN
  | 46 => d.evtOn Reg.TMON_EVT Reg.TMON_IEN
  | 47 => on 7 (d.evtOn Reg.MET_EVT Reg.MET_IEN)
  | 48 => on 7 (d.evtOn Reg.FLC_EVT Reg.FLC_IEN)
  | 49 => on 7 (d.evtOn Reg.PCNT_EVT Reg.PCNT_IEN)
  | 50 => on 7 (d.evtOn Reg.POUT_EVT Reg.POUT_IEN)
  | 55 => on 5 (d.evtOn Reg.SW_EVT Reg.SW_IEN)
  | 56 => on 5 (d.evtOn Reg.QM_EVT Reg.QM_IEN)
  | 57 => d.bit Reg.SCRUB_UE_INFO 3 || d.bit Reg.SCRUB_BERR_INFO 8
  | 58 => on 2 (d.evtOn Reg.QSPI_EVT Reg.QSPI_IEN)
  | 59 => on 2 (d.evtOn Reg.UART_EVT Reg.UART_IEN)
  | 60 => on 2 (d.evtOn Reg.GPIO_EVT Reg.GPIO_IEN)
  | 61 => d.evtOn Reg.PMIC_EVT Reg.PMIC_IEN
  | 62 => fieldOf (d.sysr 0x308) 0 2 != 0
  | 63 => (d.sysr 0x308).getLsbD 2
  | l =>
    if 11 ≤ l && l < 19 then on 3 (d.evtOn (Reg.AECTL_EVT (l - 11)) (Reg.AECTL_IEN (l - 11)))
    else if 19 ≤ l && l < 43 then on 4 (d.evtOn (Reg.RING_LINK_EVT (l - 19)) (Reg.RING_LINK_IEN (l - 19)))
    else if 51 ≤ l && l < 55 then on 5 (d.evtOn (Reg.ETH_EVT (l - 51)) (Reg.ETH_IEN (l - 51)))
    else false

/-- IC_EN of a line. -/
def Dev.irqEn (d : Dev) (l : Nat) : Bool := (d.sysr (0x200 + l / 32)).getLsbD (l % 32)

/-- The line that would be taken next (R487). -/
def Dev.irqTop (d : Dev) : Option Nat := (List.range 64).find? fun l => d.irqEn l && d.irqLine l

/-! ### Watchdog and timers -/

/-- Sets bits of TMR_EVT. -/
def Dev.tmrEvt (i : Nat) (d : Dev) : Dev := d.setSysr 0x308 (d.sysr 0x308 ||| (1#32 <<< i))

/-- A watchdog violation or expiry (R485): FLT_WDOG, and a supervisor restart or, with WD_ACT, a software reset that keeps SYS_BOOT. -/
def Dev.wdBite (cause : Nat) (d : Dev) : Dev :=
  if d.bit Reg.SCB_CTL 0 then ((d.raise 94).bigReset 2 true true).topNote
  else ((d.supvRestart cause).setB Reg.SYS_RST_CAUSE 5 true).raise 94

/-- The watchdog counts: EN is set, and no debugger freezes it (R491). -/
def Dev.wdRuns (d : Dev) : Bool :=
  d.domainOn 2 && (d.sysr 0x310).getLsbD 0 && !(d.boot.halted && d.bit Reg.SCB_DBG 17)

/-- An accepted kick. -/
def Dev.wdKicked (d : Dev) : Dev := (d.setSysr 0x314 0).putSup { (d.setSysr 0x314 0).sup with warned := false }

/-- WD_KICK (R491, R492): accepted with its key once ELAPSED has reached WIN, else a violation. -/
def wdKick (v : Word) (d : Dev) : Dev :=
  if !(d.domainOn 2 && (d.sysr 0x310).getLsbD 0) then d
  else if fieldOf v 0 16 == 0xC35A && decide ((d.sysr 0x312).toNat ≤ (d.sysr 0x314).toNat) then d.wdKicked
  else d.wdBite 3

/-- WD_EXPIRY (R491): ELAPSED reaches TO. -/
def wdExpiry (d : Dev) : Dev := if d.wdRuns then (d.setSysr 0x314 (d.sysr 0x311)).wdBite 2 else d

/-- WD_WARN (R491): ELAPSED reaches TO - WARN; once per kick interval. -/
def wdWarn (d : Dev) : Dev :=
  if !d.wdRuns || d.sup.warned then d
  else
    let at' := (d.sysr 0x311).toNat - fieldOf (d.sysr 0x310) 8 8
    let d := d.setSysr 0x314 (BitVec.ofNat 32 (max at' (d.sysr 0x314).toNat))
    (d.tmrEvt 2).putSup { (d.tmrEvt 2).sup with warned := true }

/-- One millisecond of the watchdog. -/
def Dev.wdMs (d : Dev) : Dev :=
  if !d.wdRuns then d else
  let e := (d.sysr 0x314).toNat + 1
  if (d.sysr 0x311).toNat ≤ e then wdExpiry d
  else
    let d := d.setSysr 0x314 (BitVec.ofNat 32 e)
    if (d.sysr 0x311).toNat ≤ e + fieldOf (d.sysr 0x310) 8 8 then wdWarn d else d

/-- TIMER_EXPIRY (R490): VAL reaches 0. -/
def timerExpiry (t : Nat) (d : Dev) : Dev :=
  let c := d.sysr (0x300 + 4 * t)
  if !(d.domainOn 2 && c.getLsbD 0) then d else
  let d := d.tmrEvt t
  if c.getLsbD 1 then d.setSysr (0x302 + 4 * t) (d.sysr (0x301 + 4 * t))
  else (d.setSysr (0x302 + 4 * t) 0).setSysr (0x300 + 4 * t) (c &&& ~~~1#32)

/-- One microsecond of a timer (R490). -/
def Dev.timerUs (t : Nat) (d : Dev) : Dev :=
  if !(d.domainOn 2 && (d.sysr (0x300 + 4 * t)).getLsbD 0) then d
  else
    let v := d.sysr (0x302 + 4 * t)
    if v.toNat ≤ 1 then timerExpiry t d else d.setSysr (0x302 + 4 * t) (v - 1)

/-! ### MFS and MTS -/

/-- What MFS reads (R262). -/
def Dev.mfs (d : Dev) (n : Nat) : Word :=
  if n == 0 then d.psr
  else if 0x10 ≤ n && n < 0x20 then
    loopRead (if n < 0x14 then d.sup.regs.l0 else if n < 0x18 then d.sup.regs.l1 else if n < 0x1C then d.sup.e0 else d.sup.e1) (n % 4)
  else if n == 0x20 then BitVec.ofNat 32 d.sup.cyc
  else if n == 0x21 then BitVec.ofNat 32 d.sup.cycHi
  else if n == 0x22 then BitVec.ofNat 32 d.tb.k
  else if n == 0x23 then 0x10
  else if n == 0x202 then BitVec.ofNat 32 (bitsOf 32 d.irqLine)
  else if n == 0x203 then BitVec.ofNat 32 (bitsOf 32 fun b => d.irqLine (32 + b))
  else if n == 0x204 then (match d.irqTop with | some l => BitVec.ofNat 32 l | none => 0x40)
  else if n == 0x313 then 0
  else d.sysr n

/-- The side of a read: CYCLE_LO latches CYCLE_HI. -/
def Dev.mfsSide (n : Nat) (d : Dev) : Dev :=
  if n == 0x20 then (d.putSup { d.sup with cycHi := d.sup.cyc / 2 ^ 32 % 2 ^ 32 }) else d

/-- What MTS writes (R262, R488 to R491). -/
def Dev.mts (n : Nat) (v : Word) (d : Dev) : Dev :=
  if n == 0 then d.setPsr (if v.getLsbD 5 then v &&& ~~~32#32 else (v &&& ~~~32#32) ||| (if d.sup.satf then 32 else 0))
  else if n == 1 then d.setSysr 1 ((v &&& 0x1F#32) ||| (d.sysr 1 &&& 0x20#32 &&& ~~~v))
  else if n == 3 || n == 4 then d
  else if n == 5 then d.setSysr 5 (v &&& 0xFFFFF800#32)
  else if n < 8 then d.setSysr n v
  else if 0x10 ≤ n && n < 0x14 then d.putSup { d.sup with regs := { d.sup.regs with l0 := loopWrite d.sup.regs.l0 v (n % 4) } }
  else if 0x14 ≤ n && n < 0x18 then d.putSup { d.sup with regs := { d.sup.regs with l1 := loopWrite d.sup.regs.l1 v (n % 4) } }
  else if 0x18 ≤ n && n < 0x1C then d.putSup { d.sup with e0 := loopWrite d.sup.e0 v (n % 4) }
  else if 0x1C ≤ n && n < 0x20 then d.putSup { d.sup with e1 := loopWrite d.sup.e1 v (n % 4) }
  else if 0x100 ≤ n && n < 0x140 then d.setSysr n (v &&& (if n % 4 == 2 then 0x1F#32 else 0xFFFFFFE0#32))
  else if n == 0x140 then d.setSysr n (v &&& 3#32)
  else if n == 0x200 || n == 0x201 then d.setSysr n v
  else if n == 0x300 || n == 0x304 then
    let d' := if v.getLsbD 0 && !(d.sysr n).getLsbD 0 then d.setSysr (n + 2) (d.sysr (n + 1)) else d
    d'.setSysr n (v &&& 3#32)
  else if n == 0x301 || n == 0x305 then d.setSysr n (if v == 0 then 1 else v)
  else if n == 0x308 then d.setSysr n (d.sysr n &&& ~~~v)
  else if n == 0x310 then
    let o := d.sysr n
    d.setSysr n (((o ||| v) &&& 3#32) ||| ((if o.getLsbD 1 then o else v) &&& 0xFF00#32))
  else if n == 0x311 then (if (d.sysr 0x310).getLsbD 1 then d else d.setSysr n (if fieldOf v 0 16 == 0 then 1 else v &&& 0xFFFF#32))
  else if n == 0x312 then
    if (d.sysr 0x310).getLsbD 1 then d
    else if (d.sysr 0x311).toNat ≤ fieldOf v 0 16 then d.tmrEvt 3
    else d.setSysr n (v &&& 0xFFFF#32)
  else if n == 0x313 then wdKick v d
  else d

/-! ### Memory protection -/

/-- The region that decides an address: the enabled one of highest number that contains it (R488). -/
def Dev.mpuRegion (d : Dev) (a : Nat) : Option Word :=
  ((List.range 16).reverse.find? fun r =>
    (d.sysr (0x102 + 4 * r)).getLsbD 0 && decide ((d.sysr (0x100 + 4 * r)).toNat / 32 ≤ a / 32) &&
      decide (a / 32 ≤ (d.sysr (0x101 + 4 * r)).toNat / 32)).map fun r => d.sysr (0x102 + 4 * r)

/-- The memory protection unit lets an access through (R488). -/
def Dev.mpuData (d : Dev) (wr : Bool) (a : Nat) : Bool :=
  !(d.sysr 0x140).getLsbD 0 || d.sup.sys ||
    (match d.mpuRegion a with | some r => r.getLsbD (if wr then 2 else 1) | none => false)

def Dev.mpuFetch (d : Dev) (a : Nat) : Bool :=
  let r := d.mpuRegion a
  !(d.sysr 0x140).getLsbD 0 ||
    (if d.sup.sys then !(d.sysr 0x140).getLsbD 1 || (match r with | some r => r.getLsbD 4 | none => false)
     else match r with | some r => r.getLsbD 3 | none => false)

/-! ### Exceptions -/

/-- A word of ECAUSE. -/
def ecause (cause line berr snum : Nat) : Word := BitVec.ofNat 32 (cause + 16 * line + 1024 * berr + 65536 * snum)

/-- Exception entry (R261): five clocks (R257). -/
def Dev.excEnter (cause epc : Nat) (eaddr : Option Nat) (line berr snum : Nat) (d : Dev) : Dev :=
  let vec := (d.sysr 5).toNat + (if cause == 9 then 0x100 + 16 * line else 16 * cause)
  let d := ((d.setSysr 1 d.psr).setSysr 2 (BitVec.ofNat 32 epc)).setSysr 3 (ecause cause line berr snum)
  let d := match eaddr with | some a => d.setSysr 4 (BitVec.ofNat 32 a) | none => d
  (d.putSup { d.sup with
    e0 := d.sup.regs.l0, e1 := d.sup.regs.l1, sys := true, ie := false, hold := false, pc := vec % 2 ^ 32, cyc := d.sup.cyc + 5,
    regs := { d.sup.regs with l0 := { d.sup.regs.l0 with act := false }, l1 := { d.sup.regs.l1 with act := false } } })

/-- ERET (R261): two clocks beyond its own. -/
def Dev.excReturn (d : Dev) : Dev :=
  let d := d.setPsr (d.sysr 1)
  (d.putSup { d.sup with
    regs := { d.sup.regs with l0 := d.sup.e0, l1 := d.sup.e1 }, pc := (d.sysr 2).toNat / 4 * 4, cyc := d.sup.cyc + 3 })

/-- The supervisor's core runs: SUPV is on, an image runs, no debugger holds it. -/
def Dev.supRuns (d : Dev) : Bool := d.domainOn 2 && d.boot.runs && !d.boot.halted

/-- INTERRUPT_TAKEN (R487, R260): between instructions, with PSR.IE set. -/
def interruptTaken (d : Dev) : Dev :=
  if !(d.supRuns && d.sup.ie) then d
  else match d.irqTop with
    | some l => d.excEnter 9 d.sup.pc none l 0 0
    | none => d

/-- LOCKSTEP_MISMATCH (R484, R485). -/
def lockstepMismatch (d : Dev) : Dev := if d.domainOn 2 then (d.supvRestart 4).raise 94 else d

/-! ### Boot -/

/-- A slot passes (R495, R496): header, key, security version and signature; with `digest`, the payload as well. -/
def Dev.imageOk (d : Dev) (x : Image) (digest : Bool) : Bool :=
  x.headOk && d.boot.prog.getLsbD x.keyIdx && !d.boot.revoked.getLsbD x.keyIdx && decide (d.boot.svnMin ≤ x.svn) &&
    x.keyOk (fun i => (SMap.getD d.boot.hashes 0 i).toNat) && x.sigOk && (x.digestOk || !digest)

/-- The payload goes to LOAD while it is digested. -/
def Dev.loadImage (x : Image) (d : Dev) : Dev :=
  if d.imageOk x false then (d.putMem (memBytes d.mem x.load x.payload)) else d

/-- Step 6 of R493: an image runs, from ENTRY, at system level. What the ROM leaves in the core's registers is left open
(DESIGN CHOICE, safe, notes/assumptions/48). -/
def Dev.runImage (x : Image) (d : Dev) : Dev :=
  let c := d.freeCtr
  let regs : Regs := { g := (List.range 16).foldl (fun m i => SMap.put m 0 i (Config.freeWord (c + i))) [],
                       acc := (List.range 4).foldl (fun m i => SMap.put m 0 i (Config.freeNat (c + 16 + i) % 2 ^ 72)) [],
                       p := (Config.freeWord (c + 20)).setWidth 4 &&& 14#4 }
  let d := (d.putMem (d.mem.filter (fun e => !(decide (0x1F0000 ≤ e.1) && decide (e.1 < 0x200000))))).putFreeCtr (c + 21)
  let d := ((d.setF Reg.BOOT_STAT 4 2 x.keyIdx).setF Reg.BOOT_STAT 8 8 x.svn).wr Reg.BOOT_SEQ (BitVec.ofNat 32 x.seq)
  let d := (d.setB Reg.SYS_BOOT 4 true).setB Reg.SYS_BOOT 5 false
  let d := d.setReady 8 true
  (d.putBoot { d.boot with runs := true, serving := false, svn := x.svn, keyIdx := x.keyIdx }).putSup { d.sup with regs := regs, pc := x.entry, sys := true, ie := false, hold := false }

/-- The slot tried first (R497), and whether the image is rolled back. -/
def Dev.firstSlot (d : Dev) (a b : Option Image) : Bool × Bool :=
  let bit (i : Nat) : Bool := d.bit Reg.SYS_BOOT i
  let cause := d.fld Reg.SYS_SUPV_CAUSE 0 3
  let bad := 2 ≤ cause || (cause == 0 && d.bit Reg.SYS_RST_CAUSE 2 && d.bit Reg.SYS_RST_CAUSE 5)
  if bit 0 then (bit 1, false)
  else if bad && bit 4 && !bit 5 then (!bit 6, true)
  else
    let seq (x : Option Image) : Nat := match x with | some x => x.seq | none => 0
    (b.isSome && (a.isNone || decide (seq a < seq b)), false)

/-- The ROM sends "SPVR" (R498). -/
def Dev.sendSpvr (d : Dev) : Dev := [0x53#8, 0x50#8, 0x56#8, 0x52#8].foldl (fun d b => d.send (.uart b)) d

/-- The read that the ROM sets up for the flash window (R494, R509): 0x03 in 1-1-1 mode at 25 MHz without a valid header; else what the
flash's own parameter table gives, 1-1-4 or 1-4-4 at 100 MHz or lower: free values (notes/assumptions/108). -/
def Dev.flashMode (sfdp : Bool) (d : Dev) : Dev :=
  if !sfdp then (d.wr Reg.QSPI_CTL 11).wr Reg.QSPI_RDCFG 3
  else
    let m := 1 + Config.freeNat d.freeCtr % 2
    let r := putField (Config.freeWord (d.freeCtr + 1) &&& 0xFFFFFF#32) 8 2 m
    ((d.wr Reg.QSPI_CTL (BitVec.ofNat 32 (2 + Config.freeNat (d.freeCtr + 2) % 14))).wr Reg.QSPI_RDCFG r).putFreeCtr (d.freeCtr + 3)

/-- BOOT_IMAGE_START (R493 to R499): the ROM's steps from the watchdog to the image, or to recovery; but after a supervisor restart, they
wait for the synthesisers. A slot is none where nothing can be read; slot B exists only when the density is known. -/
def bootImageStart (sfdp : Bool) (slotA slotB : Option Image) (tImg : Word) (d : Dev) : Dev :=
  if !d.domainOn 2 || d.boot.runs || d.boot.serving || d.boot.halted || (d.fld Reg.SYS_SUPV_CAUSE 0 3 == 0 && d.fld Reg.SYS_READY 5 3 != 7) then d else
  let slotB := if sfdp then slotB else none
  let d := (((d.setSysr 0x311 2000).setSysr 0x312 0).setSysr 0x310 1).wdKicked
  let d := (d.setB Reg.BOOT_STAT 2 (!sfdp)).flashMode sfdp
  let (first, back) := d.firstSlot slotA slotB
  let d := d.setB Reg.SYS_BOOT 0 false
  let d := if back then (d.setB Reg.BOOT_STAT 1 true).setB Reg.SYS_BOOT 7 true else d
  let order := if first then [(true, slotB), (false, slotA)] else [(false, slotA), (true, slotB)]
  let r := order.foldl (fun (acc : Option (Bool × Image) × Dev) e =>
    match acc.1, e.2 with
    | none, some x =>
      let d := acc.2.loadImage x
      if d.imageOk x true then (some (e.1, x), d) else (none, d)
    | _, _ => acc) (none, d)
  match r with
  | (some (s, x), d) =>
    let d := (d.setB Reg.BOOT_STAT 0 s).wr Reg.BOOT_TIMG tImg
    (d.setB Reg.SYS_BOOT 6 s).runImage x
  | (none, d) =>
    (d.putBoot { d.boot with serving := true, recMs := 0 }).sendSpvr

/-- One millisecond of recovery: "SPVR" once per second, with which the ROM kicks the watchdog (R493, R498; DEDUCED,
notes/assumptions/73). -/
def Dev.recoveryMs (d : Dev) : Dev :=
  if !(d.domainOn 2 && d.boot.serving) then d
  else if d.boot.recMs < 999 then d.putBoot { d.boot with recMs := d.boot.recMs + 1 }
  else (d.putBoot { d.boot with recMs := 0 }).sendSpvr.wdKicked

/-- RECOVERY_IMAGE_RECEIVED (R498). -/
def recoveryImageReceived (x : Image) (d : Dev) : Dev :=
  if !(d.domainOn 2 && d.boot.serving) then d else
  let d := d.loadImage x
  if d.imageOk x true then (d.setB Reg.BOOT_STAT 3 true).runImage x else d

/-- A write of SYS_BOOT: PIN_EN, PIN_SLOT; CONFIRMED by a 1 (R497, R510). -/
def sysBootWrite (v : Word) (d : Dev) : Dev := d.genWrite Reg.SYS_BOOT v

/-! ### Fuses and debug -/

/-- A write of BOOT_FUSE_CMD (R500). `soft`: it comes from the supervisor at system level. -/
def fuseCmd (soft : Bool) (v : Word) (d : Dev) : Dev :=
  let op := fieldOf v 0 2; let x := fieldOf v 8 8
  if fieldOf v 16 16 != 0xF05E || op == 0 || op == 3 then d
  else
    let unrev := (List.range 4).filter fun k => !d.boot.revoked.getLsbD k
    let bad := !soft || d.boot.fuseOp.isSome ||
      (op == 1 && (decide (d.boot.svn < x) || decide (64 < x))) ||
      (op == 2 && (decide (3 < x) || x == d.boot.keyIdx || unrev == [x]))
    if bad then d.setB Reg.BOOT_STAT 7 true
    else (d.setB Reg.BOOT_STAT 6 true).putBoot { d.boot with fuseOp := some (op, x) }

/-- FUSE_PROGRAM_DONE (R500): fuse bits only go from 0 to 1. -/
def fuseProgramDone (d : Dev) : Dev :=
  match d.boot.fuseOp with
  | none => d
  | some (op, x) =>
    let b := if op == 1 then { d.boot with svnMin := max d.boot.svnMin x } else { d.boot with revoked := d.boot.revoked ||| (1#4 <<< x) }
    (d.setB Reg.BOOT_STAT 6 false).putBoot { b with fuseOp := none }

/-- A write of SCB_DBG (R501): REVOKE stands over GRANT, and under GRANTED it ends the halt with the access; WD_FREEZE is kept. -/
def scbDbgWrite (v : Word) (d : Dev) : Dev :=
  let d := if v.getLsbD 16 then d.putBoot { d.boot with granted := false, halted := d.boot.halted && d.boot.policy != 1 }
    else if fieldOf v 0 16 == 0xDB6A && d.boot.policy == 1 then d.putBoot { d.boot with granted := true }
    else d
  d.genWrite Reg.SCB_DBG v

/-- SCB_STAT: DBG_ATTACHED while the TAP selects DEBUG, HALTED, GRANTED. -/
def Dev.scbStat (d : Dev) : Word := BitVec.ofNat 32 (b2n (d.boot.tapIr == 8) + 2 * b2n d.boot.halted + 4 * b2n d.boot.granted)

/-- CORE_HALT (R501). -/
def coreHalt (d : Dev) : Dev := if d.domainOn 2 && d.debugOk then (d.putBoot { d.boot with halted := true }) else d

/-- What the data register captures under a TAP instruction (R503): IDCODE its number; the boundary register and the debug register are
left open; the bypass register captures 0 (IEEE 1149.1; notes/assumptions/114). -/
def Dev.tapCapture (d : Dev) (ir : Nat) : Word :=
  if ir == 1 then 0x19144C5B else if ir == 0 || ir == 2 || ir == 8 then Config.freeWord (d.freeCtr + 1) else 0

/-- TAP_INSTRUCTION_LOAD (R503, R504): EXTEST, CLAMP and HIGHZ hold the debug reset. -/
def tapInstructionLoad (ir : Nat) (d : Dev) : Dev :=
  let holds := ir == 0 || ir == 4 || ir == 5
  let d := (d.putBoot { d.boot with tapIr := ir, tapDr := d.tapCapture ir, scan := d.freeCtr }).putFreeCtr (d.freeCtr + 2)
  if holds then
    let d := d.putPwr { d.pwr with dbgHeld := true }
    if d.pwr.safeOn then
      let t := d.boot.scan
      let d := d.bigReset 3 false true
      d.putBoot { d.boot with scan := t }
    else d
  else (d.putPwr { d.pwr with dbgHeld := false }).topNote

/-- DEBUG_RESET (R80): a system reset through the debug port. -/
def debugReset (d : Dev) : Dev := if d.pwr.safeOn then (d.bigReset 3 false true).topNote else d

/-! ### UART and GPIO -/

def Dev.uartStat (d : Dev) : Dev :=
  d.wr Reg.UART_STAT (BitVec.ofNat 32 (min 16 d.per.rxq.length + 256 * min 16 d.per.txq.length + 65536 * b2n d.per.txq.isEmpty))

/-- UART_BYTE_RECEIVED (R505): a byte with a framing error sets FRAME; whether it is kept is left open
(DESIGN CHOICE, safe, notes/assumptions/77). -/
def uartByteReceived (b : Byte) (frameErr : Bool) (d : Dev) : Dev :=
  if !(d.domainOn 2 && d.bit Reg.UART_CTL 0 && d.bit Reg.UART_CTL 1) then d else
  let keep := !frameErr || Config.freeNat d.freeCtr % 2 == 0
  let d := if frameErr then (d.setB Reg.UART_EVT 3 true).nextFree else d
  if !keep then d
  else if 16 ≤ d.per.rxq.length then d.setB Reg.UART_EVT 2 true
  else ((d.putPer { d.per with rxq := d.per.rxq ++ [b] }).setB Reg.UART_EVT 0 true).uartStat

/-- A write of UART_DATA (R505): past 16 bytes the write stalls its master; its byte enters when there is room. -/
def uartDataWrite (v : Word) (d : Dev) : Dev :=
  (d.putPer { d.per with txq := d.per.txq ++ [v.setWidth 8] }).uartStat

/-- UART_BYTE_SENT (R505). -/
def uartByteSent (d : Dev) : Dev :=
  if !(d.domainOn 2 && d.bit Reg.UART_CTL 0 && d.bit Reg.UART_CTL 2) then d else
  match d.per.txq with
  | [] => d
  | b :: rest =>
    let d := (d.putPer { d.per with txq := rest }).send (.uart b)
    (if rest.isEmpty then d.setB Reg.UART_EVT 1 true else d).uartStat

/-- A read of UART_DATA: the oldest byte, or EMPTY. -/
def Dev.uartPop (d : Dev) : Word × Dev :=
  match d.per.rxq with
  | [] => (0x100, d)
  | b :: rest => (b.setWidth 32, (d.putPer { d.per with rxq := rest }).uartStat)

/-- A write of UART_DIV: below 16 refused. -/
def uartDivWrite (v : Word) (d : Dev) : Dev :=
  if fieldOf v 0 16 < 16 then d.setB Reg.UART_EVT 4 true else d.genWrite Reg.UART_DIV v

/-- The pins that the device drives read as driven. -/
def Dev.gpioFollow (d : Dev) : Dev :=
  forN 16 (fun n d => if d.gpioDrives n then d.setB Reg.GPIO_IN n (d.bit Reg.GPIO_OUT n) else d) d

/-- GPIO_EDGE (R506). -/
def gpioEdge (n : Nat) (rising : Bool) (d : Dev) : Dev :=
  if !d.domainOn 2 || d.gpioDrives n || d.bit Reg.GPIO_IN n == rising then d
  else (d.setB Reg.GPIO_IN n rising).setB Reg.GPIO_EVT (if rising then n else 16 + n) true

/-- Writes of GPIO_SET and GPIO_CLR change only the bits written as 1. -/
def gpioSet (v : Word) (d : Dev) : Dev := (d.orW Reg.GPIO_OUT (v &&& 0xFFFF#32)).gpioFollow
def gpioClr (v : Word) (d : Dev) : Dev := (d.andNot Reg.GPIO_OUT (v &&& 0xFFFF#32)).gpioFollow

/-- Writes of GPIO_DIR, OD and OUT. -/
def gpioWrite (a : Nat) (v : Word) (d : Dev) : Dev := (d.genWrite a v).gpioFollow

/-! ### Rails -/

/-- The supply of a rail in SYS_SUPMON, 6 where it is the board's own (R67). -/
def railSupply (i : Nat) : Nat := if i == 0 then 1 else if i == 1 then 3 else 6

/-- The condition of R69 begins: FLT_SUPPLY. -/
def Dev.pgFault (i : Nat) (d : Dev) : Dev := (d.putPwr { d.pwr with pgErr := d.pwr.pgErr ||| (1#6 <<< i) }).raise 87

/-- A domain that depends on the rail is on (R64, R69). -/
def Dev.railNeeded (d : Dev) (i : Nat) : Bool := (i == 0 && (d.domainOn 4 || d.domainOn 5)) || (i == 1 && d.domainOn 6)

/-- PMIC_EN of a rail. An enable takes its PMIC_PG good with it, unless PG_TIMEOUT says otherwise; a disable takes it away, which is a fault
while a domain that depends on it is on (R69; DEDUCED, notes/assumptions/78). -/
def Dev.railSet (i : Nat) (on : Bool) (d : Dev) : Dev :=
  let m : BitVec 6 := 1#6 <<< i
  let fell := !on && d.pwr.pg.getLsbD i && d.railNeeded i
  let d := (d.setB Reg.PMIC_STAT i on).setB Reg.PMIC_STAT (8 + i) on
  let d := d.putPwr { d.pwr with pg := if on then d.pwr.pg ||| m else d.pwr.pg &&& ~~~m, pgErr := d.pwr.pgErr &&& ~~~m }
  let d := if i < 2 then d.setB Reg.SYS_SUPMON (railSupply i) (on && !d.pwr.winOut.getLsbD (railSupply i)) else d
  if fell then d.pgFault i else d

/-- Rail steps without a delay are made at once. -/
def Dev.railPump : Nat → Dev → Dev
  | 0, d => d
  | n + 1, d =>
    match d.per.rails with
    | (i, on, 0) :: rest => Dev.railPump n ((d.putPer { d.per with rails := rest }).railSet i on)
    | _ => d

def Dev.railBusy (d : Dev) : Dev := d.setB Reg.PMIC_STAT 16 (!d.per.rails.isEmpty)

/-- PMIC_CTL_WRITE (R507): disables in descending, then enables in ascending index, each after its delay. -/
def pmicCtlWrite (v : Word) (d : Dev) : Dev :=
  if !d.per.rails.isEmpty then d.setB Reg.PMIC_EVT 18 true
  else
    let o := d.rd Reg.PMIC_CTL
    let offs := [5, 4, 3, 2, 1, 0].filter fun i => o.getLsbD i && !v.getLsbD i
    let ons := (List.range 6).filter fun i => !o.getLsbD i && v.getLsbD i
    let dly (i : Nat) : Nat := d.fld (Reg.PMIC_RAIL i) 0 10
    let offSteps := offs.zip (0 :: offs.map dly) |>.map fun e => (e.1, false, e.2)
    let d := d.wr Reg.PMIC_CTL (v &&& 0x3F#32)
    let d := d.putPer { d.per with rails := offSteps ++ ons.map fun i => (i, true, dly i) }
    (d.railPump 12).railBusy

/-- PMIC_RAIL_STEP (R507): the delay of the next rail expires. -/
def pmicRailStep (d : Dev) : Dev :=
  match d.per.rails with
  | [] => d
  | (i, on, _) :: rest => (((d.putPer { d.per with rails := rest }).railSet i on).railPump 12).railBusy

/-- A write of PMIC_RAIL: TO 0 stores 1. -/
def pmicRailWrite (i : Nat) (v : Word) (d : Dev) : Dev := d.genWrite (Reg.PMIC_RAIL i) (putField v 16 8 (max 1 (fieldOf v 16 8)))

/-- PMIC_PG of a rail is not good. -/
def Dev.pgLow (i : Nat) (d : Dev) : Dev :=
  (d.setB Reg.PMIC_STAT (8 + i) false).putPwr { d.pwr with pg := d.pwr.pg &&& ~~~(1#6 <<< i) }

/-- PG_TIMEOUT (R69): the rail's PMIC_PG has not become good within its time-out. -/
def pgTimeout (i : Nat) (d : Dev) : Dev :=
  if !(d.pwr.safeOn && d.bit Reg.PMIC_STAT i) then d
  else (((d.pgLow i).setB Reg.PMIC_EVT i true)).pgFault i

/-- PG_FALL (R69): a good PMIC_PG becomes not good; a fault where its enable is asserted or a domain that depends on it is on. -/
def pgFall (i : Nat) (d : Dev) : Dev :=
  if !d.pwr.pg.getLsbD i then d
  else if !d.pwr.safeOn then d.putPwr { d.pwr with pg := d.pwr.pg &&& ~~~(1#6 <<< i) }
  else
    let bad := d.bit Reg.PMIC_STAT i || d.railNeeded i
    let d := (d.pgLow i).setB Reg.PMIC_EVT (8 + i) true
    if bad then d.pgFault i else d

/-! ### PMBus and flash -/

/-- Bytes of a register window of words, byte 0 at the lowest address. -/
def Dev.winBytes (d : Dev) (a n : Nat) : List Byte := (List.range n).map fun i => ((d.rd (a + i / 4 * 4)) >>> (8 * (i % 4))).setWidth 8
def Dev.winPut (a : Nat) (bs : List Byte) (d : Dev) : Dev :=
  (bs.zipIdx).foldl (fun d e => d.setF (a + e.2 / 4 * 4) (8 * (e.2 % 4)) 8 e.1.toNat) d

/-- The bytes of a transaction that the master sends: address and direction, the code, the count of a block, the data, the address again
for a read; behind a write its packet error code where PEC is set (R508). -/
def pmbBytes (v : Word) (pec : Bool) (data : List Byte) : List Byte :=
  let op := fieldOf v 16 3
  let a := 2 * fieldOf v 0 7
  let head := [BitVec.ofNat 8 a, BitVec.ofNat 8 (fieldOf v 8 8)]
  if op == 3 || op == 4 || op == 6 then head ++ [BitVec.ofNat 8 (a + 1)]
  else
    let bs := head ++ (if op == 5 then [BitVec.ofNat 8 data.length] else []) ++ data
    if pec then bs ++ [crc8 bs] else bs

/-- A write of PMB_CMD (R508): the seven transactions by OP. -/
def pmbCmdWrite (v : Word) (d : Dev) : Dev :=
  let op := fieldOf v 16 3; let len := fieldOf v 24 6
  if d.per.pmbOp.isSome || op == 7 || (5 ≤ op && 32 < len) then d.setB Reg.PMIC_EVT 18 true
  else if !d.bit Reg.PMB_CTL 0 then d
  else
    let n := if op == 1 then 1 else if op == 2 then 2 else if op == 5 then len else 0
    let d := (d.wr Reg.PMB_STAT 1).send (.pmb v (pmbBytes v (d.bit Reg.PMB_CTL 2) (d.winBytes (Reg.PMB_DATA 0) n)))
    d.putPer { d.per with pmbOp := some v }

/-- PMB_DONE (R508): the transaction ends; a read fills PMB_DATA. -/
def pmbDone (e : PmbEnd) (d : Dev) : Dev :=
  match d.per.pmbOp with
  | none => d
  | some v =>
    let d := d.putPer { d.per with pmbOp := none }
    match e with
    | .ok bytes =>
      let op := fieldOf v 16 3
      let bs := bytes.take (if op == 3 then 1 else if op == 4 then 2 else if op == 6 then 32 else 0)
      ((d.winPut (Reg.PMB_DATA 0) bs).wr Reg.PMB_STAT (BitVec.ofNat 32 (256 * bs.length))).setB Reg.PMIC_EVT 16 true
    | .nack => (d.wr Reg.PMB_STAT 2).setB Reg.PMIC_EVT 17 true
    | .pecErr => (d.wr Reg.PMB_STAT 4).setB Reg.PMIC_EVT 17 true
    | .timeout => (d.wr Reg.PMB_STAT 8).setB Reg.PMIC_EVT 17 true

/-- A write of QSPI_CMD (R509). -/
def qspiCmd (v : Word) (d : Dev) : Dev :=
  if d.per.qspi.isSome || 256 < fieldOf v 10 9 then d.setB Reg.QSPI_EVT 1 true
  else
    let d := (d.wr Reg.QSPI_STAT 1).send (.qspi v (if v.getLsbD 8 then d.rd Reg.QSPI_ADDR else 0)
      (if v.getLsbD 9 then d.winBytes (Reg.QSPI_BUF 0) (fieldOf v 10 9) else []))
    d.putPer { d.per with qspi := some v, flash := d.per.flash + b2n (v.getLsbD 9) }

/-- QSPI_DONE (R509). -/
def qspiDone (data : List Byte) (d : Dev) : Dev :=
  match d.per.qspi with
  | none => d
  | some v =>
    let d := d.putPer { d.per with qspi := none }
    let d := if v.getLsbD 9 then d else d.winPut (Reg.QSPI_BUF 0) (data.take (fieldOf v 10 9))
    (d.wr Reg.QSPI_STAT 0).setB Reg.QSPI_EVT 0 true

/-- Writes of QSPI_CTL and QSPI_RDCFG: DIV 0 and 1, MODE 3 refused. -/
def qspiCtlWrite (v : Word) (d : Dev) : Dev := if fieldOf v 0 4 < 2 then d.setB Reg.QSPI_EVT 1 true else d.genWrite Reg.QSPI_CTL v
def qspiRdcfgWrite (v : Word) (d : Dev) : Dev := if fieldOf v 8 2 == 3 then d.setB Reg.QSPI_EVT 1 true else d.genWrite Reg.QSPI_RDCFG v

/-- A byte of the flash window. -/
def Dev.flashByte (d : Dev) (a : Nat) : Byte := Config.flashByte d.per.flash a

/-- What a BOOT register reads that the fuses give (R500, R511). -/
def Dev.fuseRead (d : Dev) (a : Nat) : Option Word :=
  if a == Reg.BOOT_SVN_MIN then some (BitVec.ofNat 32 d.boot.svnMin)
  else if a == Reg.BOOT_KEYS then some (BitVec.ofNat 32 (d.boot.prog.toNat + 16 * d.boot.revoked.toNat))
  else if a == Reg.BOOT_DBG then some (BitVec.ofNat 32 d.boot.policy)
  else if a == Reg.BOOT_SERIAL_LO then some (BitVec.ofNat 32 d.boot.serial)
  else if a == Reg.BOOT_SERIAL_HI then some (BitVec.ofNat 32 (d.boot.serial / 2 ^ 32))
  else if Reg.BOOT_KHASH 0 0 ≤ a && a < Reg.BOOT_KHASH 4 0 then some (SMap.getD d.boot.hashes 0 ((a - Reg.BOOT_KHASH 0 0) / 4))
  else none


/-! ### Meanings -/

def execPgTimeout (i : Fin 6) (s : State) : Host.Outcome State Fault Refusal := run (pgTimeout i) s
def execPgFall (i : Fin 6) (s : State) : Host.Outcome State Fault Refusal := run (pgFall i) s
def execLockstepMismatch (s : State) : Host.Outcome State Fault Refusal := run lockstepMismatch s
def execInterruptTaken (s : State) : Host.Outcome State Fault Refusal := run interruptTaken s
def execTimerExpiry (t : Fin 2) (s : State) : Host.Outcome State Fault Refusal := run (timerExpiry t) s
def execWdKick (v : Word) (s : State) : Host.Outcome State Fault Refusal := run (wdKick v) s
def execWdExpiry (s : State) : Host.Outcome State Fault Refusal := run wdExpiry s
def execWdWarn (s : State) : Host.Outcome State Fault Refusal := run wdWarn s
def execBootImageStart (sfdp : Bool) (slotA slotB : Option Image) (tImgUs : Word) (s : State) : Host.Outcome State Fault Refusal := run (bootImageStart sfdp slotA slotB tImgUs) s
def execRecoveryImageReceived (img : Image) (s : State) : Host.Outcome State Fault Refusal := run (recoveryImageReceived img) s
def execConfirmed (m : Master) (v : Word) (s : State) : Host.Outcome State Fault Refusal := run (Dev.viaBus m Reg.SYS_BOOT (sysBootWrite v)) s
def execRaiseSvnMin (m : Master) (v : Word) (s : State) : Host.Outcome State Fault Refusal := run (Dev.viaBus m Reg.BOOT_FUSE_CMD (fun d => fuseCmd (m == .supv && d.sup.sys) v d)) s
def execRevokeKey (m : Master) (v : Word) (s : State) : Host.Outcome State Fault Refusal := run (Dev.viaBus m Reg.BOOT_FUSE_CMD (fun d => fuseCmd (m == .supv && d.sup.sys) v d)) s
def execFuseProgramDone (s : State) : Host.Outcome State Fault Refusal := run fuseProgramDone s
def execGrant (m : Master) (v : Word) (s : State) : Host.Outcome State Fault Refusal := run (Dev.viaBus m Reg.SCB_DBG (scbDbgWrite v)) s
def execRevoke (m : Master) (v : Word) (s : State) : Host.Outcome State Fault Refusal := run (Dev.viaBus m Reg.SCB_DBG (scbDbgWrite v)) s
def execTapInstructionLoad (ir : BitVec 5) (s : State) : Host.Outcome State Fault Refusal := run (tapInstructionLoad ir.toNat) s
def execDebugReset (s : State) : Host.Outcome State Fault Refusal := run debugReset s
def execCoreHalt (s : State) : Host.Outcome State Fault Refusal := run coreHalt s
def execUartByteReceived (byte : Byte) (frameErr : Bool) (s : State) : Host.Outcome State Fault Refusal := run (uartByteReceived byte frameErr) s
def execUartDataWrite (m : Master) (v : Word) (s : State) : Host.Outcome State Fault Refusal := run (Dev.viaBus m Reg.UART_DATA (uartDataWrite v)) s
def execUartByteSent (s : State) : Host.Outcome State Fault Refusal := run uartByteSent s
def execGpioEdge (n : Fin 16) (rising : Bool) (s : State) : Host.Outcome State Fault Refusal := run (gpioEdge n rising) s
def execGpioSet (m : Master) (v : Word) (s : State) : Host.Outcome State Fault Refusal := run (Dev.viaBus m Reg.GPIO_SET (gpioSet v)) s
def execGpioClr (m : Master) (v : Word) (s : State) : Host.Outcome State Fault Refusal := run (Dev.viaBus m Reg.GPIO_CLR (gpioClr v)) s
def execPmicCtlWrite (m : Master) (v : Word) (s : State) : Host.Outcome State Fault Refusal := run (Dev.viaBus m Reg.PMIC_CTL (pmicCtlWrite v)) s
def execPmicRailStep (s : State) : Host.Outcome State Fault Refusal := run pmicRailStep s
def execSendByte (m : Master) (v : Word) (s : State) : Host.Outcome State Fault Refusal := run (Dev.viaBus m Reg.PMB_CMD (pmbCmdWrite v)) s
def execWriteByte (m : Master) (v : Word) (s : State) : Host.Outcome State Fault Refusal := run (Dev.viaBus m Reg.PMB_CMD (pmbCmdWrite v)) s
def execWriteWord (m : Master) (v : Word) (s : State) : Host.Outcome State Fault Refusal := run (Dev.viaBus m Reg.PMB_CMD (pmbCmdWrite v)) s
def execReadByte (m : Master) (v : Word) (s : State) : Host.Outcome State Fault Refusal := run (Dev.viaBus m Reg.PMB_CMD (pmbCmdWrite v)) s
def execReadWord (m : Master) (v : Word) (s : State) : Host.Outcome State Fault Refusal := run (Dev.viaBus m Reg.PMB_CMD (pmbCmdWrite v)) s
def execBlockWrite (m : Master) (v : Word) (s : State) : Host.Outcome State Fault Refusal := run (Dev.viaBus m Reg.PMB_CMD (pmbCmdWrite v)) s
def execBlockRead (m : Master) (v : Word) (s : State) : Host.Outcome State Fault Refusal := run (Dev.viaBus m Reg.PMB_CMD (pmbCmdWrite v)) s
def execPmbDone (e : PmbEnd) (s : State) : Host.Outcome State Fault Refusal := run (pmbDone e) s
def execQspiCmd (m : Master) (v : Word) (s : State) : Host.Outcome State Fault Refusal := run (Dev.viaBus m Reg.QSPI_CMD (qspiCmd v)) s
def execQspiDone (data : List Byte) (s : State) : Host.Outcome State Fault Refusal := run (qspiDone data) s

end Sys2Proof.Machine
end

