-- ==== Sys2Proof/Machine/Bus.lean ====
section
/-! DEFINITION. The address space and its accesses: regions, access rules, bus errors, the descriptor table, and which write acts on
which register (spec/02_address_space.md, R39 to R51). -/

namespace Sys2Proof.Machine

/-! ### Regions (R39, R40) -/

/-- What an address holds. -/
inductive Region where
  | sram | bank (n b : Nat) | edata | lut (n o : Nat) | coef (n o : Nat) | exchange | sillage | packet | flacon | register | flash
  | rom | descriptor
  deriving DecidableEq, Repr

/-- A region within an engine's span, by its offset (R40). -/
def engRegion (n o : Nat) : Option Region :=
  if o < 0x8000 then some (.bank n 0) else if o < 0x10000 then some (.bank n 1) else if o < 0x18000 then some .edata
  else if 0x20000 ≤ o && o < 0x22000 then some (.lut n (o - 0x20000))
  else if 0x30000 ≤ o && o < 0x31000 then some (.coef n (o - 0x30000)) else none

/-- The region of an address; none is unmapped. -/
def regionOf (a : Nat) : Option Region :=
  if a < 0x200000 then some .sram
  else if 0x10000000 ≤ a && a < 0x10800000 then engRegion ((a - 0x10000000) / 0x100000) (a % 0x100000)
  else if 0x18000000 ≤ a && a < 0x18010000 then some .exchange
  else if 0x19000000 ≤ a && a < 0x19080000 then some .sillage
  else if 0x20000000 ≤ a && a < 0x20100000 then some .packet
  else if 0x30000000 ≤ a && a < 0x30080000 then some .flacon
  else if (findBlock a).isSome then some .register
  else if 0x60000000 ≤ a && a < 0x70000000 then some .flash
  else if 0xFFFF0000 ≤ a && a < 0xFFFFF000 then some .rom
  else if 0xFFFFF000 ≤ a && a < 0x100000000 then some .descriptor
  else none

/-- The power domain of a region (R39). -/
def regionDomain (a : Nat) : Region → Nat
  | .sram | .flash | .rom | .descriptor => 2
  | .bank _ _ | .edata | .lut _ _ | .coef _ _ | .exchange | .sillage => 3
  | .packet => 5
  | .flacon => 7
  | .register => regDomain a

/-- A region that takes bytes and half-words (R41). -/
def regionNarrow : Region → Bool
  | .sram | .edata | .exchange | .flacon | .flash | .rom | .descriptor => true
  | _ => false

/-- A region without write sizes (R41). -/
def regionReadOnly : Region → Bool
  | .flacon | .flash | .rom | .descriptor => true
  | _ => false

/-- A memory with ECC and a scrub class (R54). -/
def regionEcc : Region → Bool
  | .register | .flacon | .flash | .rom | .descriptor => false
  | _ => true

/-- Bytes of an access. -/
def sizeBytes : AccSize → Nat
  | .b8 => 1 | .b16 => 2 | .b32 => 4

/-- EN in force (R265). -/
def Dev.enAct (d : Dev) (n : Nat) : Bool := d.bit (Reg.AECTL_STAT n) 4

/-- A write that a lock refuses (R43, R270, R276, R277, R418). -/
def Dev.busLocked (d : Dev) : Region → Bool
  | .bank n b =>
    let active := d.fld (Reg.AECTL_STAT n) 1 1
    (d.enAct n && b == active) || d.bit (Reg.AECTL_STAT n) 2 || ((d.eng n).bankHold && b != active)
  | .lut n o => d.enAct n && (List.range 8).any fun i => d.fld (Reg.AECTL_LUT_MAP n) (2 * i) 2 == o / 2048
  | .coef n o => d.enAct n && decide (o < 0x400) && decide (o % 64 < 0x14)
  | _ => false

/-- A reserved word of the coefficient memory (R277). -/
def coefReserved (o : Nat) : Bool :=
  if o < 0x400 then o % 64 / 4 == 5 || decide (0x28 ≤ o % 64)
  else if o < 0x600 then decide (0x14 ≤ o % 32)
  else if o < 0x800 then o % 16 / 4 == 3
  else if o < 0x880 then decide (8 ≤ o % 16)
  else true

/-! ### The descriptor table (R49 to R51) -/

/-- One row of R39: type, count, domain, extension, base, stride, feature word. -/
structure DescRow where
  type    : Nat
  count   : Nat
  domain  : Nat
  ext     : Nat
  base    : Nat
  stride  : Nat
  feature : Nat
  deriving DecidableEq, Repr

/-- The memories and the first blocks. -/
def descRows0 : List DescRow := [
  ⟨0x01, 1, 2, 0, 0x00000000, 0, 0x200000⟩, ⟨0x02, 8, 3, 0, 0x10000000, 0x100000, 0x40000⟩, ⟨0x03, 1, 3, 0, 0x18000000, 0, 0x10000⟩,
  ⟨0x04, 8, 3, 0, 0x19000000, 0x10000, 0x10000⟩, ⟨0x05, 1, 5, 0, 0x20000000, 0, 0x100000⟩, ⟨0x06, 1, 7, 0, 0x30000000, 0, 0x80000⟩,
  ⟨0x20, 1, 1, 0, 0x40000000, 0, 0⟩, ⟨0x21, 1, 1, 0, 0x40010000, 0, 0⟩, ⟨0x22, 1, 1, 0, 0x40020000, 0, 0⟩,
  ⟨0x23, 1, 0, 0, 0x40030000, 0, 0⟩, ⟨0x24, 1, 1, 0, 0x40040000, 0, 0x80⟩, ⟨0x25, 1, 1, 0, 0x40050000, 0, 0⟩,
  ⟨0x26, 1, 1, 0, 0x40060000, 0, 0⟩, ⟨0x27, 1, 4, 0, 0x40070000, 0, 0⟩, ⟨0x28, 1, 3, 0, 0x40080000, 0, 0⟩,
  ⟨0x29, 1, 3, 0, 0x40090000, 0, 0⟩, ⟨0x2A, 8, 3, 0, 0x400A0000, 0x1000, 0⟩, ⟨0x2B, 1, 4, 0, 0x400B0000, 0, 0x63090⟩,
  ⟨0x2C, 24, 4, 0, 0x40100000, 0x10000, 7⟩, ⟨0x2D, 1, 4, 0, 0x40280000, 0, 1⟩, ⟨0x2E, 2, 6, 0, 0x40300000, 0x10000, 0⟩]

/-- The other blocks and the last memories; the feature word of MET tells the variant. -/
def descRows1 (fm : Bool) : List DescRow := [
  ⟨0x2F, 1, 1, 0, 0x40320000, 0, 0⟩, ⟨0x30, 1, 1, 0, 0x40330000, 0, 0⟩, ⟨0x31, 1, 7, 0, 0x40380000, 0, 0x30 + b2n fm⟩,
  ⟨0x32, 1, 7, 0, 0x40390000, 0, 0⟩, ⟨0x33, 1, 7, 0, 0x403A0000, 0, 0⟩, ⟨0x34, 1, 7, 0, 0x403B0000, 0, 0⟩,
  ⟨0x35, 4, 5, 0x2A0, 0x40400000, 0x10000, 7⟩, ⟨0x36, 1, 5, 0, 0x40440000, 0, 0⟩, ⟨0x37, 1, 5, 0, 0x40450000, 0, 0⟩,
  ⟨0x38, 4, 2, 0, 0x40480000, 0x10000, 0⟩, ⟨0x39, 1, 2, 0, 0x40500000, 0, 0⟩, ⟨0x3A, 1, 2, 0, 0x40510000, 0, 0⟩,
  ⟨0x3B, 1, 2, 0, 0x40520000, 0, 0⟩, ⟨0x3C, 1, 2, 0, 0x40530000, 0, 0⟩, ⟨0x3D, 1, 2, 0, 0x40540000, 0, 0⟩,
  ⟨0x3E, 1, 1, 0, 0x40550000, 0, 0⟩, ⟨0x3F, 1, 1, 0, 0x40560000, 0, 0⟩, ⟨0x07, 1, 2, 0, 0x60000000, 0, 0x10000000⟩,
  ⟨0x08, 1, 2, 0, 0xFFFF0000, 0, 0xF000⟩, ⟨0x09, 1, 2, 0, 0xFFFFF000, 0, 0x1000⟩]

/-- The four words of an entry, all of version 1.0. -/
def DescRow.words (r : DescRow) : List Nat :=
  [r.type + 0x100 * r.count + 0x10000 * r.domain + 0x100000 * r.ext, r.base, r.stride + 0x10000000, r.feature]

/-- The words of header, entries and extension. -/
def descTable (fm : Bool) : List Nat :=
  [0x44565053, 0x290100, 0x9144 + 0x10000 * (16 + Config.siMinor.toNat), 0x2B4] ++ ((descRows0 ++ descRows1 fm).map DescRow.words).flatten ++
    [0x00010005, 0xF, 0xF, 7, 7]

/-- A byte of the descriptor table's 4 KiB; the spec gives none past its LENGTH, and there the byte is a free value. -/
def Dev.descByte (d : Dev) (o : Nat) : Nat :=
  match ((descTable d.fm).drop (o / 4)).head? with
  | some w => w / 256 ^ (o % 4) % 256
  | none => (Config.romByte (0xFFFFF000 + o)).toNat

/-! ### Register writes -/

/-- A run of registers of a block, `n` from the offset `off`, `st` bytes apart, and what a write of register `i` does. -/
structure WriteHook where
  off : Nat
  n   : Nat
  st  : Nat
  act : Nat → Word → Dev → Dev

/-- The register of a run at an offset. -/
def hookIdx (off n st o : Nat) : Option Nat := if off ≤ o && (o - off) % st == 0 && (o - off) / st < n then some ((o - off) / st) else none

/-- The first run that holds an offset acts; `none` where no run does. -/
def runHook : List WriteHook → Nat → Word → Dev → Option Dev
  | [], _, _, _ => none
  | h :: hs, o, v, d =>
    match hookIdx h.off h.n h.st o with
    | some i => some (h.act i v d)
    | none => runHook hs o v d

/-- A single register. -/
def one (off : Nat) (f : Word → Dev → Dev) : WriteHook := ⟨off, 1, 4, fun _ v d => f v d⟩

/-- The writes of the SAFE-domain blocks that do more than their access code gives. -/
def safeHooks (b : Nat) : List WriteHook :=
  if b == 0x40000000 then [one 0x10 sysCtlWrite, one 0x20 sysPwrCtlWrite, one 0x30 softwareReset, one 0x50 sysBootWrite]
  else if b == 0x40010000 then [one 0x0 clkCtlWrite, one 0x10 clkSyn0Write, one 0x14 clkTrimWrite, one 0x18 clkRelockGo]
  else if b == 0x40020000 then [one 0x0 timeSelWrite, one 0x20 (timePeriodWrite false), one 0x24 (timePeriodWrite true), one 0x28 timePhasesWrite,
    one 0x34 timeSlewWrite, one 0x48 timeCmd, one 0x50 timePpsCtlWrite, one 0x54 timePpsOfsWrite, ⟨0x100, 2, 64, srvCtlWrite⟩,
    ⟨0x108, 2, 64, srvOutlWrite⟩, ⟨0x110, 2, 64, srvSmpLoWrite⟩, ⟨0x114, 2, 64, servoSample⟩]
  else if b == 0x40040000 then [one 0x0 fcCtlWrite, one 0x10 errnRelease, one 0x14 fcRelease, one 0x18 fcSoftWrite, ⟨0x50, 4, 4, fcPendAck⟩,
    ⟨0x60, 4, 4, fcEnWrite⟩, ⟨0x100, 8, 4, fcClassWrite⟩]
  else if b == 0x40050000 then [one 0x0 gateCtlWrite, ⟨0x40, 8, 4, gateModeWrite⟩, ⟨Reg.GATE_CUT_0 - 0x40050000, 8, 4, gateCutWrite⟩, one 0x400 gateSupCtlWrite, one 0x410 gateSupCellWrite, ⟨0x440, 16, 4, gateSupChWrite⟩]
  else if b == 0x40060000 then [one 0x10 safeOutReqWrite, one 0x14 safeKeyWrite, one 0x18 safeTpWrite, ⟨0x20, 4, 4, safeOutWrite⟩,
    ⟨0x40, 4, 4, safePairWrite⟩, ⟨0x0, 4, 4, fun i => safeOtherWrite (Reg.SAFE_STAT + 4 * i)⟩, ⟨0x50, 2, 4, fun i => safeOtherWrite (Reg.SAFE_CNT_RST + 4 * i)⟩]
  else if b == 0x40320000 then [one 0x0 cmpCtlWrite, one 0x14 cmpTest, ⟨0x20, 8, 4, cmpThWrite⟩]
  else if b == 0x40330000 then [one 0x14 tmonLimWrite, one 0x18 tmonRiseWrite]
  else if b == 0x40550000 then [one 0x0 pmicCtlWrite, ⟨0x20, 6, 4, pmicRailWrite⟩, one 0x44 pmbCmdWrite]
  else if b == 0x40560000 then [⟨0x10, 7, 4, fun i v d => d.genWrite (Reg.SCRUB_INTV i) (if fieldOf v 0 16 < 16 then 16 else v)⟩]
  else []

/-- The registers of one lane, ring port or twin lane, by their offsets within it. -/
def laneHooks (l : Nat) : List WriteHook :=
  [one 0x0 (ringCtlWrite l), one 0xC (ringFltEnWrite l), one 0x10 (slipStep l), one 0x20 (ringTapsWrite l), one 0x24 (trainStart l)]

/-- The writes of the RING-domain blocks. -/
def ringHooks (b i : Nat) : List WriteHook :=
  if b == 0x40070000 then [one 0x0 atmCtlWrite, one 0x10 atmSyncOutWrite, one 0x14 atmSyncInWrite, ⟨0x100, 7, 32, fun n => atmClCtlWrite n .ctl⟩,
    ⟨0x104, 7, 32, fun n => atmClCtlWrite n .cper⟩, ⟨0x108, 7, 32, fun n => atmClCtlWrite n .anch⟩,
    ⟨0x110, 7, 32, fun n => atmClCtlWrite n .minp⟩, ⟨0x200, 144, 4, atmCellWrite⟩, ⟨0x480, 8, 4, atmLlWrite⟩]
  else if b == 0x400B0000 then [one 0x0 (fun v d => d.genWrite Reg.CELL_CTL (putField v 0 4 (max 1 (fieldOf v 0 4)))),
    ⟨0x1000, 144, 16, cellMapWrite⟩, ⟨0x1004, 144, 16, cellReq⟩]
  else if b == 0x40100000 then laneHooks i ++ [one 0x100 (ringLinkCtlWrite i), one 0x110 (calStart i), one 0x12C (ringTripWrite i)]
  else if b == 0x40280000 then [one 0x200 twinCtlWrite, one 0x210 twinCmdWrite, one 0x218 twinHoldWrite, one 0x21C twinLiveWrite,
    ⟨0x240, 8, 4, twinCtxWrite⟩] ++ laneHooks 24 ++ (laneHooks 25).map fun h => { h with off := 0x100 + h.off }
  else []

/-- The writes of the ACCORD, ANALOG and METER blocks. -/
def plantHooks (b i : Nat) : List WriteHook :=
  if b == 0x40080000 then [⟨0x100, 16, 8, fun k => sortWindowWrite (k / 8) (k % 8) false⟩, ⟨0x104, 16, 8, fun k => sortWindowWrite (k / 8) (k % 8) true⟩]
  else if b == 0x40090000 then [⟨0x100, 8, 64, silCtlWrite⟩, ⟨0x104, 8, 64, silTrigWrite⟩, ⟨0x110, 8, 64, silCmdWrite⟩, ⟨0x124, 8, 64, silStreamWrite⟩]
  else if b == 0x400A0000 then [one 0x0 (aectlEnWrite i), one 0x14 (swapWrite i), one 0x20 (tickWrite i), one 0x30 (lutMapWrite i),
    one 0x34 (biqLoad i), one 0x38 (biqZclr i), ⟨0x40, 8, 8, blendWrite i⟩]
  else if b == 0x40300000 then [one 0x0 (adcCtlWrite i), one 0x10 (adcSeqCtlWrite i), one 0x14 (adcMetMaskWrite i), one 0x18 (adcCalStart i),
    one 0x1C (adcInj i), one 0x20 (adcInjTrigWrite i), one 0x24 (adcAccLatch i), one 0x40 (adcPlausWrite i), one 0x44 (adcPlausWinWrite i),
    ⟨0x200, 32, 8, adcResWrite i⟩]
  else if b == 0x40380000 then [one 0x10 metLatchWrite, one 0x14 metCmdWrite, one 0x28 metUnlock]
  else if b == 0x40390000 then [one 0x0 flcCtlWrite, one 0x24 flcFormat]
  else if b == 0x403A0000 then [⟨0x20, 8, 4, pcntDebWrite⟩]
  else if b == 0x403B0000 then [one 0x0 poutCtlWrite, ⟨0x10, 4, 4, poutSrcWrite⟩, ⟨0x20, 4, 4, poutEppWrite⟩]
  else []

/-- The writes of the NET and SUPV blocks; the fuses ask for the supervisor's system level (R500). -/
def netHooks (b i : Nat) (soft : Bool) : List WriteHook :=
  if b == 0x40400000 then [one 0x0 (ethCtlWrite i), one 0x10 (ethMaxlenWrite i)]
  else if b == 0x40440000 then [one 0x0 swCtlWrite, one 0x10 (swTimeWrite Reg.SW_AGE), one 0x14 (swTimeWrite Reg.SW_PRP), one 0x18 swBufWrite,
    one 0x1C mdioGo, ⟨0x20, 5, 4, swPortWrite⟩, ⟨0x100, 64, 4, fun k => swVlanWrite (Reg.SW_VLAN_0 + 4 * k)⟩]
  else if b == 0x40450000 then [⟨0x1000, 64, 32, qmCfgWrite⟩, ⟨0x1004, 64, 32, qmLimWrite⟩, ⟨0x1010, 64, 32, qmOpenWrite⟩, ⟨0x1018, 64, 32, qmCmdWrite⟩]
  else if b == 0x40480000 then [one 0x0 (crcCfgWrite i), one 0x14 (crcStart i), one 0x18 (crcValWrite i), one 0x20 (crcDin i .d8),
    one 0x24 (crcDin i .d16), one 0x28 (crcDin i .d32)]
  else if b == 0x40500000 then [one 0x8 scbDbgWrite]
  else if b == 0x40510000 then [one 0x14 (fuseCmd soft)]
  else if b == 0x40520000 then [one 0x0 qspiCtlWrite, one 0x4 qspiRdcfgWrite, one 0x14 qspiCmd]
  else if b == 0x40530000 then [one 0x4 uartDivWrite, one 0x14 uartDataWrite]
  else if b == 0x40540000 then [one 0x0 (gpioWrite Reg.GPIO_DIR), one 0x4 (gpioWrite Reg.GPIO_OD), one 0x8 (gpioWrite Reg.GPIO_OUT), one 0xC gpioSet,
    one 0x10 gpioClr]
  else []

/-- A phase correction register of an input that has none: the segments of a voltage input do not exist (R330). -/
def isNoSeg (a : Nat) : Bool := decide (Reg.MET_SEG_G 0 0 ≤ a) && decide (a ≤ Reg.MET_SEG_P 16 7) && !isCurrent ((a - Reg.MET_SEG_G 0 0) / 64)

/-- An address of a register block that holds no register (R42). -/
def noReg (a : Nat) : Bool := (findReg a).isNone || isNoSeg a

/-- A write to a register: the register's own effect, else what its access code gives (R6); where no register stands it is ignored (R42). -/
def regWrite (m : Master) (a : Nat) (v : Word) (d : Dev) : Dev :=
  if noReg a then d else
  match findBlock a with
  | none => d
  | some b =>
    let i := (a - b.base) / b.stride; let o := (a - b.base) % b.stride
    if b.base == 0x40030000 then d.ambWrite a v
    else if isMetCfg a then metConfigWrite a v d
    else (runHook (safeHooks b.base ++ ringHooks b.base i ++ plantHooks b.base i ++ netHooks b.base i (m == .supv && d.sup.sys)) o v d).getD
      (d.genWrite a v)

/-! ### Register reads -/

/-- A run of registers whose value is not stored, and their values. -/
structure ReadHook where
  off : Nat
  n   : Nat
  st  : Nat
  val : Nat → Dev → Word

/-- A word of a number. -/
def wordN (v : Nat) : Word := BitVec.ofNat 32 v

/-- The registers of a block that show other state of the device. -/
def readHooks (b i : Nat) : List ReadHook :=
  if b == 0x40020000 then [⟨0x10, 2, 4, fun k d => wordN (d.now / 2 ^ (32 * k))⟩, ⟨0x18, 1, 4, fun _ d => wordN d.tb.hiLatch⟩, ⟨0x2C, 1, 4, fun _ d => wordN d.tb.k⟩]
  else if b == 0x40030000 then [⟨0x0, 1, 4, fun _ d => putField (d.rd Reg.AMB_STATUS) 7 1 (b2n (!d.amb.queue.isEmpty))⟩,
    ⟨0x10, 2, 4, fun k d => wordN (d.holdNs / 2 ^ (32 * k))⟩]
  else if b == 0x40040000 then [⟨0x40, 4, 4, fun w d => d.fcActive w⟩]
  else if b == 0x40050000 then [⟨0x10, 1, 4, fun _ d => (pinsOf d).gout.setWidth 32⟩]
  else if b == 0x40060000 then [⟨0x0, 1, 4, fun _ d => d.safeStat⟩]
  else if b == 0x40070000 then [⟨0x8000, 576, 4, fun k d => d.atmRec (k / 4) (k % 4)⟩, ⟨0x9000, 128, 4, fun k d => d.atmLev (k / 16) (k % 16)⟩]
  else if b == 0x40280000 then [⟨0x204, 1, 4, fun _ d => putField (d.rd Reg.TWIN_STAT) 9 1 (b2n d.twinId)⟩]
  else if b == 0x40300000 then [⟨0x18, 1, 4, fun _ d => wordN (65536 * d.chunkNow i)⟩, ⟨0x200, 32, 8, fun e d => if d.resShown i e then d.rd (Reg.ADC_RES i e) else 0⟩] ++
    (if i == 0 then [] else [⟨0x40, 4, 4, fun _ _ => 0⟩])
  else if b == 0x40380000 then [⟨0x1000, 260, 4, fun k d => wordN (d.metE (k / 2) / 2 ^ (32 * (k % 2)))⟩, ⟨0x1800, 130, 4, fun q d => d.metI q⟩,
    ⟨0x1C00, 130, 4, fun q d => d.metIw q⟩]
  else if b == 0x40480000 then [⟨0x1C, 1, 4, fun _ d => d.crcRes i⟩]
  else if b == 0x40500000 then [⟨0x4, 1, 4, fun _ d => d.scbStat⟩]
  else if b == 0x40510000 then [⟨0x0, 1, 4, fun _ d => putField (d.rd Reg.BOOT_STAT) 6 1 (b2n d.boot.fuseOp.isSome)⟩]
  else if b == 0x40530000 then [⟨0x14, 1, 4, fun _ d => d.uartPop.1⟩]
  else []

/-- The value of the first run that holds an offset. -/
def readHook : List ReadHook → Nat → Dev → Option Word
  | [], _, _ => none
  | h :: hs, o, d =>
    match hookIdx h.off h.n h.st o with
    | some i => some (h.val i d)
    | none => readHook hs o d

/-- What a register reads (R6); an offset without a register reads zero (R42). -/
def regVal (a : Nat) (d : Dev) : Word :=
  match findBlock a with
  | none => 0
  | some b =>
    if noReg a then 0
    else match d.fuseRead a with
      | some v => v
      | none => (readHook (readHooks b.base ((a - b.base) / b.stride)) ((a - b.base) % b.stride) d).getD (d.rd a)

/-- The high word of a 64-bit value by the address of its low word (R45, R342). -/
def hiOf (a : Nat) : Option Nat :=
  let adc := (a - 0x40300000) % 0x10000
  if [Reg.TIME_NOW_LO, Reg.TIME_STEP_LO, Reg.TIME_PPSIN_LO, Reg.AMB_HOLD_LO, Reg.AMB_OFF_LO, Reg.AMB_RSTK_LO, Reg.MET_LATCH_AT_LO, Reg.BOOT_SERIAL_LO,
      Reg.ETH_TXTS_LO 0, Reg.ETH_TXTS_LO 1, Reg.ETH_TXTS_LO 2, Reg.ETH_TXTS_LO 3].contains a then some (a + 4)
  else if Reg.MET_E_LO 0 ≤ a && a ≤ Reg.MET_E_LO 129 && a % 8 == 0 then some (a + 4)
  else if Reg.MET_I 0 ≤ a && a ≤ Reg.MET_I 129 then some (a + 0x400)
  else if Reg.FC_LOG 0 2 ≤ a && a ≤ Reg.FC_LOG 63 2 && a % 32 == 8 then some (a + 4)
  else if 0x40300000 ≤ a && a < 0x40320000 && 0x400 ≤ adc && adc < 0x600 && adc % 16 == 0 then some (a + 4)
  else none

/-- The key of a master's shadow of a high word. -/
def shadowKey (m : Master) (a : Nat) : Nat := masterNum m * 2 ^ 32 + a

/-- A sealed location: the result of a metering entry on the SV9144-FM (R2, R303). -/
def Dev.isSealed (d : Dev) (a : Nat) : Bool :=
  d.fm && (List.range 2).any fun g => decide (Reg.ADC_RES g 0 ≤ a) && decide (a ≤ Reg.ADC_RES g 31) && a % 8 == 0 &&
    d.isMetCh g (fieldOf (d.actEntry g ((a - Reg.ADC_RES g 0) / 8)) 0 5)

/-- What a read of a register does beside answering: it latches a high word, clears RC bits, takes an entry of a FIFO (R6, R45, R443,
R469, R505). -/
def regReadSide (m : Master) (a : Nat) (d : Dev) : Dev :=
  let d := match hiOf a with
    | some h => d.putShadow (SMap.put d.shadow 0 (shadowKey m h) ((regVal h d).toNat + 1))
    | none => d
  if a == Reg.TIME_NOW_LO then d.putTb { d.tb with hiLatch := d.tb.dt % 2 ^ 48 / 2 ^ 32 }
  else if a == Reg.UART_DATA then d.uartPop.2
  else if Reg.ETH_TXTS_INFO 0 ≤ a && a ≤ Reg.ETH_TXTS_INFO 3 && a % 0x10000 == 0x28 then (ethTxtsRead ((a - Reg.ETH_TXTS_INFO 0) / 0x10000) d).putBusResp d.busResp
  else match findReg a with
    | some k => if k.rc == 0 then d else d.wr a ((d.rd a &&& ~~~k.rc) ||| (k.reset &&& k.rc))
    | none => d

/-- A read of a register: a sealed location reads zero and is counted (R46), a high word may come from the master's shadow (R45); where no
register stands it reads zero (R42). -/
def regRead (m : Master) (a : Nat) (d : Dev) : Dev :=
  let k := SMap.getD d.shadow 0 (shadowKey m a)
  if noReg a then d.putBusResp ⟨0, 0⟩
  else if d.isSealed a then (d.inc Reg.SCRUB_SEAL_CNT 16).putBusResp ⟨0, 0⟩
  else if k != 0 then (d.putShadow (SMap.put d.shadow 0 (shadowKey m a) 0)).putBusResp ⟨wordN (k - 1), 0⟩
  else
    let v := regVal a d
    (regReadSide m a d).putBusResp ⟨v, 0⟩

/-! ### Accesses -/

/-- The stored value of a region without registers. -/
def Dev.regionVal (d : Dev) (r : Region) (a n : Nat) : Nat :=
  let bytes (f : Nat → Nat) : Nat := (List.range n).foldl (fun v i => v + f (a + i) * 256 ^ i) 0
  match r with
  | .flash => bytes fun x => (d.flashByte (x - 0x60000000)).toNat
  | .rom => bytes fun x => (Config.romByte x).toNat
  | .descriptor => bytes fun x => d.descByte (x - 0xFFFFF000)
  | .coef _ o => if coefReserved o then 0 else d.mrd a n
  | _ => d.mrd a n

/-- An access meets a memory that the engines change on their own: what they wrote in earlier cycles has landed (R240, R278). -/
def Dev.engMeet (d : Dev) : Region → Dev
  | .exchange | .coef _ _ => d.engSettle
  | _ => d

/-- A read that meets no error code but ECC (R54, R55). -/
def Dev.memoryRead (m : Master) (r : Region) (a n : Nat) (d : Dev) : Dev :=
  let d := d.engMeet r
  let v := wordN (d.regionVal r a n)
  let read (d : Dev) : Dev :=
    if regionEcc r then d.eccRead a false else if r == .flacon && d.eccBad a then d.raise 93 else d
  if d.eccBad a && (m == .supv || m == .debug) then (read d).busError 6 m false a else (read d).putBusResp ⟨v, 0⟩

/-- A write that meets no error code: reserved coefficient words and, while the engine is enabled, blend words ignore it (R277); the
packet memory's owner counts it (R473). -/
def Dev.memoryWrite (r : Region) (a n v : Nat) (d : Dev) : Dev :=
  let d := d.engMeet r
  let d' := d.mwr a n v
  match r with
  | .coef e o =>
    if coefReserved o || (d.enAct e && decide (0x800 ≤ o)) then d
    else if 0x800 ≤ o && o % 16 == 4 then d.mwr a 4 (v % 65536) else d'
  | .edata =>
    let e := (a - 0x10000000) / 0x100000
    let w := a - a % 4
    if d.engRuns e && SMap.getD (d.eng e).busOld 0 w == 0 then d'.setEng e fun x => { x with busOld := SMap.put x.busOld 0 w (d.mrd w 4 + 1) } else d'
  | .packet => d'.qmTouch a n
  | _ => d'

/-- The first bus error code of an access, in the order of R47. A write to a region without write sizes is judged for SIZE by its read
sizes. -/
def Dev.busCode (d : Dev) (m : Master) (a : Nat) (size : AccSize) (wr : Bool) : Option Nat :=
  match regionOf a with
  | none => some 1
  | some r =>
    if m == .debug && !d.debugOk then some 7
    else if !d.domainOn (regionDomain a r) then some 4
    else if (size != .b32 && !regionNarrow r) || a % sizeBytes size != 0 then some 2
    else if wr && regionReadOnly r then some 3
    else if wr && d.busLocked r then some 5
    else none

/-- One bus access of a master (R41 to R48). -/
def busAccess (m : Master) (a : Nat) (size : AccSize) (op : BusOp) (d : Dev) : Dev :=
  match d.busCode m a size (op != .read), regionOf a, op with
  | some c, _, _ => d.busError c m (op != .read) a
  | none, some .register, .read => regRead m a d
  | none, some .register, .write v => (regWrite m a v d).putBusResp ⟨0, 0⟩
  | none, some r, .read => d.memoryRead m r a (sizeBytes size)
  | none, some r, .write v => (d.memoryWrite r a (sizeBytes size) (v.toNat % 256 ^ sizeBytes size)).putBusResp ⟨0, 0⟩
  | none, none, _ => d

/-! ### Meanings -/

def execMemoryAccess (m : Master) (addr : Word) (size : AccSize) (op : BusOp) (s : State) : Host.Outcome State Fault Refusal := run (busAccess m addr.toNat size op) s
def execRegisterWrite (m : Master) (addr v : Word) (s : State) : Host.Outcome State Fault Refusal := run (busAccess m addr.toNat .b32 (.write v)) s
def execLowWordRead (m : Master) (addr : Word) (s : State) : Host.Outcome State Fault Refusal := run (busAccess m addr.toNat .b32 .read) s
def execRcRead (m : Master) (addr : Word) (s : State) : Host.Outcome State Fault Refusal := run (busAccess m addr.toNat .b32 .read) s
def execMetIRead (m : Master) (q : Fin 130) (s : State) : Host.Outcome State Fault Refusal := run (busAccess m (Reg.MET_I q) .b32 .read) s
def execMetConfigWrite (m : Master) (addr v : Word) (s : State) : Host.Outcome State Fault Refusal := run (busAccess m addr.toNat .b32 (.write v)) s
def execEthTxtsRead (m : Master) (n : Fin 4) (s : State) : Host.Outcome State Fault Refusal := run (busAccess m (Reg.ETH_TXTS_INFO n) .b32 .read) s
def execUartDataRead (m : Master) (s : State) : Host.Outcome State Fault Refusal := run (busAccess m Reg.UART_DATA .b32 .read) s

end Sys2Proof.Machine
end

