-- ==== Sys2Proof/Machine/SupCore.lean ====
section
/-! DEFINITION. The supervisor's core: fetch, issue, data accesses and branches, and the shared instructions on either core
(spec/07_accord_isa.md, R222, R225, R239 to R244, R255 to R264). A command is the issue of one instruction; a core that does not run
issues nothing. -/

namespace Sys2Proof.Machine

/-! ### Issue -/

/-- The core issues: it runs, and a HALT has been ended by a pending interrupt that PSR.IE does not take first (R244). -/
def Dev.supReady (d : Dev) : Bool := d.supRuns && (!d.sup.hold || (d.irqTop.isSome && !d.sup.ie))

/-- An instruction raises an exception without an address: EPC is the instruction (R260). -/
def Dev.supExc (cause : Nat) (d : Dev) : Dev := d.excEnter cause d.sup.pc none 0 0 0

/-- The fetch at PC: refused by the memory protection unit, or ended with a bus error (R260); a single-bit
error is corrected (R54). The flag says that the fetch was refused. -/
def Dev.supFetch (d : Dev) : Bool × Dev :=
  let pc := d.sup.pc
  if !d.mpuFetch pc then (true, d.excEnter 5 pc (some pc) 0 0 0)
  else match d.busCode .supv pc .b32 false with
    | some c => (true, (d.busError c .supv false pc).excEnter 3 pc (some pc) 0 c 0)
    | none =>
      let x := d.eccRead pc false
      if d.eccBad pc then (true, (x.busError 6 .supv false pc).excEnter 3 pc (some pc) 0 6 0) else (false, x)

/-- A result lands; the supervisor waits for every result, so each is there at once (R257). -/
def Dev.supLand (a : Act) (d : Dev) : Dev :=
  match a with
  | .sat => d.putSup { d.sup with satf := true }
  | a => d.putSup { d.sup with regs := d.sup.regs.land a }

/-- What a result goes to, as a source of later instructions: a register, or 16 and an accumulator. -/
def actKey : Act → Option Nat
  | .reg i _ => some i
  | .acc i _ _ _ => some (16 + i)
  | .accAdd i _ => some (16 + i)
  | _ => none

/-- From when the results of an instruction that issues in cycle `c` can be used; only those that come later than the next cycle are kept. -/
def rdyAfter (c : Nat) (acts : List (Nat × Act)) (m : SMap Nat) : SMap Nat :=
  acts.foldl (fun m a => match actKey a.2 with | some k => SMap.put m 0 k (if 1 < a.1 then c + a.1 else 0) | none => m) m

/-- The stall of an instruction until all its sources have landed (R257). -/
def Dev.supStall (src : List Nat) (d : Dev) : Dev :=
  d.putSup { d.sup with cyc := src.foldl (fun c k => max c (SMap.getD d.sup.rdy 0 k)) d.sup.cyc }

/-- The instruction is done: its results land, the loops and the PC move on (R241, R257). -/
def Dev.supNext (acts : List (Nat × Act)) (d : Dev) : Dev :=
  let d := acts.foldl (fun (d : Dev) a => d.supLand a.2) d
  let r := d.sup.regs.advance d.sup.pc ((d.sup.pc + 4) % 2 ^ 32)
  d.putSup { d.sup with regs := r.1, pc := r.2, cyc := d.sup.cyc + 1, rdy := rdyAfter d.sup.cyc acts d.sup.rdy }

/-- Ends a HALT. -/
def Dev.supWake (d : Dev) : Dev := d.putSup { d.sup with hold := false }

/-- The issue of an instruction with the sources `src` whose pattern is judged on the registers; one that is predicated false or suppressed
stalls as if it executed and has no other effect (R225, R243, R257, R264). -/
def Dev.supIssue (p : Pred) (src : List Nat) (op : Regs → Option (Dev → Dev)) (d : Dev) : Dev :=
  if !d.supReady then d else
  match d.supWake.supFetch with
  | (true, d) => d
  | (false, d) =>
    match op d.sup.regs with
    | none => d.supExc 1
    | some f =>
      let d := d.supStall src
      if predHolds p d.sup.regs && !d.sup.regs.suppressed then f d else d.supNext []

/-- A privileged effect: at task level it raises PRIVILEGED (R258). -/
def Dev.privileged (f : Dev → Dev) (d : Dev) : Dev := if d.sup.sys then f d else d.supExc 2

/-- An opcode that is not legal in the supervisor. -/
def Dev.supIllegal (p : Pred) (d : Dev) : Dev := d.supIssue p [] fun _ => none

/-! ### Data accesses and branches -/

/-- The supervisor's own memories, from which a load takes one cycle more (R257). -/
def supLocal (a : Nat) : Bool := decide (a < 0x10000000) || decide (0xFFFF0000 ≤ a)

/-- A load from elsewhere waits for its data; how long is open (R257): a free number of cycles (DESIGN CHOICE, notes/assumptions/112). -/
def Dev.supWait (read : Bool) (a : Nat) (d : Dev) : Dev :=
  if read && !supLocal a then (d.putSup { d.sup with cyc := d.sup.cyc + Config.freeNat d.freeCtr }).nextFree else d

/-- A data access: refused by the memory protection unit, ended with a bus error, or done (R239, R260). An access that takes the core
out of operation leaves nothing to go on. -/
def Dev.supAccess (a : Nat) (size : AccSize) (op : BusOp) (k : Word → List (Nat × Act)) (d : Dev) : Dev :=
  if !d.mpuData (op != .read) a then d.excEnter 6 d.sup.pc (some a) 0 0 0
  else
    let d' := busAccess .supv a size op d
    if d'.busResp.err != 0 then d'.excEnter 4 d.sup.pc (some a) 0 d'.busResp.err 0
    else if !d'.supRuns then d'
    else (d'.supWait (op == .read) a).supNext ((k d'.busResp.data).map fun x => (if supLocal a then 2 else 1, x.2))

/-- A loop that a branch to `t` leaves becomes inactive (R259). -/
def Loop.leave (t : Nat) (l : Loop) : Loop := if l.act && (t < l.beg || l.fin < t) then { l with act := false, sup := false } else l

/-- A taken branch: two cycles more (R257, R259). -/
def Dev.branch (t : Nat) (d : Dev) : Dev :=
  (d.putSup { d.sup with
    pc := t, cyc := d.sup.cyc + 3, regs := { d.sup.regs with l0 := d.sup.regs.l0.leave t, l1 := d.sup.regs.l1.leave t } })

/-- PC plus four times a signed offset. -/
def Dev.relPc (d : Dev) (off : Int) : Nat := low 32 ((d.sup.pc : Int) + 4 * off)

/-! ### Shared instructions -/

/-- A shared instruction on its core: the same results, with the engine's latencies or at once (R255, R257). -/
def coreAlu (c : Core) (p : Pred) (src : List Nat) (op : AluOp) (d : Dev) : Dev :=
  match c with
  | .eng n => d.engIssue n p (engAlu op)
  | .supv => d.supIssue p src fun r => (op false r).map fun acts => Dev.supNext acts

/-- An instruction of the engines only (R226). -/
def coreEng (c : Core) (p : Pred) (body : Nat → Regs → Option Body) (d : Dev) : Dev :=
  match c with
  | .eng n => d.engIssue n p (body n)
  | .supv => d.supIllegal p

/-- An instruction of the supervisor only (R226). -/
def coreSup (c : Core) (p : Pred) (src : List Nat) (op : Regs → Option (Dev → Dev)) (d : Dev) : Dev :=
  match c with
  | .eng n => d.engIllegal n
  | .supv => d.supIssue p src op

end Sys2Proof.Machine
end

