-- ==== Sys2Proof/Machine/IsaAlu.lean ====
section
/-! DEFINITION. HALT, arithmetic, logic, compares and moves of the Accord set (spec/07_accord_isa.md, R232 to R236, R244). -/

namespace Sys2Proof.Machine

/-- HALT (R244): in an engine the end of its programme; in the supervisor privileged, and executed in a suppressed body too. -/
def accHalt (c : Core) (p : Pred) (z : BitVec 23) (d : Dev) : Dev :=
  match c with
  | .eng n => (d.engHalt n p z).twinLoadCopy
  | .supv =>
    if !d.supReady then d else
    match d.supWake.supFetch with
    | (true, d) => d
    | (false, d) =>
      if z != 0 then d.supExc 1
      else if !predHolds p d.sup.regs then d.supNext []
      else d.privileged fun d => let d := d.supNext []; (d.putSup { d.sup with hold := true })

/-! Each instruction is its own function of the registers (R232 to R236). -/

def accAdd (c : Core) (p : Pred) (x : RI) : Dev → Dev := coreAlu c p (riSrc false x) (aluSum x (· + ·))
def accSub (c : Core) (p : Pred) (x : RI) : Dev → Dev := coreAlu c p (riSrc false x) (aluSum x (· - ·))
def accAnd (c : Core) (p : Pred) (x : RI) : Dev → Dev := coreAlu c p (riSrc false x) (aluBin x true (· &&& ·))
def accOr (c : Core) (p : Pred) (x : RI) : Dev → Dev := coreAlu c p (riSrc false x) (aluBin x true (· ||| ·))
def accXor (c : Core) (p : Pred) (x : RI) : Dev → Dev := coreAlu c p (riSrc false x) (aluBin x true (· ^^^ ·))
def accShl (c : Core) (p : Pred) (x : RI) : Dev → Dev := coreAlu c p (riSrc false x) (aluShl x)
def accShr (c : Core) (p : Pred) (x : RI) : Dev → Dev := coreAlu c p (riSrc false x) (aluShr x)
def accSar (c : Core) (p : Pred) (x : RI) : Dev → Dev := coreAlu c p (riSrc false x) (aluSar x)
def accMin (c : Core) (p : Pred) (x : RI) : Dev → Dev := coreAlu c p (riSrc false x) (aluMinMax x false)
def accMax (c : Core) (p : Pred) (x : RI) : Dev → Dev := coreAlu c p (riSrc false x) (aluMinMax x true)
def accAbs (c : Core) (p : Pred) (x : RI) : Dev → Dev := coreAlu c p (riSrc true x) (aluUn x fun v => v.natAbs)
def accNeg (c : Core) (p : Pred) (x : RI) : Dev → Dev := coreAlu c p (riSrc true x) (aluUn x fun v => -v)
def accSat (c : Core) (p : Pred) (x : RI) : Dev → Dev := coreAlu c p (riSrc false x) (aluSat x)
def accCmpeq (c : Core) (p : Pred) (x : RI) : Dev → Dev := coreAlu c p (riSrc false x) (aluCmp x false fun _ a b => a == b)
def accCmplt (c : Core) (p : Pred) (x : RI) : Dev → Dev := coreAlu c p (riSrc false x) (aluCmp x true fun u a b => ltU u a b)
def accCmple (c : Core) (p : Pred) (x : RI) : Dev → Dev := coreAlu c p (riSrc false x) (aluCmp x true fun u a b => !ltU u b a)
def accMov (c : Core) (p : Pred) (x : RI) : Dev → Dev := coreAlu c p (movSrc x) (aluMov x)
def accMovi (c : Core) (p : Pred) (rd : Fin 16) (imm : BitVec 19) : Dev → Dev := coreAlu c p [] (aluMovi rd imm)
def accMovh (c : Core) (p : Pred) (rd : Fin 16) (imm : BitVec 19) : Dev → Dev := coreAlu c p [rd.val] (aluMovh rd imm)
def accMul (c : Core) (p : Pred) (x : RI) : Dev → Dev := coreAlu c p (riSrc false x) (aluMul x)
def accMulq (c : Core) (p : Pred) (x : RI) : Dev → Dev := coreAlu c p (riSrc false x) (aluMulq x)
def accMac (c : Core) (p : Pred) (x : RI) : Dev → Dev := coreAlu c p (riSrc false x) (aluMac x 1)
def accMsu (c : Core) (p : Pred) (x : RI) : Dev → Dev := coreAlu c p (riSrc false x) (aluMac x (-1))

/-! ### Meanings -/
def execHalt (c : Core) (p : Pred) (z : BitVec 23) (s : State) : Host.Outcome State Fault Refusal := run (accHalt c p z) s
def execAdd (c : Core) (p : Pred) (x : RI) (s : State) : Host.Outcome State Fault Refusal := run (accAdd c p x) s
def execSub (c : Core) (p : Pred) (x : RI) (s : State) : Host.Outcome State Fault Refusal := run (accSub c p x) s
def execAnd (c : Core) (p : Pred) (x : RI) (s : State) : Host.Outcome State Fault Refusal := run (accAnd c p x) s
def execOr (c : Core) (p : Pred) (x : RI) (s : State) : Host.Outcome State Fault Refusal := run (accOr c p x) s
def execXor (c : Core) (p : Pred) (x : RI) (s : State) : Host.Outcome State Fault Refusal := run (accXor c p x) s
def execShl (c : Core) (p : Pred) (x : RI) (s : State) : Host.Outcome State Fault Refusal := run (accShl c p x) s
def execShr (c : Core) (p : Pred) (x : RI) (s : State) : Host.Outcome State Fault Refusal := run (accShr c p x) s
def execSar (c : Core) (p : Pred) (x : RI) (s : State) : Host.Outcome State Fault Refusal := run (accSar c p x) s
def execMin (c : Core) (p : Pred) (x : RI) (s : State) : Host.Outcome State Fault Refusal := run (accMin c p x) s
def execMax (c : Core) (p : Pred) (x : RI) (s : State) : Host.Outcome State Fault Refusal := run (accMax c p x) s
def execAbs (c : Core) (p : Pred) (x : RI) (s : State) : Host.Outcome State Fault Refusal := run (accAbs c p x) s
def execNeg (c : Core) (p : Pred) (x : RI) (s : State) : Host.Outcome State Fault Refusal := run (accNeg c p x) s
def execSat (c : Core) (p : Pred) (x : RI) (s : State) : Host.Outcome State Fault Refusal := run (accSat c p x) s
def execCmpeq (c : Core) (p : Pred) (x : RI) (s : State) : Host.Outcome State Fault Refusal := run (accCmpeq c p x) s
def execCmplt (c : Core) (p : Pred) (x : RI) (s : State) : Host.Outcome State Fault Refusal := run (accCmplt c p x) s
def execCmple (c : Core) (p : Pred) (x : RI) (s : State) : Host.Outcome State Fault Refusal := run (accCmple c p x) s
def execMov (c : Core) (p : Pred) (x : RI) (s : State) : Host.Outcome State Fault Refusal := run (accMov c p x) s
def execMovi (c : Core) (p : Pred) (rd : Fin 16) (imm : BitVec 19) (s : State) : Host.Outcome State Fault Refusal := run (accMovi c p rd imm) s
def execMovh (c : Core) (p : Pred) (rd : Fin 16) (imm : BitVec 19) (s : State) : Host.Outcome State Fault Refusal := run (accMovh c p rd imm) s
def execMul (c : Core) (p : Pred) (x : RI) (s : State) : Host.Outcome State Fault Refusal := run (accMul c p x) s
def execMulq (c : Core) (p : Pred) (x : RI) (s : State) : Host.Outcome State Fault Refusal := run (accMulq c p x) s
def execMac (c : Core) (p : Pred) (x : RI) (s : State) : Host.Outcome State Fault Refusal := run (accMac c p x) s
def execMsu (c : Core) (p : Pred) (x : RI) (s : State) : Host.Outcome State Fault Refusal := run (accMsu c p x) s

end Sys2Proof.Machine
end

