-- ==== Sys2Proof/Machine/IsaMem.lean ====
section
/-! DEFINITION. Loads, stores and the engines' special instructions of the Accord set (spec/07_accord_isa.md, R237 to R253). -/

namespace Sys2Proof.Machine

/-- A word load of the supervisor. -/
def supLd (x : MOp) (r : Regs) : Option (Dev → Dev) :=
  (mAddr x r 4 false).map fun a => Dev.supAccess a .b32 .read fun w => [(1, .reg x.rd w)]

/-- LDH of the supervisor: a half-word sign-extended, with ix 3 a byte zero-extended (R237). -/
def supLdh (x : MOp) (r : Regs) : Option (Dev → Dev) :=
  (mAddr x r 2 true).map fun a =>
    if x.ix == 3 then Dev.supAccess a .b8 .read fun w => [(1, .reg x.rd (w &&& 0xFF#32))]
    else Dev.supAccess a .b16 .read fun w => [(1, .reg x.rd (wordI (sext 16 w.toNat)))]

/-- The stores of the supervisor. -/
def supSt (x : MOp) (r : Regs) : Option (Dev → Dev) :=
  (mAddr x r 4 false).map fun a => Dev.supAccess a .b32 (.write (r.rg x.rd)) fun _ => []
def supSth (x : MOp) (r : Regs) : Option (Dev → Dev) :=
  (mAddr x r 2 true).map fun a =>
    if x.ix == 3 then Dev.supAccess a .b8 (.write (r.rg x.rd &&& 0xFF#32)) fun _ => []
    else Dev.supAccess a .b16 (.write (r.rg x.rd &&& 0xFFFF#32)) fun _ => []

/-- A load or store on its core. -/
def coreMem (c : Core) (p : Pred) (src : List Nat) (body : Nat → Regs → Option Body) (op : Regs → Option (Dev → Dev)) (d : Dev) : Dev :=
  match c with
  | .eng n => d.engIssue n p (body n)
  | .supv => d.supIssue p src op

def accLd (c : Core) (p : Pred) (x : MOp) : Dev → Dev := coreMem c p [x.rb.val] (fun n => engLd n x) (supLd x)
def accSt (c : Core) (p : Pred) (x : MOp) : Dev → Dev := coreMem c p [x.rb.val, x.rd.val] (fun n => engSt n x) (supSt x)
def accLdh (c : Core) (p : Pred) (x : MOp) : Dev → Dev := coreMem c p [x.rb.val] (fun n => engLdh n x) (supLdh x)
def accSth (c : Core) (p : Pred) (x : MOp) : Dev → Dev := coreMem c p [x.rb.val, x.rd.val] (fun n => engSth n x) (supSth x)
def accLdx (c : Core) (p : Pred) (x : MOp) : Dev → Dev := coreEng c p fun _ => engLdx x
def accStx (c : Core) (p : Pred) (x : MOp) : Dev → Dev := coreEng c p fun n => engStx n x
def accSmp (c : Core) (p : Pred) (x : MOp) : Dev → Dev := coreEng c p fun _ => engSmp x
def accLutg (c : Core) (p : Pred) (x : UOp) : Dev → Dev := coreEng c p fun n => engLutg n x
def accBiq (c : Core) (p : Pred) (x : UOp) : Dev → Dev := coreEng c p fun n => engBiq n x
def accRamp (c : Core) (p : Pred) (x : UOp) : Dev → Dev := coreEng c p fun n => engRamp n x
def accSorts (c : Core) (p : Pred) (x : TOp) : Dev → Dev := coreEng c p fun n => engSorts n x
def accSortg (c : Core) (p : Pred) (x : TOp) : Dev → Dev := coreEng c p fun n => engSortg n x
def accRef (c : Core) (p : Pred) (x : TOp) : Dev → Dev := coreEng c p fun n => engRef n x
def accEdge (c : Core) (p : Pred) (x : TOp) : Dev → Dev := coreEng c p fun n => engEdge n x
def accTrc (c : Core) (p : Pred) (x : UOp) : Dev → Dev := coreEng c p fun n => engTrc n x
def accXput (c : Core) (p : Pred) (x : TOp) : Dev → Dev := coreEng c p fun n => engXput n x
def accXget (c : Core) (p : Pred) (x : TOp) : Dev → Dev := coreEng c p fun _ => engXget x
def accBlend (c : Core) (p : Pred) (x : RI) : Dev → Dev := coreEng c p fun n => engBlend n x

/-! ### Meanings -/
def execLd (c : Core) (p : Pred) (x : MOp) (s : State) : Host.Outcome State Fault Refusal := run (accLd c p x) s
def execSt (c : Core) (p : Pred) (x : MOp) (s : State) : Host.Outcome State Fault Refusal := run (accSt c p x) s
def execLdh (c : Core) (p : Pred) (x : MOp) (s : State) : Host.Outcome State Fault Refusal := run (accLdh c p x) s
def execSth (c : Core) (p : Pred) (x : MOp) (s : State) : Host.Outcome State Fault Refusal := run (accSth c p x) s
def execLdx (c : Core) (p : Pred) (x : MOp) (s : State) : Host.Outcome State Fault Refusal := run (accLdx c p x) s
def execStx (c : Core) (p : Pred) (x : MOp) (s : State) : Host.Outcome State Fault Refusal := run (accStx c p x) s
def execSmp (c : Core) (p : Pred) (x : MOp) (s : State) : Host.Outcome State Fault Refusal := run (accSmp c p x) s
def execLutg (c : Core) (p : Pred) (x : UOp) (s : State) : Host.Outcome State Fault Refusal := run (accLutg c p x) s
def execBiq (c : Core) (p : Pred) (x : UOp) (s : State) : Host.Outcome State Fault Refusal := run (accBiq c p x) s
def execRamp (c : Core) (p : Pred) (x : UOp) (s : State) : Host.Outcome State Fault Refusal := run (accRamp c p x) s
def execSorts (c : Core) (p : Pred) (x : TOp) (s : State) : Host.Outcome State Fault Refusal := run (accSorts c p x) s
def execSortg (c : Core) (p : Pred) (x : TOp) (s : State) : Host.Outcome State Fault Refusal := run (accSortg c p x) s
def execRef (c : Core) (p : Pred) (x : TOp) (s : State) : Host.Outcome State Fault Refusal := run (accRef c p x) s
def execEdge (c : Core) (p : Pred) (x : TOp) (s : State) : Host.Outcome State Fault Refusal := run (accEdge c p x) s
def execTrc (c : Core) (p : Pred) (x : UOp) (s : State) : Host.Outcome State Fault Refusal := run (accTrc c p x) s
def execXput (c : Core) (p : Pred) (x : TOp) (s : State) : Host.Outcome State Fault Refusal := run (accXput c p x) s
def execXget (c : Core) (p : Pred) (x : TOp) (s : State) : Host.Outcome State Fault Refusal := run (accXget c p x) s
def execBlend (c : Core) (p : Pred) (x : RI) (s : State) : Host.Outcome State Fault Refusal := run (accBlend c p x) s

end Sys2Proof.Machine
end

