-- ==== Sys2Proof/Machine/IsaSys.lean ====
section
/-! DEFINITION. Loops, branches, system calls and system registers of the Accord set, and illegal words (spec/07_accord_isa.md, R241 to
R243, R258 to R264). -/

namespace Sys2Proof.Machine

/-! ### Loops -/

/-- LOOP in the supervisor: body addresses four bytes apart (R241 to R243). -/
def Dev.supLoop (p : Pred) (x : LOp) (d : Dev) : Dev :=
  if !d.supReady then d else
  match d.supWake.supFetch with
  | (true, d) => d
  | (false, d) =>
    let pc := d.sup.pc
    match loopParams x false d.sup.regs with
    | none => d.supExc 1
    | some (c, count, len) =>
      if !loopLegal false d.sup.regs c pc (pc + 4 * len) then d.supExc 1
      else
        let d := d.supStall (match x with | .reg _ rs _ _ => [rs.val] | .imm _ _ _ => [])
        let sup := !predHolds p d.sup.regs || d.sup.regs.suppressed
        (d.putSup { d.sup with
          regs := d.sup.regs.loopStart c (pc + 4) (pc + 4 * len) count sup, pc := (pc + 4) % 2 ^ 32, cyc := d.sup.cyc + 1 })

def accLoop (c : Core) (p : Pred) (x : LOp) (d : Dev) : Dev :=
  match c with
  | .eng n => d.engLoop n p x
  | .supv => d.supLoop p x

/-! ### Branches (R259) -/

def accB (c : Core) (p : Pred) (off : BitVec 23) : Dev → Dev := coreSup c p [] fun _ => some fun d => d.branch (d.relPc off.toInt)

/-- BL writes g14. -/
def accBl (c : Core) (p : Pred) (off : BitVec 23) : Dev → Dev :=
  coreSup c p [] fun _ => some fun d =>
    let t := d.relPc off.toInt
    (d.supLand (.reg 14 (BitVec.ofNat 32 (d.sup.pc + 4)))).branch t

/-- BX: a target that is not a multiple of 4 raises MISALIGNED. -/
def accBx (c : Core) (p : Pred) (rs : Fin 16) (z : BitVec 19) : Dev → Dev :=
  coreSup c p [rs.val] fun r => if z != 0 then none else some fun d =>
    let t := (r.rg rs).toNat
    if t % 4 != 0 then d.excEnter 7 d.sup.pc (some t) 0 0 0 else d.branch t

/-- The condition of BC. -/
def bcMet (cond : Nat) (v : Word) : Bool :=
  match cond with
  | 0 => v == 0 | 1 => v != 0 | 2 => v.msb | _ => !v.msb

def accBc (c : Core) (p : Pred) (rs : Fin 16) (cond : Fin 4) (off : BitVec 17) : Dev → Dev :=
  coreSup c p [rs.val] fun r => some fun d => if bcMet cond (r.rg rs) then d.branch (d.relPc off.toInt) else d.supNext []

/-! ### System instructions (R258 to R262) -/

def accEret (c : Core) (p : Pred) (z : BitVec 23) : Dev → Dev :=
  coreSup c p [] fun _ => if z != 0 then none else some (Dev.privileged Dev.excReturn)

/-- SYSC: EPC is the next instruction. -/
def accSysc (c : Core) (p : Pred) (x : BitVec 23) : Dev → Dev :=
  coreSup c p [] fun _ => if 65536 ≤ x.toNat then none else some fun d =>
    let d := d.supNext []
    d.excEnter 8 d.sup.pc none 0 0 x.toNat

/-- MFS: a register outside 0x020 to 0x023 is privileged. -/
def accMfs (c : Core) (p : Pred) (rd : Fin 16) (z : BitVec 7) (num : BitVec 12) : Dev → Dev :=
  coreSup c p [] fun _ => if z != 0 || !sysrKnown num.toNat then none else some fun d =>
    let n := num.toNat
    let go (d : Dev) : Dev := (Dev.mfsSide n d).supNext [(1, .reg rd (d.mfs n))]
    if 0x20 ≤ n && n < 0x24 then go d else d.privileged go

/-- MTS: the write follows the advance of the PC, so that what it does to the loops and the level holds from the next instruction on. -/
def accMts (c : Core) (p : Pred) (rs : Fin 16) (z : BitVec 7) (num : BitVec 12) : Dev → Dev :=
  coreSup c p [rs.val] fun r => if z != 0 || !sysrKnown num.toNat then none else some (Dev.privileged fun d => (d.supNext []).mts num.toNat (r.rg rs))

/-! ### Illegal words (R263, R264) -/

/-- What an Accord instruction does; the other commands are none. -/
def accRun : Instr → Option (Dev → Dev)
  | .halt c p z => some (accHalt c p z) | .add c p x => some (accAdd c p x) | .sub c p x => some (accSub c p x)
  | .and c p x => some (accAnd c p x) | .or c p x => some (accOr c p x) | .xor c p x => some (accXor c p x)
  | .shl c p x => some (accShl c p x) | .shr c p x => some (accShr c p x) | .sar c p x => some (accSar c p x)
  | .min c p x => some (accMin c p x) | .max c p x => some (accMax c p x) | .abs c p x => some (accAbs c p x)
  | .neg c p x => some (accNeg c p x) | .sat c p x => some (accSat c p x) | .cmpeq c p x => some (accCmpeq c p x)
  | .cmplt c p x => some (accCmplt c p x) | .cmple c p x => some (accCmple c p x) | .mov c p x => some (accMov c p x)
  | .movi c p rd imm => some (accMovi c p rd imm) | .movh c p rd imm => some (accMovh c p rd imm) | .mul c p x => some (accMul c p x)
  | .mulq c p x => some (accMulq c p x) | .mac c p x => some (accMac c p x) | .msu c p x => some (accMsu c p x)
  | .ld c p x => some (accLd c p x) | .st c p x => some (accSt c p x) | .ldh c p x => some (accLdh c p x) | .sth c p x => some (accSth c p x)
  | .ldx c p x => some (accLdx c p x) | .stx c p x => some (accStx c p x) | .smp c p x => some (accSmp c p x)
  | .lutg c p x => some (accLutg c p x) | .biq c p x => some (accBiq c p x) | .ramp c p x => some (accRamp c p x)
  | .sorts c p x => some (accSorts c p x) | .sortg c p x => some (accSortg c p x) | .ref c p x => some (accRef c p x)
  | .edge c p x => some (accEdge c p x) | .trc c p x => some (accTrc c p x) | .xput c p x => some (accXput c p x)
  | .xget c p x => some (accXget c p x) | .blend c p x => some (accBlend c p x) | .b c p off => some (accB c p off)
  | .bl c p off => some (accBl c p off) | .bx c p rs z => some (accBx c p rs z) | .bc c p rs cond off => some (accBc c p rs cond off)
  | .eret c p z => some (accEret c p z) | .sysc c p x => some (accSysc c p x) | .loop c p x => some (accLoop c p x)
  | .mfs c p rd z num => some (accMfs c p rd z num) | .mts c p rs z num => some (accMts c p rs z num)
  | _ => none

/-- A core issues a word: a reserved opcode is illegal, any other word is the instruction it spells, which judges its own pattern. -/
def issueWord (c : Core) (w : Word) (d : Dev) : Dev :=
  match (decodeAccord c w).bind accRun with
  | some f => f d
  | none => coreSup c (predOf w) [] (fun _ => none) d

/-! ### Meanings -/
def execB (c : Core) (p : Pred) (off : BitVec 23) (s : State) : Host.Outcome State Fault Refusal := run (accB c p off) s
def execBl (c : Core) (p : Pred) (off : BitVec 23) (s : State) : Host.Outcome State Fault Refusal := run (accBl c p off) s
def execBx (c : Core) (p : Pred) (rs : Fin 16) (z : BitVec 19) (s : State) : Host.Outcome State Fault Refusal := run (accBx c p rs z) s
def execBc (c : Core) (p : Pred) (rs : Fin 16) (cond : Fin 4) (off : BitVec 17) (s : State) : Host.Outcome State Fault Refusal := run (accBc c p rs cond off) s
def execEret (c : Core) (p : Pred) (z : BitVec 23) (s : State) : Host.Outcome State Fault Refusal := run (accEret c p z) s
def execSysc (c : Core) (p : Pred) (x : BitVec 23) (s : State) : Host.Outcome State Fault Refusal := run (accSysc c p x) s
def execLoop (c : Core) (p : Pred) (x : LOp) (s : State) : Host.Outcome State Fault Refusal := run (accLoop c p x) s
def execMfs (c : Core) (p : Pred) (rd : Fin 16) (z : BitVec 7) (num : BitVec 12) (s : State) : Host.Outcome State Fault Refusal := run (accMfs c p rd z num) s
def execMts (c : Core) (p : Pred) (rs : Fin 16) (z : BitVec 7) (num : BitVec 12) (s : State) : Host.Outcome State Fault Refusal := run (accMts c p rs z num) s
def execIllegalInstruction (c : Core) (w : Word) (s : State) : Host.Outcome State Fault Refusal := run (issueWord c w) s

end Sys2Proof.Machine
end

