-- ==== Sys2Proof/Machine/Dispatch.lean ====
section
/-! DEFINITION. The dispatch: one arm per command, each one direct call of its meaning. -/

namespace Sys2Proof.Machine

/-- The effect of a command on everything but the queue. -/
def exec (i : Instr) (s : State) : Host.Outcome State Fault Refusal :=
  match i with
  | .periodBoundary => Sys2Proof.Machine.execPeriodBoundary s
  | .engStart => Sys2Proof.Machine.execEngStart s
  | .outPhase => Sys2Proof.Machine.execOutPhase s
  | .commandFrameLaunch => Sys2Proof.Machine.execCommandFrameLaunch s
  | .memoryAccess x0 x1 x2 x3 => Sys2Proof.Machine.execMemoryAccess x0 x1 x2 x3 s
  | .registerWrite x0 x1 x2 => Sys2Proof.Machine.execRegisterWrite x0 x1 x2 s
  | .lowWordRead x0 x1 => Sys2Proof.Machine.execLowWordRead x0 x1 s
  | .rcRead x0 x1 => Sys2Proof.Machine.execRcRead x0 x1 s
  | .scrubRead x0 => Sys2Proof.Machine.execScrubRead x0 s
  | .mainSuppliesGood => Sys2Proof.Machine.execMainSuppliesGood s
  | .heartNoteEntry => Sys2Proof.Machine.execHeartNoteEntry s
  | .mainSupplyLoss => Sys2Proof.Machine.execMainSupplyLoss s
  | .sysPwrCtlWrite x0 x1 => Sys2Proof.Machine.execSysPwrCtlWrite x0 x1 s
  | .domainSwitchOnDone => Sys2Proof.Machine.execDomainSwitchOnDone s
  | .domainSwitchOffDone => Sys2Proof.Machine.execDomainSwitchOffDone s
  | .pgTimeout x0 => Sys2Proof.Machine.execPgTimeout x0 s
  | .pgFall x0 => Sys2Proof.Machine.execPgFall x0 s
  | .supplyWindowExit x0 x1 => Sys2Proof.Machine.execSupplyWindowExit x0 x1 s
  | .goBase x0 x1 => Sys2Proof.Machine.execGoBase x0 x1 s
  | .metWaive x0 x1 => Sys2Proof.Machine.execMetWaive x0 x1 s
  | .resetNAssert => Sys2Proof.Machine.execResetNAssert s
  | .resetNRelease => Sys2Proof.Machine.execResetNRelease s
  | .softwareReset x0 x1 => Sys2Proof.Machine.execSoftwareReset x0 x1 s
  | .resetStuck => Sys2Proof.Machine.execResetStuck s
  | .amberSourceSwitch x0 => Sys2Proof.Machine.execAmberSourceSwitch x0 s
  | .vbatBrownOut => Sys2Proof.Machine.execVbatBrownOut s
  | .amberPowerOn x0 => Sys2Proof.Machine.execAmberPowerOn x0 s
  | .x32Fail => Sys2Proof.Machine.execX32Fail s
  | .x32Recovered => Sys2Proof.Machine.execX32Recovered s
  | .ambWriteApply => Sys2Proof.Machine.execAmbWriteApply s
  | .batMeasure x0 => Sys2Proof.Machine.execBatMeasure x0 s
  | .blockReceived x0 x1 x2 x3 => Sys2Proof.Machine.execBlockReceived x0 x1 x2 x3 s
  | .blockLock x0 => Sys2Proof.Machine.execBlockLock x0 s
  | .lossOfLock x0 => Sys2Proof.Machine.execLossOfLock x0 s
  | .slipStep x0 x1 x2 => Sys2Proof.Machine.execSlipStep x0 x1 x2 s
  | .signalLoss x0 => Sys2Proof.Machine.execSignalLoss x0 s
  | .ringCtlWrite x0 x1 x2 => Sys2Proof.Machine.execRingCtlWrite x0 x1 x2 s
  | .trainBlockReceived x0 x1 => Sys2Proof.Machine.execTrainBlockReceived x0 x1 s
  | .trainStart x0 x1 x2 => Sys2Proof.Machine.execTrainStart x0 x1 x2 s
  | .quickEyeDone x0 x1 x2 => Sys2Proof.Machine.execQuickEyeDone x0 x1 x2 s
  | .trainTimeout x0 x1 => Sys2Proof.Machine.execTrainTimeout x0 x1 s
  | .ringTapsWrite x0 x1 x2 => Sys2Proof.Machine.execRingTapsWrite x0 x1 x2 s
  | .eyeScanDone x0 x1 x2 => Sys2Proof.Machine.execEyeScanDone x0 x1 x2 s
  | .berWindowEnd x0 => Sys2Proof.Machine.execBerWindowEnd x0 s
  | .linkRunStart x0 => Sys2Proof.Machine.execLinkRunStart x0 s
  | .timeBlockReceived x0 x1 x2 x3 => Sys2Proof.Machine.execTimeBlockReceived x0 x1 x2 x3 s
  | .probeReplyReceived x0 x1 x2 => Sys2Proof.Machine.execProbeReplyReceived x0 x1 x2 s
  | .collectFrameReceived x0 x1 => Sys2Proof.Machine.execCollectFrameReceived x0 x1 s
  | .repollFrameReceived x0 x1 => Sys2Proof.Machine.execRepollFrameReceived x0 x1 s
  | .missingDecision x0 x1 => Sys2Proof.Machine.execMissingDecision x0 x1 s
  | .serviceFrameReceived x0 x1 => Sys2Proof.Machine.execServiceFrameReceived x0 x1 s
  | .serviceLaunch x0 x1 => Sys2Proof.Machine.execServiceLaunch x0 x1 s
  | .ringCalibration x0 => Sys2Proof.Machine.execRingCalibration x0 s
  | .calStart x0 x1 x2 => Sys2Proof.Machine.execCalStart x0 x1 x2 s
  | .discoverLaunch x0 => Sys2Proof.Machine.execDiscoverLaunch x0 s
  | .discoverResult x0 x1 => Sys2Proof.Machine.execDiscoverResult x0 x1 s
  | .ringTripWrite x0 x1 x2 => Sys2Proof.Machine.execRingTripWrite x0 x1 x2 s
  | .ringLinkCtlWrite x0 x1 x2 => Sys2Proof.Machine.execRingLinkCtlWrite x0 x1 x2 s
  | .cellReq x0 x1 x2 => Sys2Proof.Machine.execCellReq x0 x1 x2 s
  | .cellMapWrite x0 x1 x2 => Sys2Proof.Machine.execCellMapWrite x0 x1 x2 s
  | .atmStart x0 x1 => Sys2Proof.Machine.execAtmStart x0 x1 s
  | .atmStop x0 x1 => Sys2Proof.Machine.execAtmStop x0 x1 s
  | .atmClCtlWrite x0 x1 x2 x3 => Sys2Proof.Machine.execAtmClCtlWrite x0 x1 x2 x3 s
  | .carrierReload x0 x1 => Sys2Proof.Machine.execCarrierReload x0 x1 s
  | .syncOutPulse => Sys2Proof.Machine.execSyncOutPulse s
  | .syncInEdge x0 => Sys2Proof.Machine.execSyncInEdge x0 s
  | .syncLost => Sys2Proof.Machine.execSyncLost s
  | .scheduledEdge x0 => Sys2Proof.Machine.execScheduledEdge x0 s
  | .deadTimeExpiry x0 => Sys2Proof.Machine.execDeadTimeExpiry x0 s
  | .cutPeriodEnd x0 => Sys2Proof.Machine.execCutPeriodEnd x0 s
  | .rearm x0 x1 => Sys2Proof.Machine.execRearm x0 x1 s
  | .gateEnWrite x0 x1 => Sys2Proof.Machine.execGateEnWrite x0 x1 s
  | .gateModeWrite x0 x1 x2 => Sys2Proof.Machine.execGateModeWrite x0 x1 x2 s
  | .gateCal => Sys2Proof.Machine.execGateCal s
  | .halt x0 x1 x2 => Sys2Proof.Machine.execHalt x0 x1 x2 s
  | .add x0 x1 x2 => Sys2Proof.Machine.execAdd x0 x1 x2 s
  | .sub x0 x1 x2 => Sys2Proof.Machine.execSub x0 x1 x2 s
  | .and x0 x1 x2 => Sys2Proof.Machine.execAnd x0 x1 x2 s
  | .or x0 x1 x2 => Sys2Proof.Machine.execOr x0 x1 x2 s
  | .xor x0 x1 x2 => Sys2Proof.Machine.execXor x0 x1 x2 s
  | .shl x0 x1 x2 => Sys2Proof.Machine.execShl x0 x1 x2 s
  | .shr x0 x1 x2 => Sys2Proof.Machine.execShr x0 x1 x2 s
  | .sar x0 x1 x2 => Sys2Proof.Machine.execSar x0 x1 x2 s
  | .min x0 x1 x2 => Sys2Proof.Machine.execMin x0 x1 x2 s
  | .max x0 x1 x2 => Sys2Proof.Machine.execMax x0 x1 x2 s
  | .abs x0 x1 x2 => Sys2Proof.Machine.execAbs x0 x1 x2 s
  | .neg x0 x1 x2 => Sys2Proof.Machine.execNeg x0 x1 x2 s
  | .sat x0 x1 x2 => Sys2Proof.Machine.execSat x0 x1 x2 s
  | .cmpeq x0 x1 x2 => Sys2Proof.Machine.execCmpeq x0 x1 x2 s
  | .cmplt x0 x1 x2 => Sys2Proof.Machine.execCmplt x0 x1 x2 s
  | .cmple x0 x1 x2 => Sys2Proof.Machine.execCmple x0 x1 x2 s
  | .mov x0 x1 x2 => Sys2Proof.Machine.execMov x0 x1 x2 s
  | .movi x0 x1 x2 x3 => Sys2Proof.Machine.execMovi x0 x1 x2 x3 s
  | .movh x0 x1 x2 x3 => Sys2Proof.Machine.execMovh x0 x1 x2 x3 s
  | .mul x0 x1 x2 => Sys2Proof.Machine.execMul x0 x1 x2 s
  | .mulq x0 x1 x2 => Sys2Proof.Machine.execMulq x0 x1 x2 s
  | .mac x0 x1 x2 => Sys2Proof.Machine.execMac x0 x1 x2 s
  | .msu x0 x1 x2 => Sys2Proof.Machine.execMsu x0 x1 x2 s
  | .ld x0 x1 x2 => Sys2Proof.Machine.execLd x0 x1 x2 s
  | .st x0 x1 x2 => Sys2Proof.Machine.execSt x0 x1 x2 s
  | .ldh x0 x1 x2 => Sys2Proof.Machine.execLdh x0 x1 x2 s
  | .sth x0 x1 x2 => Sys2Proof.Machine.execSth x0 x1 x2 s
  | .ldx x0 x1 x2 => Sys2Proof.Machine.execLdx x0 x1 x2 s
  | .stx x0 x1 x2 => Sys2Proof.Machine.execStx x0 x1 x2 s
  | .smp x0 x1 x2 => Sys2Proof.Machine.execSmp x0 x1 x2 s
  | .lutg x0 x1 x2 => Sys2Proof.Machine.execLutg x0 x1 x2 s
  | .biq x0 x1 x2 => Sys2Proof.Machine.execBiq x0 x1 x2 s
  | .ramp x0 x1 x2 => Sys2Proof.Machine.execRamp x0 x1 x2 s
  | .sorts x0 x1 x2 => Sys2Proof.Machine.execSorts x0 x1 x2 s
  | .sortg x0 x1 x2 => Sys2Proof.Machine.execSortg x0 x1 x2 s
  | .ref x0 x1 x2 => Sys2Proof.Machine.execRef x0 x1 x2 s
  | .edge x0 x1 x2 => Sys2Proof.Machine.execEdge x0 x1 x2 s
  | .trc x0 x1 x2 => Sys2Proof.Machine.execTrc x0 x1 x2 s
  | .xput x0 x1 x2 => Sys2Proof.Machine.execXput x0 x1 x2 s
  | .xget x0 x1 x2 => Sys2Proof.Machine.execXget x0 x1 x2 s
  | .blend x0 x1 x2 => Sys2Proof.Machine.execBlend x0 x1 x2 s
  | .b x0 x1 x2 => Sys2Proof.Machine.execB x0 x1 x2 s
  | .bl x0 x1 x2 => Sys2Proof.Machine.execBl x0 x1 x2 s
  | .bx x0 x1 x2 x3 => Sys2Proof.Machine.execBx x0 x1 x2 x3 s
  | .bc x0 x1 x2 x3 x4 => Sys2Proof.Machine.execBc x0 x1 x2 x3 x4 s
  | .eret x0 x1 x2 => Sys2Proof.Machine.execEret x0 x1 x2 s
  | .sysc x0 x1 x2 => Sys2Proof.Machine.execSysc x0 x1 x2 s
  | .loop x0 x1 x2 => Sys2Proof.Machine.execLoop x0 x1 x2 s
  | .mfs x0 x1 x2 x3 x4 => Sys2Proof.Machine.execMfs x0 x1 x2 x3 x4 s
  | .mts x0 x1 x2 x3 x4 => Sys2Proof.Machine.execMts x0 x1 x2 x3 x4 s
  | .illegalInstruction x0 x1 => Sys2Proof.Machine.execIllegalInstruction x0 x1 s
  | .sortRankingDone x0 => Sys2Proof.Machine.execSortRankingDone x0 s
  | .aectlEnWrite x0 x1 x2 => Sys2Proof.Machine.execAectlEnWrite x0 x1 x2 s
  | .swapArm x0 x1 x2 => Sys2Proof.Machine.execSwapArm x0 x1 x2 s
  | .swapCancel x0 x1 x2 => Sys2Proof.Machine.execSwapCancel x0 x1 x2 s
  | .tickArm x0 x1 x2 => Sys2Proof.Machine.execTickArm x0 x1 x2 s
  | .lutMapWrite x0 x1 x2 => Sys2Proof.Machine.execLutMapWrite x0 x1 x2 s
  | .biqLoad x0 x1 x2 => Sys2Proof.Machine.execBiqLoad x0 x1 x2 s
  | .biqZclr x0 x1 x2 => Sys2Proof.Machine.execBiqZclr x0 x1 x2 s
  | .blendArm x0 x1 x2 x3 => Sys2Proof.Machine.execBlendArm x0 x1 x2 x3 s
  | .blendCancel x0 x1 x2 x3 => Sys2Proof.Machine.execBlendCancel x0 x1 x2 x3 s
  | .sortWindowWrite x0 x1 x2 x3 x4 => Sys2Proof.Machine.execSortWindowWrite x0 x1 x2 x3 x4 s
  | .silCtlWrite x0 x1 x2 => Sys2Proof.Machine.execSilCtlWrite x0 x1 x2 s
  | .silArm x0 x1 x2 => Sys2Proof.Machine.execSilArm x0 x1 x2 s
  | .silForce x0 x1 x2 => Sys2Proof.Machine.execSilForce x0 x1 x2 s
  | .silStop x0 x1 x2 => Sys2Proof.Machine.execSilStop x0 x1 x2 s
  | .conversionComplete x0 x1 x2 => Sys2Proof.Machine.execConversionComplete x0 x1 x2 s
  | .plausStale => Sys2Proof.Machine.execPlausStale s
  | .sequenceRestart x0 => Sys2Proof.Machine.execSequenceRestart x0 s
  | .commit x0 x1 x2 => Sys2Proof.Machine.execCommit x0 x1 x2 s
  | .adcCtlWrite x0 x1 x2 => Sys2Proof.Machine.execAdcCtlWrite x0 x1 x2 s
  | .adcMetMaskWrite x0 x1 x2 => Sys2Proof.Machine.execAdcMetMaskWrite x0 x1 x2 s
  | .adcAccLatch x0 x1 x2 => Sys2Proof.Machine.execAdcAccLatch x0 x1 x2 s
  | .adcInj x0 x1 x2 => Sys2Proof.Machine.execAdcInj x0 x1 x2 s
  | .injTrigger x0 x1 => Sys2Proof.Machine.execInjTrigger x0 x1 s
  | .bgCorrection x0 x1 x2 x3 x4 x5 => Sys2Proof.Machine.execBgCorrection x0 x1 x2 x3 x4 x5 s
  | .adcCalStart x0 x1 x2 => Sys2Proof.Machine.execAdcCalStart x0 x1 x2 s
  | .adcCalDone x0 x1 x2 x3 => Sys2Proof.Machine.execAdcCalDone x0 x1 x2 x3 s
  | .comparatorAssert x0 x1 => Sys2Proof.Machine.execComparatorAssert x0 x1 s
  | .comparatorRelease x0 x1 => Sys2Proof.Machine.execComparatorRelease x0 x1 s
  | .cmpThWrite x0 x1 x2 => Sys2Proof.Machine.execCmpThWrite x0 x1 x2 s
  | .cmpThMainApply x0 => Sys2Proof.Machine.execCmpThMainApply x0 s
  | .cmpMaskEnd x0 x1 => Sys2Proof.Machine.execCmpMaskEnd x0 x1 s
  | .cmpDisagree x0 => Sys2Proof.Machine.execCmpDisagree x0 s
  | .cmpTest x0 x1 => Sys2Proof.Machine.execCmpTest x0 x1 s
  | .cmpSelftestDone x0 x1 x2 => Sys2Proof.Machine.execCmpSelftestDone x0 x1 x2 s
  | .tmonSample x0 x1 => Sys2Proof.Machine.execTmonSample x0 x1 s
  | .tmonRateWindow => Sys2Proof.Machine.execTmonRateWindow s
  | .tmonLimWrite x0 x1 => Sys2Proof.Machine.execTmonLimWrite x0 x1 s
  | .metBinEnd => Sys2Proof.Machine.execMetBinEnd s
  | .lineCycleEnd x0 => Sys2Proof.Machine.execLineCycleEnd x0 s
  | .freqNomTimeout => Sys2Proof.Machine.execFreqNomTimeout s
  | .mirrorWrite x0 => Sys2Proof.Machine.execMirrorWrite x0 s
  | .metRecordWritten => Sys2Proof.Machine.execMetRecordWritten s
  | .forcedLatch x0 x1 => Sys2Proof.Machine.execForcedLatch x0 x1 s
  | .latchArm x0 x1 => Sys2Proof.Machine.execLatchArm x0 x1 s
  | .latchDisarm x0 x1 => Sys2Proof.Machine.execLatchDisarm x0 x1 s
  | .irst x0 x1 => Sys2Proof.Machine.execIrst x0 x1 s
  | .metIRead x0 x1 => Sys2Proof.Machine.execMetIRead x0 x1 s
  | .emergencyLatch x0 => Sys2Proof.Machine.execEmergencyLatch x0 s
  | .pfwNReturn => Sys2Proof.Machine.execPfwNReturn s
  | .meteringStart => Sys2Proof.Machine.execMeteringStart s
  | .flaconVerify => Sys2Proof.Machine.execFlaconVerify s
  | .pcinChange x0 x1 => Sys2Proof.Machine.execPcinChange x0 x1 s
  | .pcinBandFault x0 x1 => Sys2Proof.Machine.execPcinBandFault x0 x1 s
  | .pcntPreset x0 x1 x2 => Sys2Proof.Machine.execPcntPreset x0 x1 x2 s
  | .poutPulse x0 => Sys2Proof.Machine.execPoutPulse x0 s
  | .bwWake x0 => Sys2Proof.Machine.execBwWake x0 s
  | .bwSecond x0 => Sys2Proof.Machine.execBwSecond x0 s
  | .bwEnd => Sys2Proof.Machine.execBwEnd s
  | .metUnlock x0 x1 => Sys2Proof.Machine.execMetUnlock x0 x1 s
  | .metConfigWrite x0 x1 x2 => Sys2Proof.Machine.execMetConfigWrite x0 x1 x2 s
  | .flcFormat x0 x1 => Sys2Proof.Machine.execFlcFormat x0 x1 s
  | .faultRaise x0 => Sys2Proof.Machine.execFaultRaise x0 s
  | .faultEvent => Sys2Proof.Machine.execFaultEvent s
  | .fcPendAck x0 x1 x2 => Sys2Proof.Machine.execFcPendAck x0 x1 x2 s
  | .release x0 x1 => Sys2Proof.Machine.execRelease x0 x1 s
  | .errnRelease x0 x1 => Sys2Proof.Machine.execErrnRelease x0 x1 s
  | .errnWidthEnd => Sys2Proof.Machine.execErrnWidthEnd s
  | .fcLock x0 x1 => Sys2Proof.Machine.execFcLock x0 x1 s
  | .gfltNAssert x0 x1 x2 => Sys2Proof.Machine.execGfltNAssert x0 x1 x2 s
  | .blankEnd x0 => Sys2Proof.Machine.execBlankEnd x0 s
  | .grdyLow x0 x1 => Sys2Proof.Machine.execGrdyLow x0 x1 s
  | .predriverUvlo x0 => Sys2Proof.Machine.execPredriverUvlo x0 s
  | .safeChannelDisagree x0 => Sys2Proof.Machine.execSafeChannelDisagree x0 s
  | .srbMismatch x0 x1 => Sys2Proof.Machine.execSrbMismatch x0 x1 s
  | .offPulse x0 x1 x2 x3 x4 => Sys2Proof.Machine.execOffPulse x0 x1 x2 x3 x4 s
  | .sinDemand x0 => Sys2Proof.Machine.execSinDemand x0 s
  | .sinDiscrepancy x0 => Sys2Proof.Machine.execSinDiscrepancy x0 s
  | .testPulse x0 x1 => Sys2Proof.Machine.execTestPulse x0 x1 s
  | .testPulseStarved => Sys2Proof.Machine.execTestPulseStarved s
  | .safeRstNPulse x0 => Sys2Proof.Machine.execSafeRstNPulse x0 s
  | .safeRstNLong => Sys2Proof.Machine.execSafeRstNLong s
  | .key1 x0 x1 => Sys2Proof.Machine.execKey1 x0 x1 s
  | .key2 x0 x1 => Sys2Proof.Machine.execKey2 x0 x1 s
  | .armedTimeout => Sys2Proof.Machine.execArmedTimeout s
  | .safeOutReqWrite x0 x1 => Sys2Proof.Machine.execSafeOutReqWrite x0 x1 s
  | .twinCtlWrite x0 x1 => Sys2Proof.Machine.execTwinCtlWrite x0 x1 s
  | .twinCommandReceived x0 => Sys2Proof.Machine.execTwinCommandReceived x0 s
  | .twinCopyReceived x0 => Sys2Proof.Machine.execTwinCopyReceived x0 s
  | .twinSnapReceived x0 => Sys2Proof.Machine.execTwinSnapReceived x0 s
  | .twinStatusReceived x0 => Sys2Proof.Machine.execTwinStatusReceived x0 s
  | .twinMissReceived x0 => Sys2Proof.Machine.execTwinMissReceived x0 s
  | .twinServiceReceived x0 => Sys2Proof.Machine.execTwinServiceReceived x0 s
  | .liveRunStart => Sys2Proof.Machine.execLiveRunStart s
  | .contextCaptureDone x0 => Sys2Proof.Machine.execContextCaptureDone x0 s
  | .takeover => Sys2Proof.Machine.execTakeover s
  | .claim => Sys2Proof.Machine.execClaim s
  | .claimConfirm x0 => Sys2Proof.Machine.execClaimConfirm x0 s
  | .yield => Sys2Proof.Machine.execYield s
  | .swap x0 x1 => Sys2Proof.Machine.execSwap x0 x1 s
  | .cancel x0 x1 => Sys2Proof.Machine.execCancel x0 x1 s
  | .returnHoldExpiry => Sys2Proof.Machine.execReturnHoldExpiry s
  | .twinStatusTimeout => Sys2Proof.Machine.execTwinStatusTimeout s
  | .twinCtxWrite x0 x1 x2 => Sys2Proof.Machine.execTwinCtxWrite x0 x1 x2 s
  | .refLost => Sys2Proof.Machine.execRefLost s
  | .refBack => Sys2Proof.Machine.execRefBack s
  | .synLock x0 => Sys2Proof.Machine.execSynLock x0 s
  | .synUnlock x0 => Sys2Proof.Machine.execSynUnlock x0 s
  | .relock x0 => Sys2Proof.Machine.execRelock x0 s
  | .relockDone => Sys2Proof.Machine.execRelockDone s
  | .clkRelockGo x0 x1 => Sys2Proof.Machine.execClkRelockGo x0 x1 s
  | .clkTrimWrite x0 x1 => Sys2Proof.Machine.execClkTrimWrite x0 x1 s
  | .lockfClear => Sys2Proof.Machine.execLockfClear s
  | .step x0 x1 => Sys2Proof.Machine.execStep x0 x1 s
  | .set x0 x1 => Sys2Proof.Machine.execSet x0 x1 s
  | .servoSample x0 x1 x2 => Sys2Proof.Machine.execServoSample x0 x1 x2 s
  | .servoHoldover x0 => Sys2Proof.Machine.execServoHoldover x0 s
  | .timeSelWrite x0 x1 => Sys2Proof.Machine.execTimeSelWrite x0 x1 s
  | .timePhasesWrite x0 x1 => Sys2Proof.Machine.execTimePhasesWrite x0 x1 s
  | .timePeriodWrite x0 x1 x2 => Sys2Proof.Machine.execTimePeriodWrite x0 x1 x2 s
  | .ppsOut => Sys2Proof.Machine.execPpsOut s
  | .ppsInEdge x0 => Sys2Proof.Machine.execPpsInEdge x0 s
  | .ppsLost => Sys2Proof.Machine.execPpsLost s
  | .ethLinkChange x0 x1 x2 x3 => Sys2Proof.Machine.execEthLinkChange x0 x1 x2 x3 s
  | .ethFrameReceived x0 x1 x2 x3 => Sys2Proof.Machine.execEthFrameReceived x0 x1 x2 x3 s
  | .ethFrameTransmit x0 x1 => Sys2Proof.Machine.execEthFrameTransmit x0 x1 s
  | .addressAgeOut x0 x1 => Sys2Proof.Machine.execAddressAgeOut x0 x1 s
  | .mdioGo x0 x1 => Sys2Proof.Machine.execMdioGo x0 x1 s
  | .mdioDone x0 => Sys2Proof.Machine.execMdioDone x0 s
  | .ethTxtsRead x0 x1 => Sys2Proof.Machine.execEthTxtsRead x0 x1 s
  | .qmQOpen x0 x1 x2 => Sys2Proof.Machine.execQmQOpen x0 x1 x2 s
  | .qmCommit x0 x1 x2 => Sys2Proof.Machine.execQmCommit x0 x1 x2 s
  | .qmAbort x0 x1 x2 => Sys2Proof.Machine.execQmAbort x0 x1 x2 s
  | .qmDone x0 x1 x2 => Sys2Proof.Machine.execQmDone x0 x1 x2 s
  | .qmDrop x0 x1 x2 => Sys2Proof.Machine.execQmDrop x0 x1 x2 s
  | .crcStart x0 x1 x2 => Sys2Proof.Machine.execCrcStart x0 x1 x2 s
  | .crcDin x0 x1 x2 x3 => Sys2Proof.Machine.execCrcDin x0 x1 x2 x3 s
  | .crcValWrite x0 x1 x2 => Sys2Proof.Machine.execCrcValWrite x0 x1 x2 s
  | .crcCfgWrite x0 x1 x2 => Sys2Proof.Machine.execCrcCfgWrite x0 x1 x2 s
  | .lockstepMismatch => Sys2Proof.Machine.execLockstepMismatch s
  | .interruptTaken => Sys2Proof.Machine.execInterruptTaken s
  | .timerExpiry x0 => Sys2Proof.Machine.execTimerExpiry x0 s
  | .wdKick x0 => Sys2Proof.Machine.execWdKick x0 s
  | .wdExpiry => Sys2Proof.Machine.execWdExpiry s
  | .wdWarn => Sys2Proof.Machine.execWdWarn s
  | .bootImageStart x0 x1 x2 x3 => Sys2Proof.Machine.execBootImageStart x0 x1 x2 x3 s
  | .recoveryImageReceived x0 => Sys2Proof.Machine.execRecoveryImageReceived x0 s
  | .confirmed x0 x1 => Sys2Proof.Machine.execConfirmed x0 x1 s
  | .raiseSvnMin x0 x1 => Sys2Proof.Machine.execRaiseSvnMin x0 x1 s
  | .revokeKey x0 x1 => Sys2Proof.Machine.execRevokeKey x0 x1 s
  | .fuseProgramDone => Sys2Proof.Machine.execFuseProgramDone s
  | .grant x0 x1 => Sys2Proof.Machine.execGrant x0 x1 s
  | .revoke x0 x1 => Sys2Proof.Machine.execRevoke x0 x1 s
  | .tapInstructionLoad x0 => Sys2Proof.Machine.execTapInstructionLoad x0 s
  | .debugReset => Sys2Proof.Machine.execDebugReset s
  | .uartByteReceived x0 x1 => Sys2Proof.Machine.execUartByteReceived x0 x1 s
  | .uartDataWrite x0 x1 => Sys2Proof.Machine.execUartDataWrite x0 x1 s
  | .uartDataRead x0 => Sys2Proof.Machine.execUartDataRead x0 s
  | .gpioEdge x0 x1 => Sys2Proof.Machine.execGpioEdge x0 x1 s
  | .gpioSet x0 x1 => Sys2Proof.Machine.execGpioSet x0 x1 s
  | .gpioClr x0 x1 => Sys2Proof.Machine.execGpioClr x0 x1 s
  | .pmicCtlWrite x0 x1 => Sys2Proof.Machine.execPmicCtlWrite x0 x1 s
  | .pmicRailStep => Sys2Proof.Machine.execPmicRailStep s
  | .sendByte x0 x1 => Sys2Proof.Machine.execSendByte x0 x1 s
  | .writeByte x0 x1 => Sys2Proof.Machine.execWriteByte x0 x1 s
  | .writeWord x0 x1 => Sys2Proof.Machine.execWriteWord x0 x1 s
  | .readByte x0 x1 => Sys2Proof.Machine.execReadByte x0 x1 s
  | .readWord x0 x1 => Sys2Proof.Machine.execReadWord x0 x1 s
  | .blockWrite x0 x1 => Sys2Proof.Machine.execBlockWrite x0 x1 s
  | .blockRead x0 x1 => Sys2Proof.Machine.execBlockRead x0 x1 s
  | .pmbDone x0 => Sys2Proof.Machine.execPmbDone x0 s
  | .qspiCmd x0 x1 => Sys2Proof.Machine.execQspiCmd x0 x1 s
  | .qspiDone x0 => Sys2Proof.Machine.execQspiDone x0 s
  | .holdoverTick => Sys2Proof.Machine.execHoldoverTick s
  | .bandEdge => Sys2Proof.Machine.execBandEdge s
  | .outputMonitorInterlock x0 => Sys2Proof.Machine.execOutputMonitorInterlock x0 s
  | .sinDemandRelease x0 => Sys2Proof.Machine.execSinDemandRelease x0 s
  | .pcinCountResume x0 x1 => Sys2Proof.Machine.execPcinCountResume x0 x1 s
  | .uartByteSent => Sys2Proof.Machine.execUartByteSent s
  | .coreHalt => Sys2Proof.Machine.execCoreHalt s

end Sys2Proof.Machine
end

