-- ==== Sys2Proof/Machine/Idle.lean ====
section
/-! DEFINITION. What passes where no command waits: one tick of 80 ns (DESIGN CHOICE, unsafe, notes/assumptions/2). -/

namespace Sys2Proof.Machine

/-- Device time moves on by 80 ns of the time base at the rate in force, never past the next instant of the period sequencer, which is
a command's (R443). -/
def Dev.idleTime (d : Dev) : Dev :=
  if !d.tb.counting then d
  else
    let dt := d.tb.dt + (80 * 2 ^ 48 * (2 ^ 40 + (d.rd Reg.TIME_RATE).toInt) / 2 ^ 40).toNat
    let cap := d.nextSeq * 2 ^ 48
    d.putTb { d.tb with dt := if cap < dt && d.tb.dt ≤ cap then cap else dt }

/-- The supervisor's clocks, its timers each microsecond of the time-base clock and its watchdog each millisecond (R438, R490, R491). -/
def Dev.idleSup (d : Dev) : Dev :=
  if !d.domainOn 2 then d
  else
    let u := d.tb.cutMs
    let d := (d.putSup { d.sup with cyc := d.sup.cyc + 48 }).putTb { d.tb with cutMs := (u + 2) % 25000 }
    let d := if d.bit Reg.CLK_STAT 1 && u / 25 != (u + 2) / 25 then (d.timerUs 0).timerUs 1 else d
    if 25000 ≤ u + 2 then d.recoveryMs.wdMs else d

/-- The idle tick; a device whose SAFE domain is off does nothing. -/
def idleTick (d : Dev) : Dev :=
  if !d.pwr.safeOn then d
  else
    let d := d.idleTime.idleSup
    if d.tsrv.ppsOut && d.tsrv.ppsFall ≤ d.now then (d.putTsrv { d.tsrv with ppsOut := false }) else d

end Sys2Proof.Machine
end

