-- ==== Sys2Proof/Safety.lean ====
section
/-! DEFINITION. What counts as a safe state, in the terms the statements use. -/

namespace Sys2Proof.Machine

/-- A master's access reaches the register at an address: a debugger has access, and the register's domain is on (R47, R501). -/
def Dev.BusOpen (m : Master) (a : Nat) (d : Dev) : Prop :=
  (m = .debug → d.debugOk = true) ∧ d.domainOn (regDomain a) = true

/-- An instant is due: device time counts, and the period sequencer has no instant before it (R443). -/
def Dev.Due (t : Nat) (d : Dev) : Prop := d.tb.counting = true ∧ t ≤ d.nextSeq

/-- An instant is due, or device time stands still. -/
def Dev.DueOrStill (t : Nat) (d : Dev) : Prop := d.tb.counting = true → t ≤ d.nextSeq

/-- RING, NET or ANALOG is on and its clocks run (R60, R438). -/
def Dev.LanesRun (d : Dev) : Prop := d.domainOn 4 = true ∧ d.bit Reg.CLK_STAT 1 = true
def Dev.NetRuns (d : Dev) : Prop := d.domainOn 5 = true ∧ d.bit Reg.CLK_STAT 1 = true
def Dev.ConvRuns (d : Dev) : Prop := d.domainOn 6 = true ∧ d.bit Reg.CLK_STAT 2 = true

/-- A whole frame on a lane is taken as it came: the lanes run, and no frame in progress was cut or broken (R104, R132). -/
def Dev.LaneIn (n : Nat) (d : Dev) : Prop := d.LanesRun ∧ (d.lane n).frm < 2

/-- No word of a packet is upset (R54). -/
def Dev.PktClean (slots : List Nat) (len : Nat) (d : Dev) : Prop := ∀ i < len + 16, SMap.getD d.ecc 0 (pktAddr slots i) = 0

/-- Every register but those listed reads as before, and memory is unchanged. -/
def Dev.KeptBut (l : List Nat) (d e : Dev) : Prop := (∀ a, a ∉ l → e.rd a = d.rd a) ∧ e.mem = d.mem

/-- The pins are those that follow from the device. -/
def State.PinsFollow (s : State) : Prop := s.pins = pinsOf s.dev

/-- No local leg has both its gate channels driven high (R213). -/
def State.NoShootThrough (s : State) : Prop :=
  ∀ k < 8, ¬ (s.pins.gout.getLsbD (2 * k) = true ∧ s.pins.gout.getLsbD (2 * k + 1) = true)

/-- The TAP does not drive the pins: it does not hold the debug reset (R504). -/
def State.TapOff (s : State) : Prop := s.dev.pwr.dbgHeld = false

/-- Memory is in its canonical form. -/
def State.MemCanon (s : State) : Prop := Memory.wf s.dev.mem = true

/-- The register table is in its canonical form: no entry repeats a register's reset value. -/
def State.RegCanon (s : State) : Prop := SMap.wf regReset s.dev.regs = true

/-! ### Accord instructions -/

/-- The device as the instruction that a core issues next sees it: in an engine what is due in the cycle has landed (R255), in the
supervisor a HALT is over (R244); its word has been fetched, which is a read of it (R54). -/
def Dev.seenBy (c : Core) (d : Dev) : Dev :=
  match c with
  | .eng n => d.engSee n
  | .supv => d.supWake.supFetch.2

/-- The shared registers of a core. -/
def Dev.regsOf (c : Core) (d : Dev) : Regs :=
  match c with
  | .eng n => (d.eng n).regs
  | .supv => d.sup.regs

/-- The PC of a core. -/
def Dev.pcOf (c : Core) (d : Dev) : Nat :=
  match c with
  | .eng n => (d.eng n).pc
  | .supv => d.sup.pc

/-- The device as the supervisor leaves it after an instruction without a result: the loops and the PC moved on, the cycle counted. -/
def Dev.supMoved (d : Dev) : Dev :=
  { d with sup := { d.sup with regs := (d.sup.regs.advance d.sup.pc ((d.sup.pc + 4) % 2 ^ 32)).1,
                               pc := (d.sup.regs.advance d.sup.pc ((d.sup.pc + 4) % 2 ^ 32)).2, cyc := d.sup.cyc + 1 } }

/-- A core issues: an engine runs and this is not its last instruction, whatever it is (R267); the supervisor runs, no HALT holds it, and
the fetch meets no error (R260). -/
def Dev.CoreReady (c : Core) (d : Dev) : Prop :=
  match c with
  | .eng n => d.engGo n = true ∧
    (((d.seenBy c).eng n).regs.advance ((d.seenBy c).eng n).pc (((d.seenBy c).eng n).pc + 1)).2 ≤ 8191
  | .supv => d.supReady = true ∧ d.supWake.supFetch.1 = false

/-- It issues an instruction with its effect: the predicate condition holds and no suppressed body is in progress (R225, R243). -/
def Dev.Issues (c : Core) (p : Pred) (d : Dev) : Prop :=
  d.CoreReady c ∧ predHolds p ((d.seenBy c).regsOf c) = true ∧ ((d.seenBy c).regsOf c).suppressed = false

/-- From `d`, as the instruction saw it, to `e`: the core completed an instruction with these results. In an engine they are on their
way with their latencies (R255), in the supervisor they have landed, kept from use until their latency is over, after the instruction's
own stalls (R257); the loops and the PC moved on (R241), a saturation is flagged (R229), and no other core changed. -/
def Dev.Done (c : Core) (acts : List (Nat × Act)) (d e : Dev) : Prop :=
  match c with
  | .eng n =>
    let x := d.eng n
    let y := e.eng n
    (y.regs, y.pc) = x.regs.advance x.pc (x.pc + 1) ∧ y.cyc = x.cyc + 1 ∧
      y.pend = x.pend ++ ((acts.filter fun a => a.2 != .sat).map fun a => (x.cyc + a.1, a.2)) ∧
      e.bit (Reg.AECTL_EVT n) 1 = (d.bit (Reg.AECTL_EVT n) 1 || acts.any fun a => a.2 == .sat) ∧
      (∀ j, j ≠ n.val → e.eng j = d.eng j) ∧ e.sup = d.sup
  | .supv =>
    let r := (acts.foldl (fun (r : Regs) a => r.land a.2) d.sup.regs).advance d.sup.pc ((d.sup.pc + 4) % 2 ^ 32)
    e.sup = { d.sup with regs := r.1, pc := r.2, cyc := e.sup.cyc, rdy := rdyAfter (e.sup.cyc - 1) acts d.sup.rdy,
                         satf := d.sup.satf || acts.any fun a => a.2 == .sat } ∧
      d.sup.cyc < e.sup.cyc ∧ e.engs = d.engs

/-- An engine's event register, the one register that a result can touch. -/
def evtOf (c : Core) : List Nat :=
  match c with
  | .eng n => [Reg.AECTL_EVT n]
  | .supv => []

/-- Completed with these results, and nothing else changed but the registers listed. -/
def Dev.DoneBut (c : Core) (l : List Nat) (acts : List (Nat × Act)) (d e : Dev) : Prop :=
  d.Done c acts e ∧ d.KeptBut (l ++ evtOf c) e

/-- A result clamped to a signed range of `n` bits, flagged where that changed it (R229). -/
def clamped (lat rd n : Nat) (v : Int) : List (Nat × Act) :=
  if v < -2 ^ (n - 1) then [(lat, .reg rd (BitVec.ofInt 32 (-2 ^ (n - 1)))), (1, .sat)]
  else if 2 ^ (n - 1) ≤ v then [(lat, .reg rd (BitVec.ofInt 32 (2 ^ (n - 1) - 1))), (1, .sat)]
  else [(lat, .reg rd (BitVec.ofInt 32 v))]

/-- The supervisor took an exception without an address (R261): PSR, the PC to go on at and the cause are kept, the loops as well and
made inactive; system level without interrupts, at the vector of the cause. -/
def Dev.Took (cause epc line snum : Nat) (d e : Dev) : Prop :=
  e.sysr 1 = d.psr ∧ e.sysr 2 = BitVec.ofNat 32 epc ∧ e.sysr 3 = ecause cause line 0 snum ∧
    e.sup.pc = ((d.sysr 5).toNat + (if cause = 9 then 0x100 + 16 * line else 16 * cause)) % 2 ^ 32 ∧
    e.sup.sys = true ∧ e.sup.ie = false ∧ e.sup.hold = false ∧ e.sup.e0 = d.sup.regs.l0 ∧ e.sup.e1 = d.sup.regs.l1 ∧
    e.sup.regs.l0.act = false ∧ e.sup.regs.l1.act = false ∧ e.sup.regs.g = d.sup.regs.g ∧ e.sup.regs.acc = d.sup.regs.acc ∧
    e.engs = d.engs ∧ d.KeptBut [] e

/-- No word of an engine's memories is upset (R54). -/
def Dev.EngClean (n : Nat) (d : Dev) : Prop := ∀ w, engBase n ≤ w → w < engBase n + 0x40000 → SMap.getD d.ecc 0 w = 0

end Sys2Proof.Machine
end

