-- ==== Sys2Proof/Certificates/Slice0/Obligations.lean ====
section
/-! DEFINITION. The statements for the provers, one per topic of the spec. Each says what its commands do from every state; a completion
has the command's next state in its conclusion. `KeptBut` names what may change and keeps the rest. -/

open Sys2Proof Sys2Proof.Machine

/-! ### The queue, the pins, reset -/

/-- One step takes the command at the front of the queue and runs it on the state with the queue's rest. -/
def Obligations.StepRunsFrontCommand : Prop :=
  ∀ (s : State) (i : Instr) (rest : List Instr), s.pending = i :: rest → step s = exec i { s with pending := rest }

/-- No command stops the block: every command completes from every state, leaves the other waiting commands alone, and leaves the pins as
the device drives them.

The model's own choice (notes/assumptions/2): with no command waiting, 80 ns pass. A device whose SAFE domain is off keeps its whole
state; device time never moves past the next instant of the period sequencer. -/
def Obligations.EveryStepCompletes : Prop :=
  (∀ (i : Instr) (s : State), ∃ t, exec i s = .next t ∧ t.pending = s.pending ∧ t.PinsFollow) ∧
  (∀ s : State, s.pending = [] → ∃ t, step s = .next t ∧ t.pending = [] ∧ t.pins = pinsOf t.dev ∧
    (s.dev.pwr.safeOn = false → t.dev = s.dev) ∧
    (s.dev.tb.dt ≤ s.dev.nextSeq * 2 ^ 48 → t.dev.tb.dt ≤ s.dev.nextSeq * 2 ^ 48))

/-- The machine after reset: no command waits, the device stands in the supply reset, and the pins are at their reset-state levels, floating while it
is unpowered: every GOUT low, every SOUT de-energised, ERR_N driven low (R72, R78); memory and the register table are in their canonical form. -/
def Obligations.ResetState : Prop :=
  State.reset.pending = [] ∧ State.reset.pins = { gout := 0, sout := 0, errN := true, arb := false, floats := true } ∧
    State.reset.PinsFollow ∧ State.reset.MemCanon ∧ State.reset.RegCanon ∧ (∀ a, State.reset.dev.rd a = regReset a) ∧
    State.reset.dev.fc.hold = 0 ∧ State.reset.dev.safe.state = 0 ∧ State.reset.dev.fld Reg.SYS_STAGE 0 2 = 1

/-- No step, whatever its command, leaves both gate channels of a local leg driven high, unless the TAP drives the pins (R213, R504). -/
def Obligations.NoStepShootsThrough : Prop :=
  ∀ s t : State, step s = .next t → t.PinsFollow ∧ (t.TapOff → t.NoShootThrough)

/-- A tripped leg, a leg in a cut period and an interlocked leg hold both their pins low after every command, and so does every leg without
pre-driver supply or during a claim from SEEK, unless the TAP drives the pins (R213, R214, R215, R387, R407).

A safe output is energised after a command only in NORMAL, with the channels in agreement, the output enabled and requested, and no
demand on a mapped pair (R390, R394, R397). -/
def Obligations.HeldOutputsStayOff : Prop :=
  (∀ (i : Instr) (s t : State), exec i s = .next t → t.TapOff → ∀ k < 8,
    (t.dev.bit Reg.GATE_STAT k = true ∨ t.dev.bit Reg.GATE_STAT (8 + k) = true ∨ t.dev.bit Reg.GATE_STAT (16 + k) = true ∨
      t.dev.pdrvLow = true ∨ t.dev.twin.claimAt ≠ none ∨ (t.dev.gate k).en = false) →
    t.pins.gout.getLsbD (2 * k) = false ∧ t.pins.gout.getLsbD (2 * k + 1) = false) ∧
  (∀ (i : Instr) (s t : State), exec i s = .next t → t.TapOff → ∀ n < 4, t.pins.sout.getLsbD n = true →
    t.dev.safe.state = 3 ∧ t.dev.safe.chanDis = false ∧ t.dev.bit (Reg.SAFE_OUT n) 0 = true ∧ t.dev.bit Reg.SAFE_OUT_REQ n = true ∧
    ∀ p < 4, t.dev.bit (Reg.SAFE_OUT n) (4 + p) = true → t.dev.pairDemands p = false)

/-! ### The fault collector -/

/-- A raise of a disabled source, or of one already pending, makes no event; the second is counted in FC_CNT_REPEAT. Any other raise makes
the source pending and puts it into the event in formation (R374).

An acknowledgement clears a pending source; one whose condition is still active stays pending and sets CLR_REF (R377). Stated for one bit
written alone. -/
def Obligations.FaultRaiseAndAcknowledge : Prop :=
  (∀ (i : Fin 128) (s : State), s.dev.pwr.safeOn = true → ∃ t, exec (.faultRaise i) s = .next t ∧
    (s.dev.srcEnabled i = false → t.dev = s.dev) ∧
    (s.dev.srcEnabled i = true → s.dev.srcPending i = true →
      t.dev.fld Reg.FC_CNT_REPEAT 0 32 = min (2 ^ 32 - 1) (s.dev.fld Reg.FC_CNT_REPEAT 0 32 + 1) ∧ t.dev.fc = s.dev.fc ∧
      s.dev.KeptBut [Reg.FC_CNT_REPEAT] t.dev) ∧
    (s.dev.srcEnabled i = true → s.dev.srcPending i = false → t.dev.srcPending i = true ∧ t.dev.fc.forming = i.val :: s.dev.fc.forming)) ∧
  (∀ (m : Master) (w : Fin 4) (b : Fin 32) (s : State), s.dev.BusOpen m (Reg.FC_PEND w) → s.dev.srcPending (32 * w + b) = true →
    ∃ t, exec (.fcPendAck m w (1#32 <<< b.val)) s = .next t ∧
      (s.dev.srcActive (32 * w + b) = true →
        t.dev.srcPending (32 * w + b) = true ∧ t.dev.bit Reg.FC_EVT 5 = true ∧
        t.dev.fld Reg.FC_CNT_CLRREF 0 32 = min (2 ^ 32 - 1) (s.dev.fld Reg.FC_CNT_CLRREF 0 32 + 1) ∧
        s.dev.KeptBut [Reg.FC_CNT_CLRREF, Reg.FC_EVT] t.dev) ∧
      (s.dev.srcActive (32 * w + b) = false → (32 * w.val + b.val) ∉ s.dev.fc.forming → t.dev.srcPending (32 * w + b) = false))

/-- The fast path: a raise of a source 0 to 47 that is enabled, configured TRIP or HALT and not yet pending takes every local leg off at
once: each is tripped and, unless the TAP drives the pins, every GOUT is low (R215, R380).

An event of applied class TRIP or HALT: its event flag is set, the hold is taken, every local leg is tripped; HALT enters the lock-out
and clears SAFE_OUT_REQ (R376, R378, R379, R397). -/
def Obligations.FaultReactions : Prop :=
  (∀ (i : Fin 128) (s : State), s.dev.pwr.safeOn = true → i.val < 48 → s.dev.srcEnabled i = true → s.dev.srcPending i = false → 2 ≤ s.dev.srcClass i →
    ∃ t, exec (.faultRaise i) s = .next t ∧ (∀ k < 8, t.dev.bit Reg.GATE_STAT k = true ∧ (t.dev.gate k).on = .off) ∧
      (t.TapOff → t.pins.gout = 0)) ∧
  (∀ s : State, s.dev.fc.forming ≠ [] → (∃ i ∈ s.dev.fc.forming, 2 ≤ s.dev.srcClass i) →
    ∃ t, exec .faultEvent s = .next t ∧ t.dev.fc.forming = [] ∧ 2 ≤ t.dev.fc.hold ∧
      (∀ k < 8, t.dev.bit Reg.GATE_STAT k = true) ∧
      ((∃ i ∈ s.dev.fc.forming, s.dev.srcClass i = 3) →
        t.dev.fc.hold = 3 ∧ t.dev.safe.state = 0 ∧ t.dev.rd Reg.SAFE_OUT_REQ = 0 ∧ t.dev.bit Reg.FC_EVT 3 = true))

/-- A keyed RELEASE ends the TRIP or HALT hold where no source of applied class TRIP or HALT is pending or forms; else it is refused, sets
REL_REF and leaves the hold. It never ends a safety lock-out (R378).

FC_CTL.LOCK, once set, is kept by every write of FC_CTL, and WIN stores at least 1 (R373, R402). A write of FC_ERRN with REL releases ERR_N,
at once or, while the minimum width runs, at its end, which ERRN_WIDTH_END brings (R384). -/
def Obligations.ReleaseAndErrorPin : Prop :=
  (∀ (m : Master) (v : Word) (s : State), s.dev.BusOpen m Reg.FC_CMD → v.getLsbD 0 = true →
    ∃ t, exec (.release m v) s = .next t ∧ t.dev.safe = s.dev.safe ∧
      (if fieldOf v 16 16 = 0xFC5A ∧ s.dev.tripPending = false then t.dev.fc.hold = 0 ∧ t.dev.fld Reg.FC_STAT 0 2 = 0
       else t.dev.fc.hold = s.dev.fc.hold ∧ t.dev.bit Reg.FC_EVT 6 = true ∧ s.dev.KeptBut [Reg.FC_EVT] t.dev)) ∧
  ((∀ (m : Master) (v : Word) (s : State), s.dev.BusOpen m Reg.FC_CTL → ∃ t, exec (.fcLock m v) s = .next t ∧
    t.dev.bit Reg.FC_CTL 8 = (s.dev.bit Reg.FC_CTL 8 || v.getLsbD 8) ∧ t.dev.fld Reg.FC_CTL 0 5 = max 1 (fieldOf v 0 5) ∧
    s.dev.KeptBut [Reg.FC_CTL] t.dev) ∧
  (∀ (m : Master) (v : Word) (s : State), s.dev.BusOpen m Reg.FC_ERRN → s.dev.fc.forming = [] → v.getLsbD 16 = true →
    ∃ t, exec (.errnRelease m v) s = .next t ∧
      (if s.dev.fc.errnMin = true then t.dev.fc.errn = s.dev.fc.errn ∧ t.dev.fc.errnRel = true else t.dev.fc.errn = false)) ∧
  (∀ s : State, s.dev.fc.errnMin = true → ∃ t, exec .errnWidthEnd s = .next t ∧ t.dev.fc.errnMin = false ∧
    t.dev.fc.errn = (s.dev.fc.errn && !s.dev.fc.errnRel) ∧ s.dev.KeptBut [Reg.FC_STAT] t.dev))

/-! ### Local gate channels -/

/-- The output monitor's interlock: both channels of the leg off, its interlock bit and event set, nothing in memory touched (R213).

A scheduled edge takes the next event of the leg's schedule. A leg that takes its scheduled state has, right after, no channel on or the
scheduled one; one that is held, or not enabled, keeps its channels (R208, R209, R210, R214 to R216).

The end of the dead time turns the waiting channel on (R210). The end of a cut period clears the interlock, and the leg is cut again
exactly where a selected comparator still asserts; it is due at the carrier's valley, or at the boundary, that ends it (R212, R214). -/
def Obligations.ScheduledEdgesAndInterlock : Prop :=
  (∀ (k : Fin 8) (s : State), s.dev.pwr.safeOn = true → ∃ t, exec (.outputMonitorInterlock k) s = .next t ∧
    (t.dev.gate k).on = .off ∧ (t.dev.gate k).pend = .off ∧ t.dev.bit Reg.GATE_STAT (16 + k) = true ∧
    t.dev.bit Reg.GATE_EVT (8 + k) = true ∧ t.dev.mem = s.dev.mem ∧
    (t.TapOff → t.pins.gout.getLsbD (2 * k) = false ∧ t.pins.gout.getLsbD (2 * k + 1) = false)) ∧
  (∀ (k : Fin 8) (s : State) (at' code : Nat) (rest : List (Nat × Nat)), (s.dev.gate k).evs = (at', code) :: rest →
    s.dev.bit (Reg.GATE_MODE k) 0 = false →
    ∃ t, exec (.scheduledEdge k) s = .next t ∧ (t.dev.gate k).evs = rest ∧
      (t.dev.gate k).sched = (if code = 1 then .low else if code = 2 then .high else .off) ∧
      (if (s.dev.gate k).en = true ∧ s.dev.legHeld k = false then (t.dev.gate k).on = .off ∨ (t.dev.gate k).on = (t.dev.gate k).sched
       else (t.dev.gate k).on = (s.dev.gate k).on) ∧
      (∀ j < 8, j ≠ k.val → t.dev.gate j = s.dev.gate j) ∧ s.dev.KeptBut [Reg.GATE_STAT, Reg.GATE_EVT] t.dev) ∧
  ((∀ (k : Fin 8) (s : State), (s.dev.gate k).pend ≠ .off → ∃ t, exec (.deadTimeExpiry k) s = .next t ∧
    (t.dev.gate k).on = (s.dev.gate k).pend ∧ (t.dev.gate k).pend = .off ∧ t.dev.bit Reg.GATE_STAT (24 + k) = false ∧
    s.dev.KeptBut [Reg.GATE_STAT] t.dev) ∧
  (∀ (k : Fin 8) (s : State), s.dev.Due (s.dev.cutEnd k) →
    (s.dev.bit Reg.GATE_STAT (8 + k) = true ∨ s.dev.bit Reg.GATE_STAT (16 + k) = true) →
    ∃ t, exec (.cutPeriodEnd k) s = .next t ∧ t.dev.bit Reg.GATE_STAT (16 + k) = false ∧
      t.dev.bit Reg.GATE_STAT (8 + k) = s.dev.cutSource k ∧
      s.dev.KeptBut [Reg.GATE_STAT, Reg.GATE_EVT, Reg.GATE_CNT_CUT k] t.dev))

/-- A write of GATE_CTL: EN stores as written, and a leg whose EN is cleared is off at once with no turn-on waiting (R216). REARM under a
TRIP or HALT hold is refused with REARM_ERR; else it waits for the next boundary (R215).

A write of GATE_MODE is taken only while the leg's EN is clear; else it sets CFG_ERR and leaves the register (R218). A calibration of the
delay lines while the time base counts sets VALID and counts itself (R211). -/
def Obligations.GateRegisters : Prop :=
  ((∀ (m : Master) (v : Word) (s : State), s.dev.BusOpen m Reg.GATE_CTL → ∃ t, exec (.gateEnWrite m v) s = .next t ∧
    t.dev.fld Reg.GATE_CTL 0 8 = fieldOf v 0 8 ∧
    (∀ k < 8, s.dev.bit Reg.GATE_CTL k = true → v.getLsbD k = false →
      (t.dev.gate k).on = .off ∧ (t.dev.gate k).pend = .off ∧ (t.dev.gate k).en = false) ∧
    s.dev.KeptBut [Reg.GATE_CTL, Reg.GATE_STAT, Reg.GATE_EVT] t.dev) ∧
  (∀ (m : Master) (v : Word) (s : State), s.dev.BusOpen m Reg.GATE_CTL → v.getLsbD 8 = true →
    ∃ t, exec (.rearm m v) s = .next t ∧
      (if 2 ≤ s.dev.fc.hold then t.dev.bit Reg.GATE_EVT 24 = true ∧ t.dev.rearmP = s.dev.rearmP else t.dev.rearmP = true))) ∧
  ((∀ (m : Master) (k : Fin 8) (v : Word) (s : State), s.dev.BusOpen m (Reg.GATE_MODE k) → ∃ t, exec (.gateModeWrite m k v) s = .next t ∧
    (if s.dev.bit Reg.GATE_CTL k = true then t.dev.bit Reg.GATE_EVT 25 = true ∧ s.dev.KeptBut [Reg.GATE_EVT] t.dev
     else t.dev.bit (Reg.GATE_MODE k) 0 = v.getLsbD 0 ∧ s.dev.KeptBut [Reg.GATE_MODE k] t.dev)) ∧
  (∀ s : State, s.dev.tb.counting = true → ∃ t, exec .gateCal s = .next t ∧ t.dev.bit Reg.GATE_CAL 0 = true ∧
    t.dev.fld Reg.GATE_CAL 16 16 = (s.dev.fld Reg.GATE_CAL 16 16 + 1) % 65536 ∧ s.dev.KeptBut [Reg.GATE_CAL] t.dev))

/-- Desaturation inputs. An assertion within BLANK ns of the turn-on of its channel is held as early and raises nothing; one still held when
the blanking ends is raised there; an assertion that is not monitored raises nothing; an input that
returns high ends its blanking and raises nothing (R386).

GRDY low for its filter time raises the channel's UVLO source where it is monitored, and only there. The pre-driver's under-voltage sets
PDRV, makes every enabled UVLO source pending and holds every GOUT low, unless the TAP drives the pins (R387). -/
def Obligations.GateSupervision : Prop :=
  ((∀ (j : Fin 16) (sinceOn : Nat) (s : State), s.dev.pwr.safeOn = true → s.dev.bit Reg.GATE_SUP_STAT j = false → s.dev.bit Reg.GATE_SUP_CTL j = true →
    s.dev.gout j = true → sinceOn < s.dev.fld (Reg.GATE_SUP_CH j) 0 12 →
    ∃ t, exec (.gfltNAssert j sinceOn true) s = .next t ∧ t.dev.bit Reg.GATE_SUP_STAT j = true ∧ t.dev.bit Reg.GATE_SUP_EVT j = true ∧
      t.dev.fc.forming = s.dev.fc.forming ∧ SMap.getD t.dev.fc.blank 0 j = sinceOn + 1) ∧
  (∀ (j : Fin 16) (sinceOn : Nat) (s : State), s.dev.pwr.safeOn = true → s.dev.bit Reg.GATE_SUP_CTL j = false →
    ∃ t, exec (.gfltNAssert j sinceOn true) s = .next t ∧ t.dev.bit Reg.GATE_SUP_STAT j = true ∧ t.dev.fc = s.dev.fc) ∧
  (∀ (j : Fin 16) (s : State), SMap.getD s.dev.fc.blank 0 j ≠ 0 → s.dev.bit Reg.GATE_SUP_STAT j = true → s.dev.bit Reg.GATE_SUP_CTL j = true →
    s.dev.srcEnabled j = true → s.dev.srcPending j = false →
    ∃ t, exec (.blankEnd j) s = .next t ∧ t.dev.srcPending j = true ∧ SMap.getD t.dev.fc.blank 0 j = 0 ∧
      SMap.getD t.dev.fc.early 0 j = SMap.getD s.dev.fc.blank 0 j) ∧
  (∀ (j : Fin 16) (sinceOn : Nat) (s : State), s.dev.pwr.safeOn = true → ∃ t, exec (.gfltNAssert j sinceOn false) s = .next t ∧
    t.dev.bit Reg.GATE_SUP_STAT j = false ∧ SMap.getD t.dev.fc.blank 0 j = 0 ∧ t.dev.fc.forming = s.dev.fc.forming ∧
    s.dev.KeptBut [Reg.GATE_SUP_STAT] t.dev)) ∧
  ((∀ (j : Fin 16) (s : State), s.dev.pwr.safeOn = true → s.dev.grdyBad.getLsbD j = false → ∃ t, exec (.grdyLow j true) s = .next t ∧
    t.dev.grdyBad.getLsbD j = true ∧ t.dev.bit Reg.GATE_SUP_STAT (16 + j) = false ∧
    (s.dev.bit Reg.GATE_SUP_CTL (16 + j) = false → t.dev.fc = s.dev.fc ∧ s.dev.KeptBut [Reg.GATE_SUP_STAT] t.dev) ∧
    (s.dev.bit Reg.GATE_SUP_CTL (16 + j) = true → s.dev.srcEnabled (16 + j) = true → t.dev.srcPending (16 + j) = true)) ∧
  (∀ (j : Fin 16) (s : State), s.dev.pwr.safeOn = true → ∃ t, exec (.grdyLow j false) s = .next t ∧ t.dev.grdyBad.getLsbD j = false ∧
    t.dev.bit Reg.GATE_SUP_STAT (16 + j) = true ∧ t.dev.fc = s.dev.fc ∧ s.dev.KeptBut [Reg.GATE_SUP_STAT] t.dev) ∧
  (∀ s : State, ∃ t, exec (.predriverUvlo false) s = .next t ∧ t.dev = s.dev.putPdrvLow false) ∧
  (∀ s : State, s.dev.pwr.safeOn = true → s.dev.pdrvLow = false → ∃ t, exec (.predriverUvlo true) s = .next t ∧ t.dev.pdrvLow = true ∧
    t.dev.bit Reg.GATE_SUP_EVT 16 = true ∧ (∀ j < 16, s.dev.srcEnabled (16 + j) = true → t.dev.srcPending (16 + j) = true) ∧
    (t.TapOff → t.pins.gout = 0)))

/-! ### The control period and the atomizer -/

/-- PERIOD_BOUNDARY: the boundary is the first point of the grid (t - anchor) mod T_P = 0 from where the last one left it; the period's number
is (t - anchor) / T_P mod 2^32; staged phases come into force; ENG_START and OUT_PHASE are placed where they fall before the next boundary
(R14, R15, R16, R18). Stated where no step of device time and no grid change waits.

At a boundary the committed set lands: it becomes the active schedule, the one before it is kept, and a stop set ends the run of the
atomizer (R21, R28, R202). -/
def Obligations.PeriodBoundary : Prop :=
  (∀ s : State, s.dev.tb.counting = true → s.dev.tb.engAt = none → s.dev.tb.outAt = none → s.dev.tb.stepPend = none →
    s.dev.tb.gridPend = false → 0 < s.dev.tb.tP →
    ∃ t, exec .periodBoundary s = .next t ∧ t.dev.tb.inPeriod = true ∧ t.dev.tb.tP = s.dev.tb.tP ∧ t.dev.tb.anchor = s.dev.tb.anchor ∧
      t.dev.tb.bnd % s.dev.tb.tP = s.dev.tb.anchor % s.dev.tb.tP ∧
      s.dev.tb.notBefore ≤ t.dev.tb.bnd ∧ t.dev.tb.bnd < s.dev.tb.notBefore + s.dev.tb.tP ∧
      t.dev.tb.k = (t.dev.tb.bnd - s.dev.tb.anchor) / s.dev.tb.tP % 2 ^ 32 ∧ t.dev.tb.phPend = false ∧
      (s.dev.tb.phPend = true → t.dev.tb.engStart = 10 * s.dev.fld Reg.TIME_PHASES 0 16 ∧
        t.dev.tb.outPhase = 10 * s.dev.fld Reg.TIME_PHASES 16 16) ∧
      (s.dev.tb.phPend = false → t.dev.tb.engStart = s.dev.tb.engStart ∧ t.dev.tb.outPhase = s.dev.tb.outPhase) ∧
      t.dev.tb.engAt = (if t.dev.tb.engStart < s.dev.tb.tP then some (t.dev.tb.bnd + t.dev.tb.engStart) else none) ∧
      t.dev.tb.outAt = (if t.dev.tb.outPhase < s.dev.tb.tP then some (t.dev.tb.bnd + t.dev.tb.outPhase) else none)) ∧
  (∀ s : State, s.dev.tb.counting = true → s.dev.tb.engAt = none → s.dev.tb.outAt = none → s.dev.atm.new.valid = true →
    ∃ t, exec .periodBoundary s = .next t ∧ t.dev.atm.act = s.dev.atm.new ∧ t.dev.atm.prev = s.dev.atm.act ∧
      t.dev.atm.new.valid = false ∧ t.dev.atm.running = (s.dev.atm.running && !s.dev.atm.new.stop))

/-- ENG_START: it is over, the period's records become the held ones, the others age by one up to 15, and every cell may take a record again
(R24, R167).

OUT_PHASE with ATM on: a stop commits the stop set; a running atomizer commits the period's set; a start commits the first set, sets
RUNNING and readies ATM. Whatever it does, COMMAND frames are due (R26, R156, R183, R200 to R202). -/
def Obligations.EngineStartAndOutPhase : Prop :=
  (∀ (at' : Nat) (s : State), s.dev.tb.counting = true → s.dev.tb.engAt = some at' →
    ∃ t, exec .engStart s = .next t ∧ t.dev.tb.engAt = none ∧ (∀ c, (t.dev.cell c).acc = false) ∧
      ∀ c < 144, s.dev.mapped c = true →
        (t.dev.cell c).img = (if (s.dev.cell c).acc = true then (s.dev.cell c).fill else (s.dev.cell c).img) ∧
        (t.dev.cell c).prev = (s.dev.cell c).img ∧
        (t.dev.cell c).age = (if (s.dev.cell c).acc = true then 0 else min 15 ((s.dev.cell c).age + 1))) ∧
  (∀ (at' : Nat) (s : State), s.dev.tb.counting = true → s.dev.tb.engAt = none → s.dev.tb.outAt = some at' → s.dev.domainOn 4 = true →
    ∃ t, exec .outPhase s = .next t ∧ t.dev.tb.outAt = none ∧ t.dev.atm.cmdDue = true ∧
      (s.dev.atm.stopP = true → t.dev.atm.new.valid = true ∧ t.dev.atm.new.stop = true ∧ t.dev.atm.stopP = false ∧
        t.dev.bit Reg.ATM_STAT 0 = false ∧ t.dev.rd Reg.ATM_CSEQ = BitVec.ofNat 32 s.dev.tb.k) ∧
      (s.dev.atm.stopP = false → s.dev.atm.running = true → s.dev.atm.new.stop = false →
        t.dev.atm.new.valid = true ∧ t.dev.atm.new.stop = false ∧ t.dev.atm.new.first = false ∧ t.dev.atm.new.per = s.dev.tb.k ∧
        t.dev.atm.evs = [] ∧ t.dev.rd Reg.ATM_CSEQ = BitVec.ofNat 32 s.dev.tb.k) ∧
      (s.dev.atm.stopP = false → s.dev.atm.running = false → s.dev.atm.startP = true →
        t.dev.atm.new.valid = true ∧ t.dev.atm.new.first = true ∧ t.dev.atm.running = true ∧ t.dev.atm.startP = false ∧
        t.dev.bit Reg.ATM_STAT 0 = true ∧ t.dev.bit Reg.SYS_READY 17 = true))

/-- COMMAND_FRAME_LAUNCH of a unit that stands alone: on every ring port in RUN the COMMAND frame of the commit leaves, its data the records of
the committed set with their CRC; where no frame is due, nothing changes (R27, R137, R142).

A write of ATM_CTL with RUN set starts the atomizer only where no cause of refusal holds; the first that holds is shown in ATM_STAT.CAUSE,
with START_REF (R201). A write with RUN clear asks for the stop set (R202). -/
def Obligations.CommandFramesAndAtomizer : Prop :=
  (∀ s : State, s.dev.role = 0 →
    ∃ t, exec .commandFrameLaunch s = .next t ∧ t.dev.atm.cmdDue = false ∧ (s.dev.atm.cmdDue = false → t.dev = s.dev) ∧
      (s.dev.atm.cmdDue = true → ∀ p < 24, s.dev.inRun p = true → s.dev.ringOf p < 24 →
        Out.frame p (mkFrame (s.dev.sof 2 (s.dev.endB p) (s.dev.nslot p))
          (s.dev.cmdData p s.dev.sendSet ((s.dev.sof 2 (s.dev.endB p) (s.dev.nslot p)).take 6))) ∈ t.dev.outbox)) ∧
  ((∀ (m : Master) (v : Word) (s : State), s.dev.BusOpen m Reg.ATM_CTL → v.getLsbD 0 = true → s.dev.bit Reg.ATM_CTL 0 = false →
    ∃ t, exec (.atmStart m v) s = .next t ∧
      (if s.dev.startCause = 0 then t.dev.bit Reg.ATM_CTL 0 = true ∧ t.dev.atm.startP = true ∧ t.dev.bit Reg.ATM_STAT 1 = true
       else t.dev.bit Reg.ATM_EVT 0 = true ∧ t.dev.fld Reg.ATM_STAT 4 3 = s.dev.startCause ∧ t.dev.atm = s.dev.atm ∧
         s.dev.KeptBut [Reg.ATM_EVT, Reg.ATM_STAT] t.dev)) ∧
  (∀ (m : Master) (v : Word) (s : State), s.dev.BusOpen m Reg.ATM_CTL → v.getLsbD 0 = false → s.dev.bit Reg.ATM_CTL 0 = true →
    ∃ t, exec (.atmStop m v) s = .next t ∧ t.dev.bit Reg.ATM_CTL 0 = false ∧ t.dev.atm.stopP = true ∧ t.dev.atm.startP = false ∧
      s.dev.KeptBut [Reg.ATM_CTL, Reg.ATM_STAT] t.dev))

/-- Writes of a carrier's registers. CTL is refused where NS is above 48, or MODE or NS would change on a carrier that may not; NS 0
stores 1. CPER is taken where the carrier may change and the value meets R194; ANCH where it may change and the value is below CPER, and shows
in ANCH_ACT at once; MINP where it may change. A refused write sets CFG_ERR and changes nothing else (R194, R219).

Carriers and the SYNC pins: a valley before the sequencer's next instant loads the leg's reference from the active schedule, and a peak does with RELOAD (R191);
SYNC_OUT rises at the carrier's phase of cluster 0 (R203); an edge of SYNC_IN shows its error and corrects the first selected cluster by at
most MAXADJ (R204, R205); SYNC_LOST is shown four carrier periods of the lowest selected cluster after the last edge (R207). -/
def Obligations.CarriersAndSync : Prop :=
  (∀ (m : Master) (n : Fin 7) (v : Word) (s : State),
    (s.dev.BusOpen m (Reg.ATM_CL_CTL n) → ∃ t, exec (.atmClCtlWrite m n .ctl v) s = .next t ∧
      (if 48 < fieldOf v 8 6 ∨ (s.dev.clFree n = false ∧ (v.getLsbD 0 ≠ s.dev.bit (Reg.ATM_CL_CTL n) 0 ∨
          max 1 (fieldOf v 8 6) ≠ s.dev.fld (Reg.ATM_CL_CTL n) 8 6))
       then t.dev.bit Reg.ATM_EVT 6 = true ∧ s.dev.KeptBut [Reg.ATM_EVT] t.dev
       else t.dev.bit (Reg.ATM_CL_CTL n) 0 = v.getLsbD 0 ∧ t.dev.fld (Reg.ATM_CL_CTL n) 8 6 = max 1 (fieldOf v 8 6) ∧
         s.dev.KeptBut [Reg.ATM_CL_CTL n] t.dev)) ∧
    (s.dev.BusOpen m (Reg.ATM_CL_CPER n) → ∃ t, exec (.atmClCtlWrite m n .cper v) s = .next t ∧
      (if s.dev.clFree n = true ∧ cperOk n (fieldOf v 0 24) s.dev.tb.tP = true then
        t.dev.fld (Reg.ATM_CL_CPER n) 0 24 = fieldOf v 0 24 ∧ s.dev.KeptBut [Reg.ATM_CL_CPER n] t.dev
       else t.dev.bit Reg.ATM_EVT 6 = true ∧ s.dev.KeptBut [Reg.ATM_EVT] t.dev)) ∧
    (s.dev.BusOpen m (Reg.ATM_CL_ANCH n) → ∃ t, exec (.atmClCtlWrite m n .anch v) s = .next t ∧
      (if s.dev.clFree n = true ∧ fieldOf v 0 24 < s.dev.fld (Reg.ATM_CL_CPER n) 0 24 then
        t.dev.fld (Reg.ATM_CL_ANCH n) 0 24 = fieldOf v 0 24 ∧ t.dev.rd (Reg.ATM_CL_ANCH_ACT n) = BitVec.ofNat 32 (fieldOf v 0 24) ∧
          s.dev.KeptBut [Reg.ATM_CL_ANCH n, Reg.ATM_CL_ANCH_ACT n] t.dev
       else t.dev.bit Reg.ATM_EVT 6 = true ∧ s.dev.KeptBut [Reg.ATM_EVT] t.dev)) ∧
    (s.dev.BusOpen m (Reg.ATM_CL_MINP n) → ∃ t, exec (.atmClCtlWrite m n .minp v) s = .next t ∧
      (if s.dev.clFree n = true then t.dev.fld (Reg.ATM_CL_MINP n) 0 16 = fieldOf v 0 16 ∧ s.dev.KeptBut [Reg.ATM_CL_MINP n] t.dev
       else t.dev.bit Reg.ATM_EVT 6 = true ∧ s.dev.KeptBut [Reg.ATM_EVT] t.dev))) ∧
  ((∀ (leg : Fin 296) (s : State), s.dev.tb.counting = true → s.dev.carrierMode leg = true → s.dev.atm.act.valid = true →
    s.dev.atm.landAt = none → (288 ≤ leg.val → s.dev.bit (Reg.ATM_CL_CTL 6) 0 = true) →
    gridFrom (max s.dev.now (s.dev.leg leg).lastLd) (s.dev.legAnchor leg % (s.dev.cper (s.dev.carrierOf leg) : Int)).toNat
      (s.dev.cper (s.dev.carrierOf leg)) < s.dev.nextSeq →
    ∃ t, exec (.carrierReload leg false) s = .next t ∧ (t.dev.leg leg).ref = SMap.getD s.dev.atm.act.refs 0 leg ∧
      (∀ j, j ≠ leg.val → t.dev.leg j = s.dev.leg j) ∧ s.dev.KeptBut [] t.dev) ∧
  (∀ (leg : Fin 296) (s : State), s.dev.tb.counting = true → s.dev.carrierMode leg = true → s.dev.atm.act.valid = true →
    s.dev.atm.landAt = none → (288 ≤ leg.val → s.dev.bit (Reg.ATM_CL_CTL 6) 0 = true) →
    gridFrom (max s.dev.now (s.dev.leg leg).lastLd)
      ((s.dev.legAnchor leg + (s.dev.cper (s.dev.carrierOf leg) / 2 : Nat)) % (s.dev.cper (s.dev.carrierOf leg) : Int)).toNat
      (s.dev.cper (s.dev.carrierOf leg)) < s.dev.nextSeq →
    ∃ t, exec (.carrierReload leg true) s = .next t ∧
      (t.dev.leg leg).ref = (if (SMap.getD s.dev.atm.clCtl 0 (s.dev.carrierOf leg)).getLsbD 1 = true then SMap.getD s.dev.atm.act.refs 0 leg
        else (s.dev.leg leg).ref) ∧
      (∀ j, j ≠ leg.val → t.dev.leg j = s.dev.leg j) ∧ s.dev.KeptBut [] t.dev) ∧
  (∀ s : State, s.dev.atmRuns = true → s.dev.bit (Reg.ATM_CL_CTL 0) 0 = false → s.dev.bit Reg.ATM_SYNC_OUT 0 = true →
    let rise := gridFrom (max s.dev.now s.dev.atm.syncNext) ((s.dev.rd (Reg.ATM_CL_ANCH_ACT 0)).toNat + s.dev.fld Reg.ATM_SYNC_OUT 16 16) (s.dev.cper 0)
    s.dev.Due rise → ∃ t, exec .syncOutPulse s = .next t ∧ s.dev.KeptBut [] t.dev ∧ t.dev.outbox = .syncOut rise :: s.dev.outbox ∧
      t.dev.atm.syncEnd = rise + 10 * s.dev.fld Reg.ATM_SYNC_OUT 8 8 ∧
      (t.TapOff → t.pins.syncOut = (t.dev.syncOutOn && decide (t.dev.now < t.dev.atm.syncEnd)))) ∧
  (∀ (stamp : Nat) (s : State), s.dev.domainOn 4 = true → s.dev.fld Reg.ATM_SYNC_IN 0 14 = 257 → SMap.getD s.dev.atm.stampAt 0 0 = 0 →
    ∃ t, exec (.syncInEdge stamp) s = .next t ∧ t.dev.rd Reg.ATM_SYNC_ERR = wordI (s.dev.syncErr 0 stamp) ∧
      SMap.getD t.dev.atm.corrP 0 0 = SMap.getD s.dev.atm.corrP 0 0 +
        clampI (-(s.dev.fld Reg.ATM_SYNC_IN 16 8 : Int)) (s.dev.fld Reg.ATM_SYNC_IN 16 8) (s.dev.syncErr 0 stamp)) ∧
  (∀ (n : Nat) (s : State), s.dev.bit Reg.ATM_SYNC_IN 0 = true → s.dev.domainOn 4 = true → n < 6 → s.dev.bit Reg.ATM_SYNC_IN (8 + n) = true →
    (∀ m < n, s.dev.bit Reg.ATM_SYNC_IN (8 + m) = false) → s.dev.Due (s.dev.atm.syncSeen + 4 * s.dev.cper n) → ∃ t, exec .syncLost s = .next t ∧
    t.dev.bit Reg.ATM_EVT 4 = true ∧ s.dev.KeptBut [Reg.ATM_EVT] t.dev))

/-! ### Ring and twin lanes -/

/-- The receiver of a lane that is not OFF. A block shows the signal; a valid sync header counts toward lock, an invalid one clears the count and is
counted (R98 to R101, R106); in automatic mode it moves the block boundary of a lane without lock (R102, R103). 64 valid headers lock a searching lane, which
then trains; 16 invalid ones in 64 lose the lock. Losing lock is counted, shown in LOL, and ends in SEARCH (R101, R107). In lock a control block of unknown
type, and a TRIP block or PROBE request with a bad check value, are counted (R99, R133). The 4,096th block without the answer to a request fails the training (R114).
A step of the slip moves the block boundary in manual mode and sets SLIP_ERR in automatic mode (R102, R103).

What watches a lane: loss of signal (R106), the eye scan with its limits (R118), the end of the window of the error monitor, which a window with fewer
invalid headers than TH clears (R119). -/
def Obligations.LaneReceiver : Prop :=
  (let more (lane off : Nat) (s t : State) : Prop := t.dev.fld (laneReg lane off) 0 32 = min (2 ^ 32 - 1) (s.dev.fld (laneReg lane off) 0 32 + 1)
  let lost (lane : Nat) (s t : State) : Prop := t.dev.bit (laneReg lane 4) 3 = false ∧ t.dev.lstate lane = 1 ∧ t.dev.bit (laneReg lane 8) 0 = true ∧ more lane 0x44 s t
  (∀ (lane : Fin 26) (hdr : BitVec 2) (payload : BitVec 64) (s : State), s.dev.LanesRun → s.dev.lstate lane ≠ 0 →
    let l := s.dev.lane lane
    let lock := s.dev.bit (laneReg lane 4) 3
    let bad := hdr = 0 ∨ hdr = 3
    let silent := s.dev.lstate lane = 2 ∧ l.search % 2 = 1 ∧ 4096 ≤ l.waitN + 1
    let invalid := ((List.range 64).filter (nbit ((2 * l.win + (if bad then 1 else 0)) % 2 ^ 64))).length
    let b := payloadBytes payload
    let ty := byteAt b 0
    let strange := ty ∉ [0x1E, 0x2D, 0x33, 0x4B, 0x55, 0x78, 0x87] ∨ ((ty = 0x55 ∨ (ty = 0x4B ∧ nbit (byteAt b 1) 7 = false)) ∧ (b.drop 7).headD 0 ≠ crc8 (b.take 7))
    ∃ t, exec (.blockReceived lane hdr payload false) s = .next t ∧ t.dev.bit (laneReg lane 4) 7 = true ∧
      (if bad then more lane 0x3C s t else t.dev.fld (laneReg lane 0x3C) 0 32 = s.dev.fld (laneReg lane 0x3C) 0 32) ∧
      (if lock = true ∧ hdr = 2 ∧ strange then more lane 0x40 s t else t.dev.fld (laneReg lane 0x40) 0 32 = s.dev.fld (laneReg lane 0x40) 0 32) ∧
      (silent → t.dev.lstate lane = 1 ∧ t.dev.ln lane 0x28 0 2 = 3 ∧ t.dev.ln lane 0x28 2 2 = 3) ∧
      (¬silent → bad → (t.dev.lane lane).good = 0 ∧
        (lock = false → t.dev.bit (laneReg lane 4) 3 = false ∧ (t.dev.lane lane).slip = (if s.dev.bit (laneReg lane 0x10) 0 = true then l.slip else (l.slip + 1) % 66)) ∧
        (lock = true → if 16 ≤ invalid then lost lane s t else t.dev.bit (laneReg lane 4) 3 = true)) ∧
      (¬silent → ¬bad → (lock = false → (t.dev.lane lane).good = l.good + 1 ∧ t.dev.bit (laneReg lane 4) 3 = decide (64 ≤ l.good + 1) ∧
        (64 ≤ l.good + 1 → s.dev.lstate lane = 1 → t.dev.lstate lane = 2)) ∧
        (lock = true → invalid < 16 → (t.dev.lane lane).good = l.good + 1 ∧ t.dev.bit (laneReg lane 4) 3 = true))) ∧
  (∀ (lane : Fin 26) (hdr : BitVec 2) (payload : BitVec 64) (s : State), s.dev.LanesRun → s.dev.lstate lane ≠ 0 →
    ∃ t, exec (.blockReceived lane hdr payload true) s = .next t ∧ t.dev.bit (laneReg lane 4) 7 = true ∧ t.dev.bit (laneReg lane 8) 4 = true ∧
      (hdr = 1 → s.dev.lstate lane ≠ 2 → s.dev.bit (laneReg lane 4) 3 = true → (s.dev.lane lane).win = 0 → (s.dev.lane lane).frm = 1 →
        (t.dev.lane lane).frm = 3)) ∧
  (∀ (lane : Fin 26) (s : State), s.dev.LanesRun → s.dev.lstate lane = 1 → s.dev.bit (laneReg lane 4) 3 = false →
    ∃ t, exec (.blockLock lane) s = .next t ∧ t.dev.bit (laneReg lane 4) 3 = true ∧ t.dev.lstate lane = 2) ∧
  (∀ (lane : Fin 26) (s : State), s.dev.LanesRun → s.dev.bit (laneReg lane 4) 3 = true → ∃ t, exec (.lossOfLock lane) s = .next t ∧ lost lane s t) ∧
  (∀ (m : Master) (lane : Fin 26) (v : Word) (s : State), s.dev.BusOpen m (laneReg lane 0x10) → v.getLsbD 1 = true →
    ∃ t, exec (.slipStep m lane v) s = .next t ∧
      (if v.getLsbD 0 = true then (t.dev.lane lane).slip = ((s.dev.lane lane).slip + 1) % 66 ∧ (t.dev.lane lane).good = 0
       else t.dev.bit (laneReg lane 8) 6 = true ∧ t.dev.lanes = s.dev.lanes ∧ s.dev.KeptBut [laneReg lane 8, laneReg lane 0x10] t.dev))) ∧
  ((∀ (lane : Fin 26) (s : State), s.dev.bit (laneReg lane 4) 7 = true →
    ∃ t, exec (.signalLoss lane) s = .next t ∧ t.dev.bit (laneReg lane 4) 7 = false ∧ t.dev.bit (laneReg lane 8) 7 = true) ∧
  (∀ (lane : Fin 26) (w h : Nat) (s : State), s.dev.LanesRun → s.dev.lstate lane ≠ 0 → s.dev.lstate lane ≠ 2 →
    ∃ t, exec (.eyeScanDone lane w h) s = .next t ∧ t.dev.fld (laneReg lane 0x34) 0 7 = w % 128 ∧
      t.dev.fld (laneReg lane 0x34) 8 7 = h % 128 ∧ t.dev.fld (laneReg lane 0x34) 16 16 = (s.dev.fld (laneReg lane 0x34) 16 16 + 1) % 65536 ∧
      t.dev.bit (laneReg lane 4) 6 = (decide (w < s.dev.fld (laneReg lane 0x30) 0 6) || decide (h < s.dev.fld (laneReg lane 0x30) 8 7)) ∧
      (w < s.dev.fld (laneReg lane 0x30) 0 6 → t.dev.bit (laneReg lane 8) 2 = true)) ∧
  (∀ (lane : Fin 26) (s : State), s.dev.LanesRun → s.dev.lstate lane ≠ 0 → s.dev.fld (laneReg lane 0x38) 0 16 ≠ 0 →
    ∃ t, exec (.berWindowEnd lane) s = .next t ∧ (t.dev.lane lane).berBad = 0 ∧ (t.dev.lane lane).berN = 0 ∧ (t.dev.lane lane).berHit = false ∧
      t.dev.bit (laneReg lane 4) 4 = (if (s.dev.lane lane).berHit = true then s.dev.bit (laneReg lane 4) 4
        else decide (s.dev.fld (laneReg lane 0x38) 0 16 ≤ (s.dev.lane lane).berBad)) ∧
      ((s.dev.lane lane).berHit = false → s.dev.fld (laneReg lane 0x38) 0 16 ≤ (s.dev.lane lane).berBad → t.dev.bit (laneReg lane 8) 1 = true)))

/-- Lane control. EN set from OFF enters SEARCH, EN cleared enters OFF; a write that would change the configuration of a lane with EN sets CFG_ERR
and changes nothing else (R107, R126). RING_TAPS takes a setting that meets R110, outside TRAIN; else CFG_ERR (R127). START in RUN sets CFG_ERR; a
lane in READY trains again (R108). -/
def Obligations.LaneControl : Prop :=
  (∀ (m : Master) (lane : Fin 26) (v : Word) (s : State), s.dev.BusOpen m (laneReg lane 0) →
    ∃ t, exec (.ringCtlWrite m lane v) s = .next t ∧
      (if fieldOf (s.dev.rd (laneReg lane 0) ^^^ v) 1 5 ≠ 0 ∧ (s.dev.bit (laneReg lane 0) 0 = true ∨ v.getLsbD 0 = true)
       then t.dev.bit (laneReg lane 8) 5 = true ∧ s.dev.KeptBut [laneReg lane 8] t.dev
       else t.dev.bit (laneReg lane 0) 0 = v.getLsbD 0 ∧ (s.dev.bit (laneReg lane 0) 0 = false → v.getLsbD 0 = true → t.dev.lstate lane = 1) ∧
         (s.dev.bit (laneReg lane 0) 0 = true → v.getLsbD 0 = false → t.dev.lstate lane = 0))) ∧
  (∀ (m : Master) (lane : Fin 26) (v : Word) (s : State), s.dev.BusOpen m (laneReg lane 0x20) →
    ∃ t, exec (.ringTapsWrite m lane v) s = .next t ∧
      (if s.dev.lstate lane ≠ 2 ∧ tapsOk (fieldOf v 0 4, fieldOf v 8 6, fieldOf v 16 5) = true
       then t.dev.taps lane = (fieldOf v 0 4, fieldOf v 8 6, fieldOf v 16 5) ∧ s.dev.KeptBut [laneReg lane 0x20] t.dev
       else t.dev.bit (laneReg lane 8) 5 = true ∧ s.dev.KeptBut [laneReg lane 8] t.dev)) ∧
  (∀ (m : Master) (lane : Fin 26) (v : Word) (s : State), s.dev.BusOpen m (laneReg lane 0x24) →
    ∃ t, exec (.trainStart m lane v) s = .next t ∧
      (if v.getLsbD 0 = true ∧ s.dev.lstate lane = 4 then t.dev.bit (laneReg lane 8) 5 = true ∧ s.dev.KeptBut [laneReg lane 8] t.dev
       else t.dev.ln lane 0x24 8 8 = max 1 (fieldOf v 8 8) ∧ t.dev.ln lane 0x24 16 8 = fieldOf v 16 8 ∧
         t.dev.ln lane 0x24 24 4 = max 1 (fieldOf v 24 4) ∧ (v.getLsbD 0 = true → s.dev.lstate lane = 3 → t.dev.lstate lane = 2)))

/-- Training. A TRAIN block with a wrong CRC is counted and nothing else; a good one shows the far RX_READY and becomes the answered request, refused in RUN
(R109, R111 to R113). The first measurement after INIT is kept and the moves begin; a move whose eye rises by GAIN percent is kept, another undone; where no search
runs, an eye within the limits makes the receiver ready, and the lane READY once the far end is (R107, R108, R115). The training time-out is noted for the end of the round;
a request without an answer fails the training: TRAIN_FAIL with cause 3, and SEARCH (R114 to R116). -/
def Obligations.LaneTraining : Prop :=
  (∀ (lane : Fin 26) (payload : BitVec 64) (s : State), s.dev.LanesRun → s.dev.lstate lane ≠ 0 → s.dev.bit (laneReg lane 4) 3 = true →
    ∃ t, exec (.trainBlockReceived lane payload) s = .next t ∧
      (if byteAt (payloadBytes payload) 0 = 0x2D ∧ fieldAt (payloadBytes payload) 6 2 = crc16 ((payloadBytes payload).take 6)
       then (t.dev.lane lane).farSeq = some (((payloadBytes payload).drop 1).headD 0) ∧
         t.dev.bit (laneReg lane 4) 5 = nbit (byteAt (payloadBytes payload) 5) 7 ∧
         (s.dev.lstate lane = 4 → t.dev.lstate lane = 4 ∧ t.dev.taps lane = s.dev.taps lane ∧ (t.dev.lane lane).ansSt = 0xFC)
       else t.dev.fld (laneReg lane 0x40) 0 32 = min (2 ^ 32 - 1) (s.dev.fld (laneReg lane 0x40) 0 32 + 1) ∧ t.dev.lanes = s.dev.lanes ∧
         s.dev.KeptBut [laneReg lane 0x40] t.dev)) ∧
  (∀ (lane : Fin 26) (w h : Nat) (s : State), s.dev.LanesRun → s.dev.lstate lane = 2 →
    let l := s.dev.lane lane
    ∃ t, exec (.quickEyeDone lane w h) s = .next t ∧
      (l.search = 0 → s.dev.ln lane 0x30 0 6 ≤ w → s.dev.ln lane 0x30 8 7 ≤ h →
        (t.dev.lane lane).rxReady = true ∧ t.dev.lstate lane =
          (if s.dev.bit (laneReg lane 4) 5 = true then (if 24 ≤ lane.val ∧ 3 ≤ s.dev.lstate (49 - lane) then 4 else 3) else 2)) ∧
      (l.search = 2 → (t.dev.lane lane).w = w ∧ (t.dev.lane lane).h = h ∧ (t.dev.lane lane).search = 3 ∧ (t.dev.lane lane).mySeq = l.mySeq + 1) ∧
      (l.search = 4 → (t.dev.lane lane).mySeq = l.mySeq + 1 ∧
        (if l.w * l.h * (100 + s.dev.ln lane 0x24 24 4) ≤ 100 * (w * h)
         then (t.dev.lane lane).w = w ∧ (t.dev.lane lane).h = h ∧ (t.dev.lane lane).search = 3 ∧
           (t.dev.lane lane).myReq = tapReq l.tap (tapPlus l.tap l.second)
         else (t.dev.lane lane).w = l.w ∧ (t.dev.lane lane).h = l.h ∧ (t.dev.lane lane).search = 5 ∧
           (t.dev.lane lane).myReq = tapReq l.tap (!tapPlus l.tap l.second)))) ∧
  (∀ (lane : Fin 26) (s : State), s.dev.LanesRun → s.dev.lstate lane = 2 → (s.dev.lane lane).search ≠ 0 →
    (∃ t, exec (.trainTimeout lane false) s = .next t ∧ t.dev.lane lane = { s.dev.lane lane with tout := true } ∧ s.dev.KeptBut [] t.dev) ∧
    ((s.dev.lane lane).search % 2 = 1 → ∃ t, exec (.trainTimeout lane true) s = .next t ∧ t.dev.lstate lane = 1 ∧ t.dev.bit (laneReg lane 4) 3 = false ∧
      t.dev.bit (laneReg lane 8) 3 = true ∧ t.dev.ln lane 0x28 0 2 = 3 ∧ t.dev.ln lane 0x28 2 2 = 3 ∧
      (t.dev.lane lane).search = 0 ∧ (t.dev.lane lane).rxReady = false))

/-! ### The cell link -/

/-- A ring port. It enters RUN with EN, the lane READY, the device in RUN and time ready, and starts its ring anew, alone where the other end does not run (R131,
R156); a write of RING_CAL stores INT and N, at least 1, and with START asks for a calibration (R156); the calibration of a ring start, in its 33rd period, ends it
and shows CAL, a later one answers what asked for it (R156); RING_TRIP
launches the block of a legal code on a port in RUN, and is refused with CFG_ERR for any other code (R133, R160). The TSEQ of a software trip is a free value
of the model (notes/assumptions/16). -/
def Obligations.RingPort : Prop :=
  (∀ (p : Fin 24) (s : State), s.dev.LanesRun → s.dev.bit (Reg.RING_LINK_CTL p) 0 = true → s.dev.lstate p = 3 → s.dev.fld Reg.SYS_STAGE 0 2 = 3 →
    s.dev.bit Reg.SYS_READY 9 = true → ∃ t, exec (.linkRunStart p) s = .next t ∧ t.dev.lstate p = 4 ∧
      t.dev.bit (Reg.RING_LINK_STAT p) 0 = true ∧ (t.dev.port p).runSince = 0 ∧ (t.dev.port p).startDone = false ∧
      ((s.dev.partner p = none ∧ (s.dev.port p).farSeen = false) ∨ (∃ q ∈ List.range 24, s.dev.partner p = some q ∧ q ≠ p.val ∧ s.dev.inRun q = false) →
        t.dev.bit (Reg.RING_LINK_STAT p) 1 = true ∧ t.dev.bit (Reg.RING_LINK_EVT p) 9 = true)) ∧
  (∀ (m : Master) (p : Fin 24) (v : Word) (s : State), s.dev.BusOpen m (Reg.RING_CAL p) → ∃ t, exec (.calStart m p v) s = .next t ∧
    t.dev.fld (Reg.RING_CAL p) 0 16 = fieldOf v 0 16 ∧ t.dev.fld (Reg.RING_CAL p) 20 4 = max 1 (fieldOf v 20 4) ∧
    (t.dev.port p).calReq = (v.getLsbD 16 || (s.dev.port p).calReq) ∧ s.dev.KeptBut [Reg.RING_CAL p] t.dev) ∧
  (∀ (p : Fin 24) (s : State), s.dev.inRun p = true →
    (if (s.dev.port p).startDone = true then s.dev.calWanted p = true ∧ 17 ≤ (s.dev.port p).calP else 34 ≤ (s.dev.port p).runSince) →
    ∃ t, exec (.ringCalibration p) s = .next t ∧ (t.dev.port p).startDone = true ∧ (t.dev.port p).calP = 0 ∧
      (t.dev.port p).calReq = (!(s.dev.port p).startDone && (s.dev.port p).calReq) ∧
      ((s.dev.port p).startDone = false → (t.dev.port p).applyLeft = some 4) ∧
      t.dev.bit (Reg.RING_LINK_STAT p) 2 = true ∧ t.dev.bit (Reg.RING_LINK_EVT p) 2 = true) ∧
  (∀ (m : Master) (p : Fin 24) (v : Word) (s : State), s.dev.BusOpen m (Reg.RING_TRIP p) → ∃ t, exec (.ringTripWrite m p v) s = .next t ∧
    (if fieldOf v 0 8 = 0x5A ∨ fieldOf v 0 8 = 0x66 ∨ fieldOf v 0 8 = 0x99
     then (s.dev.inRun p = true → ∃ q, t.dev.outbox = .block p (tripBlock (fieldOf v 0 8) (fieldOf v 8 4) (b2n s.dev.twinId) q 0xFF) :: s.dev.outbox)
     else t.dev.bit (Reg.RING_LINK_EVT p) 10 = true ∧ s.dev.KeptBut [Reg.RING_LINK_EVT p] t.dev))

/-- RING_LINK_CTL takes a legal value while EN is clear, and while it is set only the write that clears it, which takes a port in RUN to READY; any
other write sets CFG_ERR (R180). A TIME block with a wrong CRC is counted as TYPE; a good one that wrapped shows in the period, another's tells that the far end runs, and in the 16 periods behind the
ring start its transit is summed for H_r (R131, R133, R156). A reply to the current probe adds its round trip for its position (R157). -/
def Obligations.RingPortTraffic : Prop :=
  (∀ (m : Master) (p : Fin 24) (v : Word) (s : State), s.dev.BusOpen m (Reg.RING_LINK_CTL p) →
    ∃ t, exec (.ringLinkCtlWrite m p v) s = .next t ∧
      (s.dev.bit (Reg.RING_LINK_CTL p) 0 = false → 1 ≤ fieldOf v 16 4 → fieldOf v 16 4 ≤ 12 → fieldOf v 8 5 ≤ 23 → fieldOf v 24 5 ≤ 23 →
        t.dev.rd (Reg.RING_LINK_CTL p) = v &&& 0x9F0F1F03#32 ∧ s.dev.KeptBut [Reg.RING_LINK_CTL p] t.dev) ∧
      ((fieldOf v 16 4 = 0 ∨ 12 < fieldOf v 16 4 ∨ 23 < fieldOf v 8 5 ∨ 23 < fieldOf v 24 5) →
        t.dev.bit (Reg.RING_LINK_EVT p) 10 = true ∧ s.dev.KeptBut [Reg.RING_LINK_EVT p] t.dev) ∧
      (s.dev.bit (Reg.RING_LINK_CTL p) 0 = true → (s.dev.rd (Reg.RING_LINK_CTL p) ^^^ (v &&& 0x9F0F1F03#32)).toNat > 1 →
        t.dev.bit (Reg.RING_LINK_EVT p) 10 = true ∧ s.dev.KeptBut [Reg.RING_LINK_EVT p] t.dev) ∧
      (s.dev.bit (Reg.RING_LINK_CTL p) 0 = true → s.dev.rd (Reg.RING_LINK_CTL p) ^^^ (v &&& 0x9F0F1F03#32) = 1 →
        1 ≤ fieldOf v 16 4 → fieldOf v 16 4 ≤ 12 → fieldOf v 8 5 ≤ 23 → fieldOf v 24 5 ≤ 23 →
        t.dev.bit (Reg.RING_LINK_CTL p) 0 = false ∧ t.dev.lstate p = (if s.dev.inRun p = true then 3 else s.dev.lstate p))) ∧
  (∀ (p : Fin 24) (b : BitVec 64) (stamp : Nat) (wrapped : Bool) (s : State), s.dev.LanesRun → ∃ t, exec (.timeBlockReceived p b stamp wrapped) s = .next t ∧
    (if byteAt (payloadBytes b) 0 = 0x33 ∧ ((payloadBytes b).drop 7).headD 0 = crc8 ((payloadBytes b).take 7)
     then s.dev.KeptBut [] t.dev ∧ (s.dev.inRun p = true → wrapped = true → (t.dev.port p).wrapped = true) ∧
       (wrapped = false → (t.dev.port p).farSeen = true) ∧
       (s.dev.inRun p = true → wrapped = false → 2 ≤ (s.dev.port p).runSince → (s.dev.port p).runSince ≤ 17 → (s.dev.port p).hrN < 16 → 16 * s.dev.tb.bnd + 640 ≤ stamp →
         (t.dev.port p).hrN = (s.dev.port p).hrN + 1 ∧ (t.dev.port p).hrSum = (s.dev.port p).hrSum + (stamp - 16 * s.dev.tb.bnd - 640))
     else t.dev.fld (Reg.RING_CNT_TYPE p) 0 32 = min (2 ^ 32 - 1) (s.dev.fld (Reg.RING_CNT_TYPE p) 0 32 + 1) ∧
       s.dev.KeptBut [Reg.RING_CNT_TYPE p] t.dev)) ∧
  (∀ (p : Fin 24) (b : BitVec 64) (rt16 i : Nat) (s : State), s.dev.LanesRun → byteAt (payloadBytes b) 0 = 0x4B →
    ((payloadBytes b).drop 7).headD 0 = crc8 ((payloadBytes b).take 7) → s.dev.inRun p = true →
    nbit (byteAt (payloadBytes b) 1) 7 = true → nbit (byteAt (payloadBytes b) 1) 6 = s.dev.endB p → i = byteAt (payloadBytes b) 1 % 16 →
    1 ≤ i → i ≤ 12 → byteAt (payloadBytes b) 2 = (s.dev.port p).pseq.toNat → fieldAt (payloadBytes b) 3 3 ≤ rt16 →
    ∃ t, exec (.probeReplyReceived p b rt16) s = .next t ∧ s.dev.KeptBut [] t.dev ∧
      SMap.getD (t.dev.port p).calN 0 i = SMap.getD (s.dev.port p).calN 0 i + 1 ∧
      SMap.getD (t.dev.port p).calSum 0 i = SMap.getD (s.dev.port p).calSum 0 i + (rt16 - fieldAt (payloadBytes b) 3 3))

/-- Records. Slot j of a COLLECT copy that holds a good record of a mapped cell, inside the window of its period, is accepted: the cell's image fills
and CELL_SEEN shows the period; a bad frame is counted besides (R140, R145 to R147, R181). A REPOLL slot is accepted the same way for a position that
was asked for (R147, R166). A frame that a buffer error cut is discarded (R104). A missing record starts a REPOLL round that carries the missing positions and counts as one (R139, R164, R165). -/
def Obligations.RecordsAccepted : Prop :=
  (∀ (p : Fin 24) (f : Frame) (j c : Nat) (s : State), s.dev.LaneIn p → fKind f = 1 → fNslots f ≤ 12 → j < fNslots f → s.dev.recOpen f = true →
    recCheck f (if fDir f = true then j + 1 else fNslots f - j) ((f.data.drop (24 * j)).take 24) = 0 →
    s.dev.cellAt (s.dev.ringOf p) (if fDir f = true then j + 1 else fNslots f - j) = some c → (s.dev.cell c).acc = false →
    ∃ t, exec (.collectFrameReceived p f) s = .next t ∧ (t.dev.cell c).acc = true ∧
      (t.dev.cell c).fill = recClean ((f.data.drop (24 * j)).take 24) ∧ t.dev.rd (Reg.CELL_SEEN c) = BitVec.ofNat 32 (fPeriod f) ∧
      (fBad f = true → t.dev.fld (Reg.RING_CNT_FCRC p) 0 32 = min (2 ^ 32 - 1) (s.dev.fld (Reg.RING_CNT_FCRC p) 0 32 + 1))) ∧
  (∀ (p : Fin 24) (f : Frame) (j c pos : Nat) (s : State), s.dev.LaneIn p → fKind f = 4 → fNslots f ≤ 12 → j < fNslots f → s.dev.recOpen f = true →
    pos ∈ s.dev.slotAsked p f j → byteAt ((f.data.drop (24 * j)).take 24) 0 / 16 = pos →
    recCheck f pos ((f.data.drop (24 * j)).take 24) = 0 → s.dev.cellAt (s.dev.ringOf p) pos = some c →
    ∃ t, exec (.repollFrameReceived p f) s = .next t ∧ (t.dev.cell c).acc = true) ∧
  (∀ (p : Fin 24) (f : Frame) (s : State), s.dev.LanesRun → (s.dev.lane p).frm = 3 → ∃ t, exec (.collectFrameReceived p f) s = .next t ∧
    (t.dev.lane p).frm = 0 ∧ t.dev.cells = s.dev.cells ∧ s.dev.KeptBut [] t.dev) ∧
  (∀ (p : Fin 24) (at16 : Nat) (s : State), s.dev.inRun p = true → s.dev.tb.inPeriod = true → s.dev.tb.engPast = false →
    s.dev.missing p ≠ [] → (s.dev.port p).rounds < s.dev.fld (Reg.RING_REPOLL p) 0 2 →
    ∃ t, exec (.missingDecision p at16) s = .next t ∧ (t.dev.port p).rounds = (s.dev.port p).rounds + 1 ∧
      (s.dev.repollFits p (s.dev.missing p).length (5 * at16) = true →
        Out.frame p (mkFrame (s.dev.sof 4 (s.dev.endB p) (s.dev.missing p).length)
          (((if s.dev.endB p then s.dev.missing p else (s.dev.missing p).reverse).map
            fun i => BitVec.ofNat 8 (16 * i) :: List.replicate 23 (0 : Byte)).flatten)) ∈ t.dev.outbox))

/-- SERVICE and DISCOVER. A bad SERVICE frame is discarded and counted (R140). One that the other unit of a twin launched goes on to it, at once where it
ends before the next frame of the twin link, else it waits (R171). The reply to a
descriptor READ of this unit with a good DCRC makes the cell's descriptor known (R174, R176). The packet at the head of the port's transmit queue leaves with its reply area where the
frame fits the gap, and is discarded where the frame would be too long (R29, R169 to R171). A DISCOVER leaves with RLEN 25 when due and the gap holds it (R172); its result shows the
node of hop 1 at position 1, unless the other end placed that node elsewhere (R173).

The cell table. CELL_REQ leaves a request that waits, or sets ILL for a state that cannot be asked for (R176, R178, R181). CELL_MAP takes a place that
is free and legal while the cell is ABSENT, and the cell's descriptor is to be read anew; any other write sets MAP (R181). -/
def Obligations.ServiceAndCellTable : Prop :=
  (let svc (p : Nat) (f : Frame) (s : State) : Prop := s.dev.LaneIn p ∧ fKind f = 3 ∧ fNslots f = 0 ∧ f.data.length / 8 ≤ 128
  (∀ (p : Fin 24) (f : Frame) (s : State), svc p f s → fBad f = true →
    ∃ t, exec (.serviceFrameReceived p f) s = .next t ∧
      t.dev.fld (Reg.RING_CNT_FCRC p) 0 32 = min (2 ^ 32 - 1) (s.dev.fld (Reg.RING_CNT_FCRC p) 0 32 + 1) ∧
      s.dev.KeptBut [Reg.RING_CNT_FCRC p] t.dev) ∧
  (∀ (p : Fin 24) (f : Frame) (s : State), svc p f s → fBad f = false → s.dev.role ≠ 0 → fOrigin f ≠ s.dev.twinId → s.dev.bit Reg.SYS_READY 15 = true →
    s.dev.twin.svcWait = [] → ∃ t, exec (.serviceFrameReceived p f) s = .next t ∧ s.dev.KeptBut [Reg.TWIN_STAT] t.dev ∧
      (if s.dev.tb.inPeriod = true ∧ 80 * s.dev.twinNext < s.dev.twinFree (2 + f.data.length / 8)
       then t.dev.outbox = s.dev.outbox ∧ t.dev.twin.svcWait = [(s.dev.ringOf p, f.data)]
       else t.dev.outbox = .frame 24 (mkFrame ((s.dev.seeEpoch f).twinSof 12 (s.dev.ringOf p)) f.data) :: s.dev.outbox ∧ t.dev.twin.svcWait = [])) ∧
  (∀ (p : Fin 24) (f : Frame) (c : Nat) (s : State), svc p f s → fBad f = false → (s.dev.role = 0 ∨ fOrigin f = s.dev.twinId) →
    byteAt f.data 1 = 3 → fieldAt f.data 4 2 = 0 → (s.dev.port p).readDue.contains (byteAt f.data 0) = true → byteAt (f.data.drop 16) 1 = 0 →
    byteAt (f.data.drop 16) 0 = byteAt f.data 0 → fieldAt (f.data.drop 16) 6 2 = 64 → s.dev.cellAt (s.dev.ringOf p) (byteAt f.data 0) = some c →
    fieldAt (((f.data.drop 16).drop 8).take 64) 60 4 = crc32 ((((f.data.drop 16).drop 8).take 64).take 60) →
    ∃ t, exec (.serviceFrameReceived p f) s = .next t ∧ (t.dev.cell c).disc = true) ∧
  (∀ (p : Fin 24) (gap : Nat) (k : Pkt) (s : State), s.dev.LanesRun → s.dev.inRun p = true → s.dev.bit (Reg.RING_SVC p) 6 = true →
    let q := s.dev.fld (Reg.RING_SVC p) 0 6
    s.dev.bit Reg.QM_CTL 0 = true → s.dev.bit (Reg.QM_Q_CFG q) 0 = true → s.dev.qCons q = 2 → s.dev.qHead q = some k →
    let b := s.dev.pktBytes k.slots k.len
    let len := fieldAt b 6 2
    let n := 1 + (len + 7) / 8 + byteAt b 3
    let body := b.take (8 + len)
    (n ≤ 128 → n + 2 + (s.dev.repeats p).length ≤ gap → (s.dev.port p).svcWait = [] → s.dev.gapFits p (n + 2) = true →
      ∃ t, exec (.serviceLaunch p gap) s = .next t ∧ t.dev.qpkts q = (s.dev.qpkts q).drop 1 ∧
        t.dev.outbox.head? = some (.frame p (mkFrame (s.dev.sof 3 (s.dev.endB p) 0) (body ++ List.replicate (8 * n - body.length) 0)))) ∧
    (128 < n → ∃ t, exec (.serviceLaunch p gap) s = .next t ∧ t.dev.qpkts q = (s.dev.qpkts q).drop 1 ∧ t.dev.outbox = s.dev.outbox ∧
      t.dev.fld (Reg.RING_CNT_SVC p) 0 32 = min (2 ^ 32 - 1) (s.dev.fld (Reg.RING_CNT_SVC p) 0 32 + 1))) ∧
  (∀ (p : Fin 24) (s : State), s.dev.LanesRun → s.dev.inRun p = true →
    (∀ n, (s.dev.port p).discAgo = some n → s.dev.fld (Reg.RING_SVC p) 16 16 ≠ 0 ∧ s.dev.fld (Reg.RING_SVC p) 16 16 ≤ n) →
    (s.dev.port p).svcWait = [] → s.dev.gapFits p 28 = true →
    ∃ t, exec (.discoverLaunch p) s = .next t ∧ (t.dev.port p).discAgo = some 0 ∧ (t.dev.port p).svcWait = [] ∧
      t.dev.outbox.head? = some (.frame p (mkFrame (s.dev.sof 3 (s.dev.endB p) 0) ([0, 1, (s.dev.port p).svcTag, 25, 0, 0, 0, 0] ++ List.replicate 200 0)))) ∧
  (∀ (p : Fin 24) (f : Frame) (s : State), svc p f s → fBad f = false → (s.dev.role = 0 ∨ fOrigin f = s.dev.twinId) →
    fDir f = false → byteAt f.data 1 = 1 → byteAt f.data 4 = 1 → 1 ≤ s.dev.nslot p →
    let e := (f.data.drop 16).take 16
    byteAt e 1 = 1 → (∀ q < 24, s.dev.partner p = some q → ∀ x ∈ (s.dev.port q).derived, x.1 = (e.drop 8).take 8 → x.2 = 1) →
    ∃ t, exec (.discoverResult p f) s = .next t ∧ SMap.getD (t.dev.port p).found [] 1 = e ∧ t.dev.bit (Reg.RING_LINK_STAT p) 16 = true ∧
      (((e.drop 8).take 8, fieldAt e 4 2) ∉ (s.dev.port p).nodes → t.dev.bit (Reg.RING_LINK_EVT p) 5 = true))) ∧
  ((∀ (m : Master) (c : Fin 144) (v : Word) (s : State), s.dev.BusOpen m (Reg.CELL_REQ c) → ∃ t, exec (.cellReq m c v) s = .next t ∧
    (v.getLsbD 3 = true → (t.dev.cell c).unby = true ∧ t.dev.bit (Reg.CELL_STAT c) 3 = true) ∧
    (v.getLsbD 3 = false → (fieldOf v 0 3 = 0 ∨ fieldOf v 0 3 = 2 ∨ fieldOf v 0 3 = 3 ∨ fieldOf v 0 3 = 4) →
      (t.dev.cell c).req = some (fieldOf v 0 3) ∧ t.dev.bit (Reg.CELL_STAT c) 3 = true ∧ s.dev.KeptBut [Reg.CELL_STAT c] t.dev) ∧
    (v.getLsbD 3 = false → (fieldOf v 0 3 = 1 ∨ 5 ≤ fieldOf v 0 3) →
      t.dev.bit Reg.CELL_ERR 0 = true ∧ t.dev.cells = s.dev.cells ∧ s.dev.KeptBut [Reg.CELL_ERR] t.dev)) ∧
  (∀ (m : Master) (c : Fin 144) (v : Word) (s : State), s.dev.BusOpen m (Reg.CELL_MAP c) → ∃ t, exec (.cellMapWrite m c v) s = .next t ∧
    (s.dev.cellState c = 0 → fieldOf v 0 5 ≤ 23 → fieldOf v 8 4 ≤ 12 → fieldOf v 16 3 ≤ 5 →
      (fieldOf v 8 4 = 0 ∨ ∀ x < 144, x ≠ c.val → s.dev.fld (Reg.CELL_MAP x) 8 4 = fieldOf v 8 4 → s.dev.fld (Reg.CELL_MAP x) 0 5 ≠ fieldOf v 0 5) →
      t.dev.rd (Reg.CELL_MAP c) = v &&& 0x70F1F#32 ∧ (t.dev.cell c).disc = false ∧ s.dev.KeptBut [Reg.CELL_MAP c] t.dev) ∧
    ((s.dev.cellState c ≠ 0 ∨ 23 < fieldOf v 0 5 ∨ 12 < fieldOf v 8 4 ∨ 5 < fieldOf v 16 3) →
      t.dev.bit Reg.CELL_ERR 5 = true ∧ s.dev.KeptBut [Reg.CELL_ERR] t.dev)))

/-! ### The address space -/

/-- An access that meets a cause of R47 ends with that code: it reads zero and changes nothing but the error log, which takes the first error while
VALID is clear and only sets OVF while it is set (R47, R48). The code is `busCode`, the first cause in the order of R47. -/
def Obligations.BusErrorsChangeNothing : Prop :=
  ∀ (m : Master) (a : Word) (size : AccSize) (op : BusOp) (c : Nat) (s : State), s.dev.busCode m a.toNat size (op != .read) = some c →
    ∃ t, exec (.memoryAccess m a size op) s = .next t ∧ t.dev.busResp = ⟨0, c⟩ ∧
      s.dev.KeptBut [Reg.SCRUB_BERR_ADDR, Reg.SCRUB_BERR_INFO] t.dev ∧
      (if s.dev.bit Reg.SCRUB_BERR_INFO 8 = true
       then t.dev.bit Reg.SCRUB_BERR_INFO 9 = true ∧ t.dev.rd Reg.SCRUB_BERR_ADDR = s.dev.rd Reg.SCRUB_BERR_ADDR ∧
         t.dev.fld Reg.SCRUB_BERR_INFO 0 9 = s.dev.fld Reg.SCRUB_BERR_INFO 0 9
       else t.dev.rd Reg.SCRUB_BERR_ADDR = a ∧ t.dev.bit Reg.SCRUB_BERR_INFO 8 = true ∧ t.dev.fld Reg.SCRUB_BERR_INFO 0 4 = c ∧
         t.dev.fld Reg.SCRUB_BERR_INFO 4 3 = masterNum m ∧ t.dev.bit Reg.SCRUB_BERR_INFO 7 = (op != .read))

/-- The supervisor SRAM, the data memories and the sillage buffers: a write that meets no error stores the value little-endian in its size and no other
byte and no register changes; a read answers the stored value, little-endian, and stores nothing; a single-bit error is corrected on the way (R11, R41, R54). -/
def Obligations.MemoryHoldsWhatIsWritten : Prop :=
  (∀ (m : Master) (a v : Word) (size : AccSize) (s : State), s.dev.busCode m a.toNat size true = none →
    (regionOf a.toNat = some .sram ∨ regionOf a.toNat = some .edata ∨ regionOf a.toNat = some .sillage) →
    ∃ t, exec (.memoryAccess m a size (.write v)) s = .next t ∧ t.dev.busResp = ⟨0, 0⟩ ∧
      memRead t.dev.mem a.toNat (sizeBytes size) = v.toNat % 256 ^ sizeBytes size ∧
      (∀ x, (x < a.toNat ∨ a.toNat + sizeBytes size ≤ x) → memByte t.dev.mem x = memByte s.dev.mem x) ∧ (∀ x, t.dev.rd x = s.dev.rd x)) ∧
  (∀ (m : Master) (a : Word) (size : AccSize) (s : State), s.dev.busCode m a.toNat size false = none →
    (regionOf a.toNat = some .sram ∨ regionOf a.toNat = some .edata ∨ regionOf a.toNat = some .sillage) → s.dev.eccBad a.toNat = false →
    ∃ t, exec (.memoryAccess m a size .read) s = .next t ∧ t.dev.busResp = ⟨BitVec.ofNat 32 (memRead s.dev.mem a.toNat (sizeBytes size)), 0⟩ ∧
      t.dev.mem = s.dev.mem ∧ SMap.getD t.dev.ecc 0 (a.toNat - a.toNat % 4) = 0)

/-- Within a register block, an offset that holds no register reads as zero and ignores writes, without a bus error (R42). -/
def Obligations.NoRegisterReadsZero : Prop :=
  ∀ (m : Master) (a v : Word) (s : State), regionOf a.toNat = some .register → noReg a.toNat = true →
    (s.dev.busCode m a.toNat .b32 false = none → ∃ t, exec (.memoryAccess m a .b32 .read) s = .next t ∧ t.dev = s.dev.putBusResp ⟨0, 0⟩) ∧
    (s.dev.busCode m a.toNat .b32 true = none → ∃ t, exec (.memoryAccess m a .b32 (.write v)) s = .next t ∧ t.dev = s.dev.putBusResp ⟨0, 0⟩)

/-- A 64-bit value held in two registers is read low word first. Reading the low word copies the high word into a shadow for that master. The next read
of the high word by the same master returns the shadow. A read of the high word without a preceding low-word read returns the live high word. Energy
registers and device time are read this way (R45). `hiOf` gives the high word's register of each low word. -/
def Obligations.LowWordThenHighWord : Prop :=
  hiOf Reg.TIME_NOW_LO = some Reg.TIME_NOW_HI ∧ (∀ q < 130, hiOf (Reg.MET_E_LO q) = some (Reg.MET_E_LO q + 4)) ∧
  (∀ (m : Master) (a h : Nat) (s : State), hiOf a = some h → s.dev.busCode m a .b32 false = none →
    SMap.getD s.dev.shadow 0 (shadowKey m a) = 0 →
    ∃ t, exec (.lowWordRead m (BitVec.ofNat 32 a)) s = .next t ∧ t.dev.busResp = ⟨regVal a s.dev, 0⟩ ∧
      SMap.getD t.dev.shadow 0 (shadowKey m h) = (regVal h s.dev).toNat + 1) ∧
  (∀ (m : Master) (a h : Nat) (x : Nat) (s : State), hiOf a = some h → s.dev.busCode m h .b32 false = none →
    SMap.getD s.dev.shadow 0 (shadowKey m h) = x + 1 →
    ∃ t, exec (.memoryAccess m (BitVec.ofNat 32 h) .b32 .read) s = .next t ∧ t.dev.busResp = ⟨BitVec.ofNat 32 x, 0⟩ ∧
      SMap.getD t.dev.shadow 0 (shadowKey m h) = 0) ∧
  (∀ (m : Master) (a h : Nat) (s : State), hiOf a = some h → s.dev.busCode m h .b32 false = none →
    SMap.getD s.dev.shadow 0 (shadowKey m h) = 0 →
    ∃ t, exec (.memoryAccess m (BitVec.ofNat 32 h) .b32 .read) s = .next t ∧ t.dev.busResp = ⟨regVal h s.dev, 0⟩)

/-- Register access codes on the ATM block: ATM_IEN takes the datum, a 1 clears a bit of ATM_EVT, ATM_STAT ignores writes; reading a counter of the block
answers it and clears it (R6). One step of the scrubber reads the next word of an enabled class: a single-bit error is corrected and counted, the place
moves on, and after the last word the pass is counted (R54, R56). -/
def Obligations.AccessCodesAndScrub : Prop :=
  (∀ (m : Master) (v : Word) (s : State), s.dev.busCode m Reg.ATM_IEN .b32 true = none →
    ∃ t, exec (.registerWrite m (BitVec.ofNat 32 Reg.ATM_IEN) v) s = .next t ∧ t.dev.fld Reg.ATM_IEN 0 7 = fieldOf v 0 7 ∧
      t.dev.busResp = ⟨0, 0⟩ ∧ s.dev.KeptBut [Reg.ATM_IEN] t.dev) ∧
  (∀ (m : Master) (v : Word) (s : State), s.dev.busCode m Reg.ATM_EVT .b32 true = none →
    ∃ t, exec (.registerWrite m (BitVec.ofNat 32 Reg.ATM_EVT) v) s = .next t ∧ t.dev.rd Reg.ATM_EVT = s.dev.rd Reg.ATM_EVT &&& ~~~(v &&& 0x7F#32) ∧
      s.dev.KeptBut [Reg.ATM_EVT] t.dev) ∧
  (∀ (m : Master) (v : Word) (s : State), s.dev.busCode m Reg.ATM_STAT .b32 true = none →
    ∃ t, exec (.registerWrite m (BitVec.ofNat 32 Reg.ATM_STAT) v) s = .next t ∧ s.dev.KeptBut [] t.dev) ∧
  (∀ (m : Master) (i : Fin 4) (s : State), s.dev.busCode m (Reg.ATM_CNT_BADEV + 4 * i) .b32 false = none →
    SMap.getD s.dev.shadow 0 (shadowKey m (Reg.ATM_CNT_BADEV + 4 * i)) = 0 →
    ∃ t, exec (.rcRead m (BitVec.ofNat 32 (Reg.ATM_CNT_BADEV + 4 * i))) s = .next t ∧
      t.dev.busResp = ⟨s.dev.rd (Reg.ATM_CNT_BADEV + 4 * i), 0⟩ ∧ t.dev.rd (Reg.ATM_CNT_BADEV + 4 * i) = 0 ∧
      s.dev.KeptBut [Reg.ATM_CNT_BADEV + 4 * i] t.dev) ∧
  (∀ (c : Fin 7) (s : State), s.dev.domainOn 1 = true → s.dev.domainOn (classDomain c) = true → s.dev.bit Reg.SCRUB_CTL c = true →
    SMap.getD s.dev.scrubPos 0 c < scrubWords c →
    ∃ t, exec (.scrubRead c) s = .next t ∧ t.dev.mem = s.dev.mem ∧
      SMap.getD t.dev.scrubPos 0 c = (SMap.getD s.dev.scrubPos 0 c + 1) % scrubWords c ∧
      (SMap.getD s.dev.scrubPos 0 c + 1 = scrubWords c → t.dev.rd (Reg.SCRUB_PASS c) = s.dev.rd (Reg.SCRUB_PASS c) + 1) ∧
      (SMap.getD s.dev.ecc 0 (scrubAddr c (SMap.getD s.dev.scrubPos 0 c)) = 1 →
        SMap.getD t.dev.ecc 0 (scrubAddr c (SMap.getD s.dev.scrubPos 0 c)) = 0 ∧
        t.dev.fld (Reg.SCRUB_CE c) 0 16 = min 65535 (s.dev.fld (Reg.SCRUB_CE c) 0 16 + 1)))

/-! ### Power, start and reset -/

/-- A reset that takes effect while SAFE runs: every register outside AMBER but SYS_RST_CAUSE reads its reset value, SYS_RST_CAUSE names the cause,
every volatile memory reads zero, and no gate or safe output is driven (R72, R78, R80, R83, R84). MAIN_SUPPLY_LOSS and RESET_N_ASSERT leave SAFE off. -/
def Obligations.ResetsClearTheDevice : Prop :=
  (∀ s : State, s.dev.pwr.mainGood = true → ∃ t, exec .mainSupplyLoss s = .next t ∧ t.dev.pwr.mainGood = false ∧ t.dev.pwr.safeOn = false ∧
    t.dev.rd Reg.SYS_RST_CAUSE = 1 ∧ (∀ a, regDomain a ≠ 0 → a ≠ Reg.SYS_RST_CAUSE → t.dev.rd a = regReset a) ∧
    (∀ a, memDomain a ≠ 8 → memByte t.dev.mem a = 0) ∧ (t.TapOff → t.pins.gout = 0 ∧ t.pins.sout = 0)) ∧
  (∀ s : State, s.dev.pwr.resetHi = true → s.dev.pwr.safeOn = true → ∃ t, exec .resetNAssert s = .next t ∧ t.dev.pwr.resetHi = false ∧
    t.dev.pwr.safeOn = false ∧ t.dev.rd Reg.SYS_RST_CAUSE = 2 ∧ (∀ a, regDomain a ≠ 0 → a ≠ Reg.SYS_RST_CAUSE → t.dev.rd a = regReset a) ∧
    (∀ a, memDomain a ≠ 8 → memByte t.dev.mem a = 0) ∧ (t.TapOff → t.pins.gout = 0 ∧ t.pins.sout = 0)) ∧
  (∀ (m : Master) (v : Word) (s : State), s.dev.BusOpen m Reg.SYS_RST_CTL → ∃ t, exec (.softwareReset m v) s = .next t ∧
    (if v.getLsbD 0 = true ∧ fieldOf v 16 16 = 0x5A5A
     then t.dev.rd Reg.SYS_RST_CAUSE = 4 ∧ t.dev.rd Reg.SYS_BOOT = s.dev.rd Reg.SYS_BOOT ∧ (∀ a, memDomain a ≠ 8 → memByte t.dev.mem a = 0) ∧
       (t.TapOff → t.pins.gout = 0 ∧ t.pins.sout = 0)
     else t.dev = s.dev.putBusResp ⟨0, 0⟩)) ∧
  (∀ s : State, s.dev.pwr.safeOn = true → ∃ t, exec .debugReset s = .next t ∧ t.dev.rd Reg.SYS_RST_CAUSE = 8 ∧
    t.dev.rd Reg.SYS_BOOT = s.dev.rd Reg.SYS_BOOT ∧ (∀ a, memDomain a ≠ 8 → memByte t.dev.mem a = 0))

/-- The start. SAFE comes out of reset once the main supplies are good and RESET_N is high, with ERR_N asserted (R59, R72, R83, R384); the heart note
readies the top-note functions, enters stage 2, asks for SUPV and writes the band entry 0 (R70, R73, R433). GO_BASE enters RUN with the functions that R75
names, else it is refused with GO_REF; MET_WAIVE is taken on the SV9144-FE and refused on the SV9144-FM (R75, R76). -/
def Obligations.StartStages : Prop :=
  (∀ s : State, s.dev.pwr.mainGood = false → s.dev.pwr.resetHi = true → s.dev.pwr.dbgHeld = false → s.dev.pwr.safeOn = false →
    ∃ t, exec .mainSuppliesGood s = .next t ∧ t.dev.pwr.mainGood = true ∧ t.dev.pwr.safeOn = true ∧ t.pins.errN = true ∧ t.dev.bit Reg.FC_STAT 2 = true) ∧
  (∀ s : State, s.dev.pwr.mainGood = true → s.dev.pwr.dbgHeld = false → s.dev.pwr.safeOn = false →
    ∃ t, exec .resetNRelease s = .next t ∧ t.dev.pwr.resetHi = true ∧ t.dev.pwr.safeOn = true ∧ t.pins.errN = true) ∧
  (∀ s : State, s.dev.pwr.safeOn = true → s.dev.fld Reg.SYS_STAGE 0 2 = 1 →
    ∃ t, exec .heartNoteEntry s = .next t ∧ t.dev.fld Reg.SYS_STAGE 0 2 = 2 ∧ (∀ i < 5, t.dev.bit Reg.SYS_READY i = true) ∧
      t.dev.rd (Reg.CLK_BAND 0) = 0xBEAB86A0#32 ∧ t.dev.bit Reg.SYS_PWR_CTL 2 = true ∧ t.dev.pwr.queue = s.dev.pwr.queue ++ [(2, true)]) ∧
  (∀ (m : Master) (v : Word) (s : State), s.dev.BusOpen m Reg.SYS_CTL → v.getLsbD 0 = true → v.getLsbD 1 = false →
    ∃ t, exec (.goBase m v) s = .next t ∧
      (if s.dev.fld Reg.SYS_READY 5 4 = 15 ∧ (s.dev.bit Reg.SYS_READY 11 = true ∨ s.dev.bit Reg.SYS_CTL 1 = true)
       then t.dev.fld Reg.SYS_STAGE 0 2 = 3 ∧ s.dev.KeptBut [Reg.SYS_STAGE] t.dev
       else t.dev.bit Reg.SYS_PWR_ERR 5 = true ∧ s.dev.KeptBut [Reg.SYS_PWR_ERR] t.dev)) ∧
  (∀ (m : Master) (v : Word) (s : State), s.dev.BusOpen m Reg.SYS_CTL → v.getLsbD 0 = false → v.getLsbD 1 = true →
    ∃ t, exec (.metWaive m v) s = .next t ∧
      (if s.dev.fm = true then t.dev.bit Reg.SYS_PWR_ERR 4 = true ∧ s.dev.KeptBut [Reg.SYS_PWR_ERR] t.dev
       else t.dev.bit Reg.SYS_CTL 1 = true ∧ s.dev.KeptBut [Reg.SYS_CTL] t.dev))

/-- Domains and supplies. A request that meets a cause of R62 or R64 is refused with its bit; an accepted one is shown in BUSY and queues its
switches, a domain that goes off leaving ON and its contents at once; a switched-on domain shows in ON with its busy bit clear, its
memories zero and its registers at reset; a switch-off that has ended is no longer busy (R60 to R64). A PG time-out or a fall of a good PG of an enabled rail is
shown and makes FLT_SUPPLY's condition hold (R69); a supply outside its window is shown in SYS_SUPMON,
a main one makes a supply reset (R80, R93). -/
def Obligations.DomainsAndSupplies : Prop :=
  (∀ (m : Master) (v : Word) (b : Nat) (s : State), s.dev.BusOpen m Reg.SYS_PWR_CTL → s.dev.pwrRefusal v = some b →
    ∃ t, exec (.sysPwrCtlWrite m v) s = .next t ∧ t.dev.bit Reg.SYS_PWR_ERR b = true ∧ t.dev.pwr = s.dev.pwr ∧
      s.dev.KeptBut [Reg.SYS_PWR_ERR] t.dev) ∧
  (∀ (m : Master) (v : Word) (s : State), s.dev.BusOpen m Reg.SYS_PWR_CTL → s.dev.pwrRefusal v = none →
    (∀ i < 8, 2 ≤ i → s.dev.bit Reg.SYS_PWR_CTL i = true → v.getLsbD i = true) →
    ∃ t, exec (.sysPwrCtlWrite m v) s = .next t ∧ t.dev.fld Reg.SYS_PWR_CTL 2 6 = fieldOf v 2 6 ∧
      t.dev.pwr.queue = s.dev.pwr.queue ++ ([2, 3, 4, 5, 6, 7].filter fun i => v.getLsbD i && !s.dev.bit Reg.SYS_PWR_CTL i).map (·, true) ∧
      (∀ i < 8, 2 ≤ i → v.getLsbD i = true → s.dev.bit Reg.SYS_PWR_CTL i = false → t.dev.bit Reg.SYS_PWR_STAT (8 + i) = true) ∧
      s.dev.KeptBut [Reg.SYS_PWR_CTL, Reg.SYS_PWR_STAT] t.dev) ∧
  (∀ (m : Master) (v : Word) (i : Nat) (s : State), s.dev.BusOpen m Reg.SYS_PWR_CTL → s.dev.pwrRefusal v = none → 3 ≤ i → i ≤ 6 →
    s.dev.bit Reg.SYS_PWR_CTL i = true → (∀ j < 8, 2 ≤ j → v.getLsbD j = (s.dev.bit Reg.SYS_PWR_CTL j && j != i)) → s.dev.pwr.queue = [] →
    ∃ t, exec (.sysPwrCtlWrite m v) s = .next t ∧ t.dev.pwr.queue = [(i, false)] ∧ t.dev.bit Reg.SYS_PWR_STAT i = false ∧
      t.dev.bit Reg.SYS_PWR_STAT (8 + i) = true ∧ (∀ a, regDomain a = i → t.dev.rd a = regReset a) ∧ (∀ a, memDomain a = i → memByte t.dev.mem a = 0)) ∧
  (∀ (i : Nat) (rest : List (Nat × Bool)) (s : State), 2 ≤ i → i ≤ 7 → s.dev.pwr.queue = (i, true) :: rest → (∀ e ∈ rest, e.2 = true ∧ e.1 ≠ i) →
    s.dev.fused = [] → ∃ t, exec .domainSwitchOnDone s = .next t ∧ t.dev.pwr.queue = rest ∧ t.dev.bit Reg.SYS_PWR_STAT i = true ∧
      t.dev.bit Reg.SYS_PWR_STAT (8 + i) = false ∧ (∀ a, memDomain a = i → memByte t.dev.mem a = 0) ∧
      (i ≠ 6 → ∀ a, regDomain a = i → a ≠ Reg.MET_STAT → t.dev.rd a = regReset a) ∧ (i = 7 → t.dev.bit Reg.MET_STAT 5 = s.dev.fm)) ∧
  (∀ (i : Nat) (s : State), 2 ≤ i → i ≤ 7 → s.dev.pwr.queue = [(i, false)] → s.dev.pwr.latching = false →
    ∃ t, exec .domainSwitchOffDone s = .next t ∧ t.dev.pwr.queue = [] ∧ t.dev.bit Reg.SYS_PWR_STAT (8 + i) = false) ∧
  (∀ (i : Fin 6) (s : State), s.dev.pwr.safeOn = true → s.dev.bit Reg.PMIC_STAT i = true →
    ∃ t, exec (.pgTimeout i) s = .next t ∧ t.dev.bit Reg.PMIC_STAT (8 + i) = false ∧ t.dev.bit Reg.PMIC_EVT i = true ∧
      t.dev.pwr.pgErr.getLsbD i = true) ∧
  (∀ (i : Fin 6) (s : State), s.dev.pwr.safeOn = true → s.dev.pwr.pg.getLsbD i = true →
    ∃ t, exec (.pgFall i) s = .next t ∧ t.dev.pwr.pg.getLsbD i = false ∧ t.dev.bit Reg.PMIC_STAT (8 + i) = false ∧
      t.dev.bit Reg.PMIC_EVT (8 + i) = true ∧ (s.dev.bit Reg.PMIC_STAT i = true → t.dev.pwr.pgErr.getLsbD i = true)) ∧
  (∀ (i : Fin 6) (s : State), i.val ≠ 0 → i.val ≠ 2 → i.val ≠ 4 → s.dev.pwr.safeOn = true →
    (∃ t, exec (.supplyWindowExit i true) s = .next t ∧ t.dev.pwr.winOut.getLsbD i = true ∧ t.dev.bit Reg.SYS_SUPMON i = false ∧
      (s.dev.pwr.winOut.getLsbD i = false → t.dev.bit Reg.SYS_SUPMON (8 + i) = true)) ∧
    (∃ t, exec (.supplyWindowExit i false) s = .next t ∧ t.dev.pwr.winOut.getLsbD i = false ∧ t.dev.bit Reg.SYS_SUPMON i = true)) ∧
  (∀ (i : Fin 6) (s : State), i.val = 0 ∨ i.val = 2 ∨ i.val = 4 → s.dev.pwr.mainGood = true → ∃ t, exec (.supplyWindowExit i true) s = .next t ∧
    t.dev.pwr.mainGood = false ∧ t.dev.pwr.safeOn = false ∧ t.dev.rd Reg.SYS_RST_CAUSE = 1)

/-- The Amber domain. A switch of its source loses nothing (R87); a brown-out on VBAT takes it out of power, and power-on finds its registers at reset with
the source shown (R87, R88, R94); a stuck reset is shown, counted and dated (R86); the crystal's failure is shown and makes the holdover time invalid, its
recovery ends it (R90); a battery measurement shows both limits (R94); a write takes effect when its Amber clocks have passed, oldest first (R91); the
holdover count follows device time while that is valid (R89). -/
def Obligations.AmberDomain : Prop :=
  (∀ (b : Bool) (s : State), s.dev.amb.powered = true → ∃ t, exec (.amberSourceSwitch b) s = .next t ∧ t.dev.bit Reg.AMB_STATUS 0 = b ∧
    t.dev.amb = s.dev.amb ∧ s.dev.KeptBut [Reg.AMB_STATUS] t.dev) ∧
  (∀ s : State, s.dev.amb.powered = true → s.dev.bit Reg.AMB_STATUS 0 = true → ∃ t, exec .vbatBrownOut s = .next t ∧ t.dev.amb.powered = false ∧
    (∀ a, regDomain a = 0 → t.dev.rd a = regReset a) ∧ (∀ a, regDomain a ≠ 0 → t.dev.rd a = s.dev.rd a)) ∧
  (∀ (b : Bool) (s : State), s.dev.amb.powered = false → ∃ t, exec (.amberPowerOn b) s = .next t ∧ t.dev.amb = {} ∧ t.dev.bit Reg.AMB_STATUS 0 = b ∧
    (∀ a, regDomain a = 0 → a ≠ Reg.AMB_STATUS → t.dev.rd a = regReset a) ∧ (∀ a, regDomain a ≠ 0 → t.dev.rd a = s.dev.rd a)) ∧
  (∀ s : State, s.dev.pwr.mainGood = true → s.dev.pwr.resetHi = false → s.dev.amb.powered = true → s.dev.bit Reg.AMB_CTL 1 = true →
    ∃ t, exec .resetStuck s = .next t ∧ t.dev.bit Reg.AMB_STATUS 5 = true ∧ t.dev.rd Reg.AMB_RSTK_LO = BitVec.ofNat 32 s.dev.holdNs ∧
      t.dev.rd Reg.AMB_RSTK_HI = BitVec.ofNat 32 (s.dev.holdNs / 2 ^ 32) ∧
      t.dev.fld Reg.AMB_RSTK_CNT 0 8 = min 255 (s.dev.fld Reg.AMB_RSTK_CNT 0 8 + 1)) ∧
  (∀ s : State, s.dev.amb.powered = true → ∃ t, exec .x32Fail s = .next t ∧ t.dev.bit Reg.AMB_STATUS 4 = true ∧ t.dev.bit Reg.AMB_STATUS 6 = false ∧
    t.dev.amb.x32Ok = false ∧ t.dev.amb.hold = s.dev.amb.hold ∧ s.dev.KeptBut [Reg.AMB_STATUS] t.dev) ∧
  (∀ s : State, ∃ t, exec .x32Recovered s = .next t ∧ t.dev.amb.x32Ok = true ∧ t.dev.amb.hold = s.dev.amb.hold ∧ s.dev.KeptBut [] t.dev) ∧
  (∀ (mv : Nat) (s : State), s.dev.amb.powered = true → ∃ t, exec (.batMeasure mv) s = .next t ∧ t.dev.bit Reg.AMB_STATUS 1 = decide (mv < 2200) ∧
    t.dev.bit Reg.AMB_STATUS 2 = decide (mv < 1500) ∧ t.dev.amb = s.dev.amb ∧ s.dev.KeptBut [Reg.AMB_STATUS] t.dev) ∧
  (∀ (j : Fin 8) (v : Word) (rest : List (Nat × Word)) (s : State), s.dev.amb.powered = true → s.dev.amb.queue = (Reg.AMB_SCRATCH j, v) :: rest →
    ∃ t, exec .ambWriteApply s = .next t ∧ t.dev.rd (Reg.AMB_SCRATCH j) = v ∧ t.dev.amb.queue = rest ∧ s.dev.KeptBut [Reg.AMB_SCRATCH j] t.dev) ∧
  (∀ s : State, s.dev.amb.powered = true → ∃ t, exec .holdoverTick s = .next t ∧
    (if s.dev.pwr.safeOn = true ∧ s.dev.bit Reg.SYS_READY 9 = true ∧ s.dev.bit Reg.AMB_CTL 0 = true
     then t.dev.amb.hold = s.dev.tb.dt / 2 ^ 32 ∧ t.dev.bit Reg.AMB_STATUS 6 = true
     else t.dev.amb.hold = (s.dev.amb.hold + (30517 * 65536 + 37888 + sext 20 (s.dev.fld Reg.AMB_TRIM 0 20))).toNat % 2 ^ 80 ∧ s.dev.KeptBut [] t.dev))

/-! ### Accord instructions -/

/-- Sums, logic, shifts, minima and maxima, ABS, NEG and SAT, on an engine and on the supervisor: `riOps` gives both operands of the R and the I form.
The plain sums wrap, the S forms clamp and flag a clamp, a shift by 32 or more leaves nothing of the operand but SAR's sign, U compares unsigned
(R227 to R229, R232); the latency is one cycle (R255). Nothing but the result changes. -/
def Obligations.AccordArithmetic : Prop :=
  ∀ (c : Core) (p : Pred) (x : RI) (s : State), s.dev.Issues c p →
    let d := s.dev.seenBy c
    let r := d.regsOf c
    let ok (i : Instr) (l : List (Nat × Act)) : Prop := ∃ t, exec i s = .next t ∧ d.DoneBut c [] l t.dev
    (∀ rd a b md, riOps x r false 1 = some (rd, a, b, md) →
      ok (.add c p x) (if md = 1 then clamped 1 rd 32 (a.toInt + b.toInt) else [(1, .reg rd (a + b))]) ∧
      ok (.sub c p x) (if md = 1 then clamped 1 rd 32 (a.toInt - b.toInt) else [(1, .reg rd (a - b))]) ∧
      ok (.min c p x) [(1, .reg rd (if (if md = 1 then a.toNat < b.toNat else a.toInt < b.toInt) then a else b))] ∧
      ok (.max c p x) [(1, .reg rd (if (if md = 1 then a.toNat < b.toNat else a.toInt < b.toInt) then b else a))]) ∧
    (∀ rd a b, riOps x r true 0 = some (rd, a, b, 0) →
      ok (.and c p x) [(1, .reg rd (a &&& b))] ∧ ok (.or c p x) [(1, .reg rd (a ||| b))] ∧ ok (.xor c p x) [(1, .reg rd (a ^^^ b))]) ∧
    (∀ rd a n md, shiftOps x r 1 = some (rd, a, n, md) →
      ok (.shl c p x) (if md = 1 then clamped 1 rd 32 (a.toInt * 2 ^ n) else [(1, .reg rd (BitVec.ofNat 32 (a.toNat * 2 ^ n)))])) ∧
    (∀ rd a n, shiftOps x r 0 = some (rd, a, n, 0) →
      ok (.shr c p x) [(1, .reg rd (BitVec.ofNat 32 (a.toNat / 2 ^ n)))] ∧ ok (.sar c p x) [(1, .reg rd (BitVec.ofInt 32 (a.toInt / 2 ^ n)))]) ∧
    (∀ rd rs, x = .r rd rs 0 0 →
      ok (.abs c p x) (clamped 1 rd 32 ((r.rg rs).toInt.natAbs : Int)) ∧ ok (.neg c p x) (clamped 1 rd 32 (-(r.rg rs).toInt))) ∧
    (∀ rd rs imm, x = .i rd rs imm → imm.toNat < 32 → ok (.sat c p x) (clamped 1 rd (imm.toNat + 1) (r.rg rs).toInt))

/-- Compares, products and moves. A compare combines with its predicate as COMB says; p0 is never written, nor p3 in an engine (R225, R233). The products:
low and high word, the fractional product rounded to nearest and clamped, the accumulators at full width modulo 2^72 (R229 to R231, R234). MOV by its kind
(R235), MOVI and MOVH (R236). The supervisor stalls until both factors of a product have landed, and its result can be used two cycles late (R257). -/
def Obligations.AccordComparesProductsMoves : Prop :=
  (∀ (a : Nat) (x : Int) (r : Regs), (r.land (.accAdd a x)).ac a = ((r.ac a + x) % 2 ^ 72).toNat) ∧
  (∀ (c : Core) (p : Pred) (x : RI) (s : State), s.dev.Issues c p →
    let d := s.dev.seenBy c
    let r := d.regsOf c
    let ok (i : Instr) (l : List (Nat × Act)) : Prop := ∃ t, exec i s = .next t ∧ d.DoneBut c [] l t.dev
    let put (n : Nat) (v : Bool) : List (Nat × Act) := if n = 0 ∨ (c ≠ .supv ∧ n = 3) then [] else [(1, .pred n v)]
    let cmp (rd : Nat) (v : Bool) : List (Nat × Act) :=
      put (rd % 4) (match rd / 4 with | 0 => v | 1 => r.pr (rd % 4) && v | 2 => r.pr (rd % 4) || v | _ => !v)
    (∀ rd a b, riOps x r false 0 = some (rd, a, b, 0) → ok (.cmpeq c p x) (cmp rd (decide (a = b)))) ∧
    (∀ rd a b md, riOps x r false 1 = some (rd, a, b, md) →
      ok (.cmplt c p x) (cmp rd (if md = 1 then decide (a.toNat < b.toNat) else decide (a.toInt < b.toInt))) ∧
      ok (.cmple c p x) (cmp rd (if md = 1 then decide (a.toNat ≤ b.toNat) else decide (a.toInt ≤ b.toInt))) ∧
      ok (.mul c p x) [(3, .reg rd (if md = 1 then BitVec.ofInt 32 (a.toInt * b.toInt / 2 ^ 32) else a * b))]) ∧
    (c = .supv → ∀ (rd rs rt : Fin 16), let z := max (max d.sup.cyc (SMap.getD d.sup.rdy 0 rs)) (SMap.getD d.sup.rdy 0 rt)
      ∃ t, exec (.mul c p (.r rd rs rt 0)) s = .next t ∧ t.dev.sup.cyc = z + 1 ∧ SMap.getD t.dev.sup.rdy 0 rd = z + 3) ∧
    (∀ rd rs rt md, x = .r rd rs rt md → md = 0 ∨ md = 1 →
      let a := (r.rg rs).toInt; let b := (r.rg rt).toInt
      let lo (w : Word) : Int := (w.setWidth 16).toInt
      ok (.mulq c p x) (if md = 1 then clamped 3 rd 16 ((2 * lo (r.rg rs) * lo (r.rg rt) + 2 ^ 15) / 2 ^ 16)
        else clamped 3 rd 32 ((2 * a * b + 2 ^ 31) / 2 ^ 32)) ∧
      (rd.val < 4 → ok (.mac c p x) [(3, .accAdd rd (if md = 1 then 2 * (a * b) else a * b))] ∧
        ok (.msu c p x) [(3, .accAdd rd (-(if md = 1 then 2 * (a * b) else a * b)))])) ∧
    (∀ (rd rs : Fin 16) (kind sh : Nat), x = .r rd rs 0 (BitVec.ofNat 10 (kind + 16 * sh)) → sh < 64 →
      let w := r.rg rs; let v := r.ac rs
      (kind = 0 → sh = 0 → ok (.mov c p x) [(1, .reg rd w)]) ∧
      (kind = 1 → rs.val < 4 → ok (.mov c p x) (clamped 1 rd 32 (rndShift sh (accI v)))) ∧
      (kind = 2 → rd.val < 4 → sh ≤ 40 → ok (.mov c p x) [(1, .acc rd 0 72 (w.toInt * 2 ^ sh % 2 ^ 72).toNat)]) ∧
      (kind = 3 → sh = 0 → rd.val < 4 → rs = 0 → ok (.mov c p x) [(1, .acc rd 0 72 0)]) ∧
      (kind = 4 → sh = 0 → rs.val < 2 → ok (.mov c p x) [(1, .reg rd (BitVec.ofNat 32 (r.lp rs).idx))]) ∧
      (kind = 5 → sh = 0 → rs.val < 4 → ok (.mov c p x) [(1, .reg rd ((BitVec.ofNat 8 (v / 2 ^ 64)).signExtend 32))]) ∧
      (kind = 6 → sh = 0 → rs.val < 4 → ok (.mov c p x) [(1, .reg rd (BitVec.ofNat 32 v))]) ∧
      (kind = 7 → sh = 0 → rs.val < 4 → ok (.mov c p x) [(1, .reg rd (BitVec.ofNat 32 (v / 2 ^ 32)))]) ∧
      (kind = 8 → sh = 0 → rd.val < 4 → ok (.mov c p x) [(1, .acc rd 0 32 w.toNat)]) ∧
      (kind = 9 → sh = 0 → rd.val < 4 → ok (.mov c p x) [(1, .acc rd 32 32 w.toNat)]) ∧
      (kind = 10 → sh = 0 → rd.val < 4 → ok (.mov c p x) [(1, .acc rd 64 8 (w.toNat % 256))]) ∧
      (kind = 11 → sh = 0 → rs = 0 → ok (.mov c p x) [(1, .reg rd (BitVec.ofNat 32 (bitsOf 4 r.pr)))]) ∧
      (kind = 12 → sh = 0 → rd = 0 → ok (.mov c p x) (put 1 (w.getLsbD 1) ++ put 2 (w.getLsbD 2) ++ put 3 (w.getLsbD 3)))) ∧
    (∀ (rd : Fin 16) (imm : BitVec 19), ok (.movi c p rd imm) [(1, .reg rd (imm.signExtend 32))] ∧
      (imm.toNat < 65536 → ok (.movh c p rd imm) [(1, .reg rd (imm.setWidth 16 ++ (r.rg rd).setWidth 16))])))

/-- Loads and stores, the exchange memory and the input image. An engine's data memory has 32 KiB and wraps, its addresses lose the bits below their size; a load
lands two cycles later (R237, R238, R255), and reads before what the bus writes in its cycle (R240); LDX reads four cycles after its issue, STX writes then (R240); SMP reads the run's image (R247). The supervisor's
access is the bus access of its size: it completes with the datum, one cycle late from its own memories, where the access ends without an
error and leaves the core running (R239, R257). -/
def Obligations.AccordLoadsStores : Prop :=
  (∀ (n : Fin 8) (p : Pred) (x : MOp) (s : State), s.dev.Issues (.eng n) p →
    let d := s.dev.seenBy (.eng n)
    let r := (d.eng n).regs
    let put (i : Instr) (a w v : Nat) : Prop := ∃ t, exec i s = .next t ∧ d.Done (.eng n) [] t.dev ∧ memRead t.dev.mem a w = v % 256 ^ w ∧
      (∀ y, (y < a ∨ a + w ≤ y) → memByte t.dev.mem y = memByte d.mem y) ∧ (∀ y, y ≠ Reg.AECTL_EVT n → t.dev.rd y = d.rd y)
    d.EngClean n →
    ((d.eng n).busOld = [] → ∀ a w, w ≤ 4 → d.dataRead n a w = memRead d.mem a w) ∧
    (∀ a, mAddr x r 4 false = some a →
      let w := engBase n + 0x10000 + a % 0x8000 / 4 * 4
      (∃ t, exec (.ld (.eng n) p x) s = .next t ∧ d.DoneBut (.eng n) [] [(2, .reg x.rd (BitVec.ofNat 32 (d.dataRead n w 4)))] t.dev) ∧
      put (.st (.eng n) p x) w 4 (r.rg x.rd).toNat ∧
      (∃ t, exec (.ldx (.eng n) p x) s = .next t ∧ d.DoneBut (.eng n) [] [(4, .ldx x.rd (a % 65536 / 4 * 4))] t.dev) ∧
      (∃ t, exec (.stx (.eng n) p x) s = .next t ∧ d.DoneBut (.eng n) [] [] t.dev ∧
        t.dev.xq = insXq ((d.eng n).abs + 4, n.val, a % 65536 / 4 * 4, r.rg x.rd) d.xq)) ∧
    (∀ a, mAddr x r 2 true = some a →
      let b := engBase n + 0x10000 + a % 0x8000
      (∃ t, exec (.ldh (.eng n) p x) s = .next t ∧ d.DoneBut (.eng n) [] [(2, .reg x.rd (if x.ix = 3 then BitVec.ofNat 32 (d.dataRead n b 1)
        else (BitVec.ofNat 16 (d.dataRead n (b / 2 * 2) 2)).signExtend 32))] t.dev) ∧
      (if x.ix = 3 then put (.sth (.eng n) p x) b 1 (r.rg x.rd).toNat else put (.sth (.eng n) p x) (b / 2 * 2) 2 (r.rg x.rd).toNat)) ∧
    (∀ a, mAddr x r 32 false = some a →
      ∃ t, exec (.smp (.eng n) p x) s = .next t ∧ d.DoneBut (.eng n) [] [(2, .reg x.rd (d.imgWord (r.pr 3) a))] t.dev)) ∧
  (∀ (p : Pred) (x : MOp) (s : State), s.dev.Issues .supv p →
    let d := s.dev.seenBy .supv
    let r := d.sup.regs
    let lat (a : Nat) : Nat := if a < 0x10000000 ∨ 0xFFFF0000 ≤ a then 2 else 1
    let go (i : Instr) (src : List Nat) (a : Nat) (size : AccSize) (op : BusOp) (l : Word → List (Nat × Act)) : Prop :=
      let e := busAccess .supv a size op (d.supStall src)
      d.mpuData (op != .read) a = true → e.busResp.err = 0 → e.supRuns = true →
        ∃ t, exec i s = .next t ∧ e.DoneBut .supv [] (l e.busResp.data) t.dev
    (∀ a, mAddr x r 4 false = some a →
      go (.ld .supv p x) [x.rb] a .b32 .read (fun w => [(lat a, .reg x.rd w)]) ∧ go (.st .supv p x) [x.rb, x.rd] a .b32 (.write (r.rg x.rd)) (fun _ => [])) ∧
    (∀ a, mAddr x r 2 true = some a →
      if x.ix = 3 then go (.ldh .supv p x) [x.rb] a .b8 .read (fun w => [(lat a, .reg x.rd (w &&& 0xFF#32))]) ∧
        go (.sth .supv p x) [x.rb, x.rd] a .b8 (.write (r.rg x.rd &&& 0xFF#32)) (fun _ => [])
      else go (.ldh .supv p x) [x.rb] a .b16 .read (fun w => [(lat a, .reg x.rd ((w.setWidth 16).signExtend 32))]) ∧
        go (.sth .supv p x) [x.rb, x.rd] a .b16 (.write (r.rg x.rd &&& 0xFFFF#32)) (fun _ => [])))

/-- The engines' special instructions: tables, sections, ramps and blends with their rounding and latencies (R248 to R251), outputs on their way to the
staging, or late after OUT_PHASE (R26, R246), the trace of one armed buffer (R245, R284), the mailbox (R253), the sort units (R252, R283). -/
def Obligations.AccordSpecials : Prop :=
  ∀ (n : Fin 8) (p : Pred) (s : State), s.dev.Issues (.eng n) p → (s.dev.seenBy (.eng n)).EngClean n →
    (s.dev.seenBy (.eng n)).twin.shadowRun = false →
    let d := s.dev.seenBy (.eng n)
    let r := (d.eng n).regs
    let word (o : Nat) : Int := (BitVec.ofNat 32 (memRead d.mem (engBase n + o) 4)).toInt
    let long (o : Nat) : Int := (BitVec.ofNat 64 (memRead d.mem (engBase n + o) 8)).toInt
    let ok (i : Instr) (l : List (Nat × Act)) : Prop := ∃ t, exec i s = .next t ∧ d.DoneBut (.eng n) [] l t.dev
    (∀ (x : UOp) (k : Nat), ownBits x.low 3 = some k →
      let v := (r.rg x.rs).toInt
      let o := 0x20000 + 2048 * (d.fld (Reg.AECTL_LUT_MAP n) 8 8 / 4 ^ k % 4) + 8 * (v / 2 ^ 24 + 128).toNat
      ok (.lutg (.eng n) p x) (clamped 4 x.rd 32 (word o + (word (o + 4) * (v % 2 ^ 24) + 2 ^ 23) / 2 ^ 24))) ∧
    (∀ (x : UOp) (k : Nat), ownBits x.low 15 = some k →
      let o := 0x30000 + 64 * k
      let v := (r.rg x.rs).toInt
      let y := satN 32 ((word o * v + long (o + 24) + 2 ^ 29) / 2 ^ 30)
      let z1 := satN 64 (word (o + 4) * v - word (o + 12) * y.1 + long (o + 32))
      let z2 := satN 64 (word (o + 8) * v - word (o + 16) * y.1)
      ok (.biq (.eng n) p x) ([(8, .reg x.rd (BitVec.ofInt 32 y.1)), (8, .biq k z1.1 z2.1)] ++ if y.2 || z1.2 || z2.2 then [(1, .sat)] else [])) ∧
    (∀ (x : UOp) (q op : Nat), ownBits x.low 0x31F = some (q + 256 * op) → q < 32 →
      let o := 0x30600 + 16 * q
      let dl := max 0 (word (o + 8))
      let v := (r.rg x.rs).toInt
      let pos := if op = 0 then word o + max (-dl) (min dl (word (o + 4) - word o)) else if op = 1 then v else word o
      ∃ t, exec (.ramp (.eng n) p x) s = .next t ∧ d.Done (.eng n) [(2, .reg x.rd (BitVec.ofInt 32 pos))] t.dev ∧
        memRead t.dev.mem (engBase n + o) 4 = (BitVec.ofInt 32 pos).toNat ∧
        memRead t.dev.mem (engBase n + o + 4) 4 = (if op = 2 then (r.rg x.rs).toNat else memRead d.mem (engBase n + o + 4) 4) ∧
        memRead t.dev.mem (engBase n + o + 8) 4 = (if op = 3 then (max 0 v).toNat else memRead d.mem (engBase n + o + 8) 4)) ∧
    (∀ (rd rs rt : Fin 16) (md : BitVec 10) (b : Nat), ownBits md 7 = some b →
      let a := (r.rg rs).toInt
      ok (.blend (.eng n) p (.r rd rs rt md))
        (clamped 4 rd 32 (a + (((r.rg rt).toInt - a) * (memRead d.mem (engBase n + 0x30800 + 16 * b) 4 : Nat) + 2 ^ 30) / 2 ^ 31))) ∧
    (∀ (x : TOp) (b k : Nat), tBase x r = some b → ownBits x.low 0x1FF = some k →
      let v := r.rg x.rd
      let out (edge : Bool) (e : Dev) : Prop := (e.eng n).outLast = some (d.eng n).cyc ∧
        (if d.tb.outSkip = true ∨ (d.tb.outAt.isSome = true ∧ d.tb.engAt = none) then e.outQ = d.outQ ++ [⟨(d.eng n).abs + 8, n, edge, (b + k) % 512, v⟩] ∧ d.KeptBut [Reg.AECTL_EVT n] e
         else e.outQ = d.outQ ∧ e.bit (Reg.AECTL_EVT n) 2 = true ∧ d.KeptBut [Reg.AECTL_EVT n, Reg.AECTL_CNT_LATE n] e)
      (∃ t, exec (.ref (.eng n) p x) s = .next t ∧
        d.Done (.eng n) (if (v.toInt + 2 ^ 15) / 2 ^ 16 = 2 ^ 15 then [(1, .sat)] else []) t.dev ∧ out false t.dev) ∧
      (∃ t, exec (.edge (.eng n) p x) s = .next t ∧ d.Done (.eng n) [] t.dev ∧ out true t.dev)) ∧
    (∀ (x : UOp) (k : Nat) (b : Fin 8), x.rs = 0 → ownBits x.low 7 = some k →
      d.fld (Reg.SIL_CTL b) 0 8 = 1 + 4 * n.val + 32 * k → d.fld (Reg.SIL_CTL b) 8 8 = 0 → d.rd (Reg.SIL_STAT b) = 1 → d.fld (Reg.SIL_TRIG b) 0 3 = 0 →
      (d.sil b).trigP = false → (∀ j < 8, j ≠ b.val → d.bit (Reg.SIL_CTL j) 0 = false) →
      ∃ t, exec (.trc (.eng n) p x) s = .next t ∧ d.Done (.eng n) [] t.dev ∧
        memRead t.dev.mem (0x19000000 + 0x10000 * b.val + 4 * d.fld (Reg.SIL_TIDX b) 16 14) 4 = (r.rg x.rd).toNat ∧
        t.dev.fld (Reg.SIL_TIDX b) 16 14 = (d.fld (Reg.SIL_TIDX b) 16 14 + 1) % 16384 ∧ (t.dev.sil b).taken = (d.sil b).taken + 1 ∧
        t.dev.rd (Reg.SIL_STAT b) = 1) ∧
    (∀ (x : TOp) (b k : Nat), tBase x r = some b → ownBits x.low 0xFF = some k →
      ∃ t, exec (.xput (.eng n) p x) s = .next t ∧ d.DoneBut (.eng n) [] [] t.dev ∧
        SMap.getD (t.dev.eng n).stage 0 ((b + k) % 256) = r.rg x.rd ∧
        (∀ j, j ≠ (b + k) % 256 → SMap.getD (t.dev.eng n).stage 0 j = SMap.getD (d.eng n).stage 0 j)) ∧
    (∀ (x : TOp) (b k : Nat), tBase x r = some b → ownBits x.low 0x7FF = some k →
      ok (.xget (.eng n) p x) [(2, .reg x.rd (d.rd (Reg.AECTL_MBOX (k / 256) ((b + k) % 256))))]) ∧
    (∀ (x : TOp) (b u : Nat), tBase x r = some b → u < 2 → d.sortWindow n u = true → d.bit Reg.SORT_CTL u = true →
      (ownBits x.low 0x101 = some u → (d.sortU u).items.length < 48 → (∀ e ∈ (d.sortU u).items, e.1 ≠ b % 64) →
        ∃ t, exec (.sorts (.eng n) p x) s = .next t ∧ d.DoneBut (.eng n) [] [] t.dev ∧
          (t.dev.sortU u).items = (d.sortU u).items ++ [(b % 64, r.rg x.rd)]) ∧
      (ownBits x.low 0x101 = some (u + 256) → (d.sortU u).items = [] →
        ∃ t, exec (.sorts (.eng n) p x) s = .next t ∧ d.DoneBut (.eng n) [] [] t.dev ∧ (t.dev.sortU u).items = [] ∧
          (t.dev.sortU u).pend = (d.sortU u).pend ++ [((d.eng n).abs + 64, [b % 64])]) ∧
      (ownBits x.low 0x201 = some u → (d.sortU u).pend = [] →
        ok (.sortg (.eng n) p x) [(2, .reg x.rd (match (d.ranking u).drop (b % 64) with | i :: _ => BitVec.ofNat 32 i | [] => 0xFFFFFFFF#32))]))

/-- Control. Branches move the PC to their target and leave loops they jump out of; BL keeps the next address in g14; BX with a target that is no multiple of 4 raises
MISALIGNED (R259). LOOP starts its body on both cores, 0 meaning 65,536 rounds, and a round that is not the last goes back to the body's start (R241, R242). HALT
ends an engine's programme and, at system level, holds the supervisor (R244, R266). -/
def Obligations.AccordControl : Prop :=
  (∀ (p : Pred) (s : State), s.dev.Issues .supv p →
    let d := s.dev.seenBy .supv
    let go (i : Instr) (t : Nat) (r : Regs) : Prop := ∃ u, exec i s = .next u ∧ d.KeptBut [] u.dev ∧ u.dev.engs = d.engs ∧
      d.sup.cyc + 3 ≤ u.dev.sup.cyc ∧ u.dev.sup = { d.sup with pc := t, cyc := u.dev.sup.cyc, regs := { r with l0 := r.l0.leave t, l1 := r.l1.leave t } }
    let rel (off : Int) : Nat := (((d.sup.pc : Int) + 4 * off) % 2 ^ 32).toNat
    (∀ off, go (.b .supv p off) (rel off.toInt) d.sup.regs ∧
      go (.bl .supv p off) (rel off.toInt) (d.sup.regs.land (.reg 14 (BitVec.ofNat 32 (d.sup.pc + 4))))) ∧
    (∀ rs : Fin 16, if (d.sup.regs.rg rs).toNat % 4 = 0 then go (.bx .supv p rs 0) (d.sup.regs.rg rs).toNat d.sup.regs
      else ∃ t, exec (.bx .supv p rs 0) s = .next t ∧ t.dev.sysr 3 = 7 ∧ t.dev.sysr 2 = BitVec.ofNat 32 d.sup.pc ∧ t.dev.sysr 4 = d.sup.regs.rg rs ∧
        t.dev.sup.pc = ((d.sysr 5).toNat + 0x70) % 2 ^ 32) ∧
    (∀ (rs : Fin 16) (cond : Fin 4) (off : BitVec 17),
      let v := (d.sup.regs.rg rs).toInt
      if (match cond.val with | 0 => decide (v = 0) | 1 => decide (v ≠ 0) | 2 => decide (v < 0) | _ => decide (0 ≤ v)) = true
      then go (.bc .supv p rs cond off) (rel off.toInt) d.sup.regs
      else ∃ t, exec (.bc .supv p rs cond off) s = .next t ∧ d.DoneBut .supv [] [] t.dev) ∧
    (p = ⟨0, false⟩ → if d.sup.sys = true then ∃ t, exec (.halt .supv p 0) s = .next t ∧ t.dev.sup.hold = true ∧
        t.dev.sup.pc = (d.sup.regs.advance d.sup.pc ((d.sup.pc + 4) % 2 ^ 32)).2 ∧ d.KeptBut [] t.dev
      else ∃ t, exec (.halt .supv p 0) s = .next t ∧ d.Took 2 d.sup.pc 0 0 t.dev)) ∧
  (∀ (c : Core) (p : Pred) (x : LOp) (s : State) (k count len : Nat), s.dev.Issues c p →
    let d := s.dev.seenBy c
    let unit := if c = .supv then 4 else 1
    let pc := d.pcOf c
    loopParams x (c != .supv) (d.regsOf c) = some (k, count, len) → loopLegal (c != .supv) (d.regsOf c) k pc (pc + unit * len) = true →
    ∃ t, exec (.loop c p x) s = .next t ∧
      (t.dev.regsOf c).lp k = { act := true, beg := pc + unit, fin := pc + unit * len, rem := count, idx := 0, sup := false } ∧
      (t.dev.regsOf c).g = (d.regsOf c).g ∧ d.KeptBut [] t.dev ∧
      t.dev.pcOf c = (if c = .supv then (pc + 4) % 2 ^ 32 else pc + 1)) ∧
  (∀ (r : Regs) (pc succ : Nat), r.l0.act = true → r.l0.fin = pc → (r.l1.act = true → r.l1.fin ≠ pc) →
    (1 < r.l0.rem → r.advance pc succ = ({ r with l0 := { r.l0 with rem := r.l0.rem - 1, idx := r.l0.idx + 1 } }, r.l0.beg)) ∧
    (r.l0.rem ≤ 1 → (r.advance pc succ).2 = succ ∧ (r.advance pc succ).1.l0.act = false)) ∧
  (∀ (n : Fin 8) (s : State), s.dev.engGo n = true → s.dev.bit Reg.TWIN_CTL 0 = false → s.dev.role = 0 → s.dev.twin.shadowRun = false →
    (s.dev.eng n).pend = [] → s.dev.EngClean n → (s.dev.eng n).pc < 8192 →
    ∃ t, exec (.halt (.eng n) ⟨0, false⟩ 0) s = .next t ∧ t.dev.engRuns n = false ∧ (t.dev.eng n).halted = true ∧
      t.dev.rd (Reg.AECTL_CYC n) = BitVec.ofNat 32 (((s.dev.eng n).cyc + 1) % 2 ^ 17) ∧
      (s.dev.engBudget.1 < (s.dev.eng n).cyc + 1 → t.dev.bit (Reg.AECTL_EVT n) 4 = true) ∧
      s.dev.KeptBut [Reg.AECTL_STAT n, Reg.AECTL_EVT n, Reg.AECTL_CYC n, Reg.AECTL_BUDGET n, Reg.AECTL_OUTLIM n, Reg.AECTL_OUT_LAST n] t.dev)

/-- System instructions and illegal words. SYSC takes SYSCALL with the next address kept; ERET and the system registers are for system level, but for 0x020 to 0x023,
and raise PRIVILEGED at task level; ERET restores PSR, the loops and the PC (R258 to R262). An illegal word raises ILLEGAL in the supervisor (R264) and stops an
engine with the cause and the instruction in AECTL_OVR, the counter and FLT_AEn (R263, R268). A predicated instruction whose condition fails, or one of a suppressed
body, only moves on (R225, R243). -/
def Obligations.AccordSystem : Prop :=
  (∀ (p : Pred) (s : State), s.dev.Issues .supv p →
    let d := s.dev.seenBy .supv
    let took (i : Instr) : Prop := ∃ t, exec i s = .next t ∧ d.Took 2 d.sup.pc 0 0 t.dev
    (∀ x : BitVec 23, x.toNat < 65536 → ∃ t, exec (.sysc .supv p x) s = .next t ∧ d.supMoved.Took 8 d.supMoved.sup.pc 0 x.toNat t.dev) ∧
    (if d.sup.sys = true then ∃ t, exec (.eret .supv p 0) s = .next t ∧ t.dev.sup.pc = (d.sysr 2).toNat / 4 * 4 ∧
        t.dev.sup.sys = (d.sysr 1).getLsbD 0 ∧ t.dev.sup.ie = (d.sysr 1).getLsbD 1 ∧ t.dev.sup.satf = (d.sysr 1).getLsbD 5 ∧
        (∀ i, 1 ≤ i → i < 4 → t.dev.sup.regs.pr i = (d.sysr 1).getLsbD (1 + i)) ∧
        t.dev.sup.regs.l0 = d.sup.e0 ∧ t.dev.sup.regs.l1 = d.sup.e1 ∧ t.dev.sup.regs.g = d.sup.regs.g ∧ d.KeptBut [] t.dev
      else took (.eret .supv p 0)) ∧
    (∀ (r : Fin 16) (num : BitVec 12), sysrKnown num.toNat = true →
      (if d.sup.sys = true ∨ (0x20 ≤ num.toNat ∧ num.toNat < 0x24)
        then ∃ t, exec (.mfs .supv p r 0 num) s = .next t ∧ (Dev.mfsSide num.toNat d).DoneBut .supv [] [(1, .reg r (d.mfs num.toNat))] t.dev
        else took (.mfs .supv p r 0 num)) ∧
      (if d.sup.sys = true then ∃ t, exec (.mts .supv p r 0 num) s = .next t ∧ t.dev = (d.supStall [r.val]).supMoved.mts num.toNat (d.sup.regs.rg r) ∧
          (num.toNat = 2 → t.dev.sysr 2 = d.sup.regs.rg r) ∧ (num.toNat = 5 → t.dev.sysr 5 = d.sup.regs.rg r &&& 0xFFFFF800#32)
        else took (.mts .supv p r 0 num)))) ∧
  (∀ (w : Word) (s : State), decodeAccord .supv w = none → s.dev.CoreReady .supv →
    ∃ t, exec (.illegalInstruction .supv w) s = .next t ∧ (s.dev.seenBy .supv).Took 1 s.dev.sup.pc 0 0 t.dev) ∧
  (∀ (n : Fin 8) (w : Word) (s : State), decodeAccord (.eng n) w = none → s.dev.engGo n = true →
    ∃ t, exec (.illegalInstruction (.eng n) w) s = .next t ∧ t.dev.engRuns n = false ∧
      t.dev.rd (Reg.AECTL_OVR n) = BitVec.ofNat 32 (2 + (s.dev.eng n).pc * 65536) ∧
      t.dev.rd (Reg.AECTL_OVR_PER n) = BitVec.ofNat 32 (s.dev.eng n).per ∧ t.dev.bit (Reg.AECTL_EVT n) 0 = true ∧
      t.dev.fld (Reg.AECTL_CNT_OVR n) 0 32 = min (2 ^ 32 - 1) (s.dev.fld (Reg.AECTL_CNT_OVR n) 0 32 + 1) ∧
      (s.dev.srcEnabled (72 + n) = true → t.dev.srcPending (72 + n) = true)) ∧
  (∀ (c : Core) (p : Pred) (x : RI) (s : State), s.dev.CoreReady c → (riOps x ((s.dev.seenBy c).regsOf c) false 1).isSome = true →
    predHolds p ((s.dev.seenBy c).regsOf c) = false ∨ ((s.dev.seenBy c).regsOf c).suppressed = true →
    ∃ t, exec (.add c p x) s = .next t ∧ (s.dev.seenBy c).DoneBut c [] [] t.dev)

/-- Every Accord instruction, with every operand at every value its encoding admits, stands in its word without loss: decoding the word gives it back, for either
core (R224, R226, R227, R241, R245). -/
def Obligations.AccordWordRoundTrip : Prop :=
  ∀ (i : Instr) (w : Word), encodeAccord i = some w →
    (∃ c, decodeAccord c w = some i) ∧ ∀ c, ∃ j, decodeAccord c w = some j ∧ encodeAccord j = some w

/-! ### Engines, sort units, sillage -/

/-- The commands of an engine's control block. EN waits for the next ENG_START (R265). A swap, a tick or a blend is armed for its period where that period's
ENG_START is still to come and less than 2^31 periods ahead, else the write is refused with its event; a cancel disarms, but not in the clock of the swap it
missed (R269, R270, R273, R280, R281). LUT_MAP is staged (R276); loads and clears of sections wait for the next ENG_START (R279). -/
def Obligations.EngineCommands : Prop :=
  (∀ (m : Master) (n : Fin 8) (v : Word) (s : State), s.dev.BusOpen m (Reg.AECTL_CTL n) → ∃ t, exec (.aectlEnWrite m n v) s = .next t ∧
    t.dev.fld (Reg.AECTL_CTL n) 0 2 = fieldOf v 0 2 ∧ t.dev.engs = s.dev.engs ∧ s.dev.KeptBut [Reg.AECTL_CTL n] t.dev) ∧
  (∀ (m : Master) (n : Fin 8) (v : Word) (s : State), s.dev.BusOpen m (Reg.AECTL_SWAP n) → v.getLsbD 0 = true → ∃ t, exec (.swapArm m n v) s = .next t ∧
    (if v.getLsbD 1 = true then t.dev.bit (Reg.AECTL_EVT n) 9 = true ∧ t.dev.engs = s.dev.engs ∧ s.dev.KeptBut [Reg.AECTL_EVT n] t.dev
     else if s.dev.armOk (s.dev.rd (Reg.AECTL_SWAP_AT n)).toNat = true then t.dev.bit (Reg.AECTL_STAT n) 2 = true ∧
       (t.dev.eng n).swapAt = (s.dev.rd (Reg.AECTL_SWAP_AT n)).toNat ∧ s.dev.KeptBut [Reg.AECTL_STAT n] t.dev
     else t.dev.bit (Reg.AECTL_EVT n) 6 = true ∧ t.dev.engs = s.dev.engs ∧ s.dev.KeptBut [Reg.AECTL_EVT n] t.dev)) ∧
  (∀ (m : Master) (n : Fin 8) (v : Word) (s : State), s.dev.BusOpen m (Reg.AECTL_SWAP n) → v.getLsbD 0 = false → v.getLsbD 1 = true →
    ∃ t, exec (.swapCancel m n v) s = .next t ∧ t.dev.engs = s.dev.engs ∧
      (if s.dev.bit (Reg.AECTL_EVT n) 5 = true ∧ (s.dev.eng n).swapAt = s.dev.tb.k ∧ s.dev.tb.inPeriod = true ∧ s.dev.tb.engAt = none ∧
          s.dev.now = s.dev.tb.bnd + s.dev.tb.engStart
       then t.dev.bit (Reg.AECTL_EVT n) 6 = true ∧ s.dev.KeptBut [Reg.AECTL_EVT n] t.dev
       else t.dev.bit (Reg.AECTL_STAT n) 2 = false ∧ s.dev.KeptBut [Reg.AECTL_STAT n] t.dev)) ∧
  (∀ (m : Master) (n : Fin 8) (v : Word) (s : State), s.dev.BusOpen m (Reg.AECTL_TICK n) → v.getLsbD 8 = true →
    ∃ t, exec (.tickArm m n v) s = .next t ∧
      (if s.dev.armOk (s.dev.rd (Reg.AECTL_TICK_AT n)).toNat = true then t.dev.fld (Reg.AECTL_TICK n) 0 8 = fieldOf v 0 8 ∧
         t.dev.bit (Reg.AECTL_STAT n) 3 = true ∧ (t.dev.eng n).tickAt = (s.dev.rd (Reg.AECTL_TICK_AT n)).toNat ∧
         s.dev.KeptBut [Reg.AECTL_TICK n, Reg.AECTL_STAT n] t.dev
       else t.dev.bit (Reg.AECTL_EVT n) 9 = true ∧ t.dev.engs = s.dev.engs ∧ s.dev.KeptBut [Reg.AECTL_EVT n] t.dev)) ∧
  (∀ (m : Master) (n : Fin 8) (v : Word) (s : State), s.dev.BusOpen m (Reg.AECTL_LUT_MAP n) → ∃ t, exec (.lutMapWrite m n v) s = .next t ∧
    t.dev.fld (Reg.AECTL_LUT_MAP n) 0 8 = fieldOf v 0 8 ∧ t.dev.fld (Reg.AECTL_LUT_MAP n) 8 8 = s.dev.fld (Reg.AECTL_LUT_MAP n) 8 8 ∧
    t.dev.engs = s.dev.engs ∧ s.dev.KeptBut [Reg.AECTL_LUT_MAP n] t.dev) ∧
  (∀ (m : Master) (n : Fin 8) (v : Word) (s : State), s.dev.BusOpen m (Reg.AECTL_BIQ_LOAD n) →
    (∃ t, exec (.biqLoad m n v) s = .next t ∧ t.dev.rd (Reg.AECTL_BIQ_LOAD n) = (s.dev.rd (Reg.AECTL_BIQ_LOAD n) ||| (v &&& 0xFFFF#32)) ∧
      t.dev.engs = s.dev.engs ∧ s.dev.KeptBut [Reg.AECTL_BIQ_LOAD n] t.dev) ∧
    (∃ t, exec (.biqZclr m n v) s = .next t ∧ t.dev.rd (Reg.AECTL_BIQ_ZCLR n) = (s.dev.rd (Reg.AECTL_BIQ_ZCLR n) ||| (v &&& 0xFFFF#32)) ∧
      t.dev.engs = s.dev.engs ∧ s.dev.KeptBut [Reg.AECTL_BIQ_ZCLR n] t.dev)) ∧
  (∀ (m : Master) (n b : Fin 8) (v : Word) (s : State), s.dev.BusOpen m (Reg.AECTL_BLEND n b) →
    let len := max 1 (fieldOf v 0 16)
    (v.getLsbD 16 = true → ∃ t, exec (.blendArm m n b v) s = .next t ∧
      (if v.getLsbD 17 = false ∧ s.dev.armOk (s.dev.rd (Reg.AECTL_BLEND_AT n b)).toNat = true
       then t.dev.rd (Reg.AECTL_BLEND n b) = BitVec.ofNat 32 len ∧ t.dev.bit (Reg.AECTL_STAT n) (8 + b) = true ∧
         (SMap.getD (t.dev.eng n).blends {} b).armM = len ∧ (SMap.getD (t.dev.eng n).blends {} b).armAt = (s.dev.rd (Reg.AECTL_BLEND_AT n b)).toNat ∧
         s.dev.KeptBut [Reg.AECTL_BLEND n b, Reg.AECTL_STAT n] t.dev
       else t.dev.bit (Reg.AECTL_EVT n) 9 = true ∧ t.dev.engs = s.dev.engs ∧ s.dev.KeptBut [Reg.AECTL_EVT n] t.dev)) ∧
    (v.getLsbD 16 = false → v.getLsbD 17 = true → ∃ t, exec (.blendCancel m n b v) s = .next t ∧ t.dev.rd (Reg.AECTL_BLEND n b) = BitVec.ofNat 32 len ∧
      t.dev.bit (Reg.AECTL_STAT n) (8 + b) = false ∧ t.dev.bit (Reg.AECTL_STAT n) (16 + b) = false ∧ t.dev.engs = s.dev.engs ∧
      s.dev.KeptBut [Reg.AECTL_BLEND n b, Reg.AECTL_STAT n] t.dev))

/-- Sort units and sillage buffers. The oldest ranking in the making becomes visible and is counted (R283). A window write that would leave an enabled window empty
or two enabled windows of a unit overlapping is refused (R282). A sillage buffer takes a new SIL_CTL only while it does not capture; ARM with EN starts afresh, in
stream mode where MODE says so, and is refused without EN; FORCE triggers an ARMED buffer only; STOP idles it (R284, R285, R287, R288). -/
def Obligations.SortAndSillage : Prop :=
  (∀ (u : Fin 2) (c : Nat) (l : List Nat) (rest : List (Nat × List Nat)) (s : State), (s.dev.sortU u).pend = (c, l) :: rest →
    ∃ t, exec (.sortRankingDone u) s = .next t ∧ (t.dev.sortU u).pend = rest ∧ (t.dev.sortU u).items = (s.dev.sortU u).items ∧
      (∀ r < 48, t.dev.rd (Reg.SORT_RANK u r) = (match l.drop r with | i :: _ => BitVec.ofNat 32 (i + 2 ^ 31) | [] => 0)) ∧
      t.dev.fld (Reg.SORT_CNT u) 0 32 = min (2 ^ 32 - 1) (s.dev.fld (Reg.SORT_CNT u) 0 32 + 1) ∧ t.dev.mem = s.dev.mem) ∧
  (∀ (m : Master) (u : Fin 2) (j : Fin 8) (range : Bool) (v : Word) (s : State),
    let reg := if range then Reg.SORT_WRNG u j else Reg.SORT_WCTL u j
    let en (i : Nat) : Bool := if i = j.val ∧ range = false then v.getLsbD 0 else s.dev.bit (Reg.SORT_WCTL u i) 0
    let lo (i : Nat) : Nat := if i = j.val ∧ range = true then fieldOf v 0 16 else s.dev.fld (Reg.SORT_WRNG u i) 0 16
    let hi (i : Nat) : Nat := if i = j.val ∧ range = true then fieldOf v 16 16 else s.dev.fld (Reg.SORT_WRNG u i) 16 16
    s.dev.BusOpen m reg → ∃ t, exec (.sortWindowWrite m u j range v) s = .next t ∧ t.dev.sorts = s.dev.sorts ∧
      let bad : Prop := en j = true ∧ (hi j ≤ lo j ∨ ∃ i < 8, i ≠ j.val ∧ en i = true ∧ lo j < hi i ∧ lo i < hi j)
      (bad → t.dev.bit Reg.SORT_EVT 2 = true ∧ s.dev.KeptBut [Reg.SORT_EVT] t.dev) ∧
      (¬ bad → (range = true → t.dev.rd reg = v) ∧ (range = false → t.dev.fld reg 0 4 = fieldOf v 0 4) ∧ s.dev.KeptBut [reg] t.dev)) ∧
  (∀ (m : Master) (b : Fin 8) (v : Word) (s : State), s.dev.BusOpen m (Reg.SIL_CTL b) → ∃ t, exec (.silCtlWrite m b v) s = .next t ∧ t.dev.sils = s.dev.sils ∧
    (if s.dev.silState b = 1 ∨ s.dev.silState b = 2 ∨ s.dev.silStream b = true then t.dev.bit Reg.SIL_EVT 16 = true ∧ s.dev.KeptBut [Reg.SIL_EVT] t.dev
     else t.dev.fld (Reg.SIL_CTL b) 0 16 = fieldOf v 0 16 ∧ s.dev.KeptBut [Reg.SIL_CTL b] t.dev)) ∧
  (∀ (m : Master) (b : Fin 8) (v : Word) (s : State), s.dev.BusOpen m (Reg.SIL_CMD b) →
    (v.getLsbD 0 = true → v.getLsbD 1 = false → v.getLsbD 2 = false → ∃ t, exec (.silArm m b v) s = .next t ∧
      (if s.dev.bit (Reg.SIL_CTL b) 0 = true then t.dev.rd (Reg.SIL_STAT b) = (if s.dev.bit (Reg.SIL_CTL b) 1 = true then 4 else 1) ∧
         t.dev.rd (Reg.SIL_TIDX b) = 0 ∧ t.dev.sil b = {} ∧ s.dev.KeptBut [Reg.SIL_STAT b, Reg.SIL_TIDX b] t.dev
       else t.dev.bit Reg.SIL_EVT 16 = true ∧ t.dev.sils = s.dev.sils ∧ s.dev.KeptBut [Reg.SIL_EVT] t.dev)) ∧
    (v.getLsbD 0 = false → v.getLsbD 1 = true → v.getLsbD 2 = false → ∃ t, exec (.silForce m b v) s = .next t ∧ s.dev.KeptBut [] t.dev ∧
      t.dev.sil b = (if s.dev.silState b = 1 then { s.dev.sil b with trigP := true } else s.dev.sil b)) ∧
    (v.getLsbD 2 = true → ∃ t, exec (.silStop m b v) s = .next t ∧ t.dev.rd (Reg.SIL_STAT b) = 0 ∧ t.dev.sil b = {} ∧
      s.dev.KeptBut [Reg.SIL_STAT b] t.dev))

/-! ### Measurement -/

/-- The sequence of a converter group. A COMMIT is refused with its event where the staged table holds something illegal, and leaves an accepted one as it is;
else the staged table as it has been checked waits for the start of entry 0 (R298, R299). Clearing EN abandons the pass (R300); CAL_VIS is for the SV9144-FE only (R303). The
metering mask is sealed on the FM, and on the FE takes the results of its channels out of the system domain (R301, R303). A restart, once in a period at its offset, cuts a
pass that has not ended and starts at entry 0, or waits for injections and a calibration (R297, R308). A conversion of 2.5 V full scale, of 0 and 0.625 V on channels 24
and 25, rounded and clamped to 16 bits, is the result of the oldest injected request in a slot for it, or of the entry in progress with its stamp, behind which its DLY
runs; in a delay slot there is none (R293, R294, R296, R302, R307). A millisecond without a comparison shows and is raised (R313). Which COMMIT stands is the model's
choice (notes/assumptions/88), and so are the restart instant and the codes of channels 24 and 25 (87, 90). -/
def Obligations.ConverterSequence : Prop :=
  (∀ (m : Master) (g : Fin 2) (v : Word) (s : State), s.dev.BusOpen m (Reg.ADC_SEQ_CTL g) → v.getLsbD 8 = true → ∃ t, exec (.commit m g v) s = .next t ∧
    t.dev.fld (Reg.ADC_SEQ_CTL g) 0 5 = fieldOf v 0 5 ∧ t.dev.fld (Reg.ADC_SEQ_CTL g) 16 16 = fieldOf v 16 16 ∧
    (if s.dev.tableBad g = true then t.dev.bit (Reg.ADC_EVT g) 9 = true ∧ t.dev.adcs = s.dev.adcs
     else (t.dev.adc g).commitP = true ∧ (t.dev.adc g).commitAt = s.dev.now ∧ (t.dev.adc g).nextLast = fieldOf v 0 5 ∧
       (t.dev.adc g).nextOfs = fieldOf v 16 16 ∧ (∀ e < 32, SMap.getD (t.dev.adc g).nextT 0 e = s.dev.rd (Reg.ADC_SEQ g e)) ∧
       (t.dev.adc g).act = (s.dev.adc g).act ∧ (t.dev.adc g).going = (s.dev.adc g).going ∧ (t.dev.adc g).inj = (s.dev.adc g).inj) ∧
    s.dev.KeptBut [Reg.ADC_SEQ_CTL g, Reg.ADC_EVT g] t.dev) ∧
  (∀ (m : Master) (g : Fin 2) (v : Word) (s : State), s.dev.BusOpen m (Reg.ADC_CTL g) → ∃ t, exec (.adcCtlWrite m g v) s = .next t ∧
    (if s.dev.fm = true ∧ v.getLsbD 2 = true then t.dev.bit (Reg.ADC_EVT g) 9 = true ∧ s.dev.KeptBut [Reg.ADC_EVT g] t.dev
     else t.dev.fld (Reg.ADC_CTL g) 0 4 = fieldOf v 0 4 ∧ s.dev.KeptBut [Reg.ADC_CTL g, Reg.ADC_STAT g, Reg.ADC_EVT g] t.dev ∧
       (v.getLsbD 0 = false → (t.dev.adc g).going = false ∧ (t.dev.adc g).e = 0 ∧ (t.dev.adc g).rep = 0 ∧ (t.dev.adc g).rstP = false ∧
         t.dev.bit (Reg.ADC_STAT g) 0 = false) ∧
       (v.getLsbD 0 = true → v.getLsbD 1 = false → (t.dev.adc g).going = true) ∧
       (v.getLsbD 0 = true → v.getLsbD 1 = true → (t.dev.adc g).going = (s.dev.adc g).going))) ∧
  (∀ (m : Master) (g : Fin 2) (v : Word) (s : State), s.dev.BusOpen m (Reg.ADC_MET_MASK g) → ∃ t, exec (.adcMetMaskWrite m g v) s = .next t ∧
    (if s.dev.fm = true then t.dev.rd (Reg.ADC_MET_MASK g) = s.dev.rd (Reg.ADC_MET_MASK g) ∧
       (s.dev.srcEnabled 96 = true → t.dev.srcPending 96 = true) ∧ (s.dev.domainOn 7 = true → t.dev.bit Reg.MET_EVT 6 = true)
     else t.dev.fld (Reg.ADC_MET_MASK g) 0 24 = fieldOf v 0 24 ∧ s.dev.KeptBut [Reg.ADC_MET_MASK g] t.dev ∧
       ∀ e < 32, t.dev.isMetCh g (fieldOf (s.dev.actEntry g e) 0 5) = true → SMap.getD (t.dev.adc g).snap (0, 0) e = (0, 0))) ∧
  (∀ (g : Fin 2) (s : State), s.dev.domainOn 6 = true → s.dev.bit (Reg.ADC_CTL g) 0 = true → s.dev.bit (Reg.ADC_CTL g) 1 = true → s.dev.tb.inPeriod = true →
    (s.dev.adc g).rstOf ≠ some s.dev.tb.bnd → s.dev.restartAt g ≤ s.dev.nextSeq →
    ∃ t, exec (.sequenceRestart g) s = .next t ∧ t.dev.now = max s.dev.now (s.dev.restartAt g) ∧ (t.dev.adc g).rstOf = some s.dev.tb.bnd ∧
      (if (s.dev.adc g).inj = [] ∧ (s.dev.adc g).cal ≠ 2
       then (t.dev.adc g).going = true ∧ (t.dev.adc g).e = 0 ∧ (t.dev.adc g).rep = 0 ∧ (t.dev.adc g).rstP = false ∧
         t.dev.fld (Reg.ADC_CNT_CUT g) 0 32 = (if (s.dev.adc g).going = true then min (2 ^ 32 - 1) (s.dev.fld (Reg.ADC_CNT_CUT g) 0 32 + 1)
           else s.dev.fld (Reg.ADC_CNT_CUT g) 0 32) ∧
         (if (s.dev.adc g).commitP = true ∧ (s.dev.adc g).commitAt / 10 < t.dev.now / 10
          then (t.dev.adc g).commitP = false ∧ (t.dev.adc g).act = (s.dev.adc g).nextT ∧ (t.dev.adc g).last = (s.dev.adc g).nextLast ∧
            (t.dev.adc g).rstOfs = (s.dev.adc g).nextOfs ∧ t.dev.bit (Reg.ADC_EVT g) 10 = true
          else (t.dev.adc g).commitP = (s.dev.adc g).commitP ∧ (t.dev.adc g).act = (s.dev.adc g).act)
       else t.dev.adc g = { s.dev.adc g with rstP := true, rstOf := some s.dev.tb.bnd } ∧ s.dev.KeptBut [Reg.ADC_STAT g] t.dev)) ∧
  (∀ (g : Fin 2) (uv : Int) (stamp : Nat) (s : State), s.dev.ConvRuns → s.dev.DueOrStill (stamp + 240) →
    let code (ch : Nat) : Int := max (-32768) (min 32767 ((2 * (65536 * (if ch = 24 then 0 else if ch = 25 then 625000 else uv)) + 2500000) / 5000000))
    let w (ch : Nat) : Word := BitVec.ofNat 32 ((code ch % 65536).toNat + 2 ^ 31)
    (∀ ch tag q rest, (s.dev.adc g).inj = (ch, tag, q) :: rest → tag < 4 → (s.dev.adc g).injSlot q stamp = true →
      ∃ t, exec (.conversionComplete g uv stamp) s = .next t ∧
      t.dev.rd (Reg.ADC_INJ_RES g tag) = w ch ∧ t.dev.rd (Reg.ADC_INJ_TS g tag) = BitVec.ofNat 32 stamp ∧ t.dev.bit (Reg.ADC_EVT g) 3 = true ∧
      (t.dev.adc g).inj = rest) ∧
    (∀ e x, (∀ r ∈ (s.dev.adc g).inj.head?, (s.dev.adc g).injSlot r.2.2 stamp = false) → s.dev.bit (Reg.ADC_CTL g) 0 = true → (s.dev.adc g).going = true →
      (s.dev.adc g).dlyTo ≤ stamp → ((s.dev.adc g).cal = 2 → stamp < (s.dev.adc g).calAt) →
      (s.dev.adc g).commitP = false → (s.dev.adc g).e = e → e < 32 → s.dev.actEntry g e = x → fieldOf x 5 2 = 0 → repOf x = 1 →
      s.dev.isMetCh g (fieldOf x 0 5) = false → ∃ t, exec (.conversionComplete g uv stamp) s = .next t ∧
        t.dev.rd (Reg.ADC_RES g e) = w (fieldOf x 0 5) ∧ t.dev.rd (Reg.ADC_TS g e) = BitVec.ofNat 32 stamp ∧
        (t.dev.adc g).e = (if e < (s.dev.adc g).last then e + 1 else 0) ∧ (t.dev.adc g).rep = 0 ∧
        (t.dev.adc g).dlyTo = (if fieldOf x 16 10 = 0 then 0 else stamp + 50 * (1 + fieldOf x 16 10)) ∧
        (t.dev.adc g).going = (decide (e < (s.dev.adc g).last) || !s.dev.bit (Reg.ADC_CTL g) 1) ∧ t.dev.mem = s.dev.mem) ∧
    ((s.dev.adc g).inj = [] → stamp < (s.dev.adc g).dlyTo → ∃ t, exec (.conversionComplete g uv stamp) s = .next t ∧ t.dev.adcs = s.dev.adcs ∧
      s.dev.KeptBut [Reg.ADC_STAT g] t.dev)) ∧
  (∀ s : State, s.dev.domainOn 6 = true → s.dev.bit (Reg.ADC_PLAUS 0) 7 = true → s.dev.bit (Reg.ADC_CTL 0) 0 = true → s.dev.bit (Reg.ADC_CTL 1) 0 = true →
    s.dev.fc.level.getLsbD 82 = false → s.dev.DueOrStill ((s.dev.adc 0).plausAt + 1000000) →
    ∃ t, exec .plausStale s = .next t ∧ t.dev.bit (Reg.ADC_EVT 0) 8 = true ∧ t.dev.fc.level.getLsbD 82 = true ∧
      (s.dev.srcEnabled 82 = true → t.dev.srcPending 82 = true))

/-- Injections, accumulators and calibration. A request for a channel past 25, or for a metering channel of the FM, is refused; a fifth one finds the queue full; both are
counted; one queued in the converter clock of a calibration's start goes before it; the valley or peak of the selected carrier makes a triggered request the same way
(R306, R310). A latch copies sum and count of every entry and clears them (R305). A background correction moves each correction one step at most within its range, and no
sooner again than 2^18 conversions of the slice; it holds without a slope or without a free slot for 2^16 slots (R295). A calibration waits for the queue, with the
reference settling for 80 us at most (a free value, notes/assumptions/89), and ends, once no request waits for a slot between two chunks, with its corrections where each
lies in its range, else with FLT_ADC_CAL (R309 to R311). -/
def Obligations.ConverterService : Prop :=
  (∀ (m : Master) (g : Fin 2) (v : Word) (s : State), s.dev.BusOpen m (Reg.ADC_ACC_LATCH g) → v.getLsbD 0 = true → ∃ t, exec (.adcAccLatch m g v) s = .next t ∧
    (t.dev.adc g).accs = [] ∧ (∀ e < 32,
      let x := SMap.getD (s.dev.adc g).accs {} e
      t.dev.rd (Reg.ADC_ACC_CNT g e) = BitVec.ofNat 32 x.cnt ∧ t.dev.rd (Reg.ADC_ACC_LO g e) = BitVec.ofInt 32 x.sum ∧
      t.dev.rd (Reg.ADC_ACC_HI g e) = BitVec.ofNat 32 ((x.sum % 2 ^ 48).toNat / 2 ^ 32) ∧
      (x.cnt ≠ 0 → t.dev.fld (Reg.ADC_ACC_MM g e) 0 16 = (x.mn % 2 ^ 16).toNat ∧ t.dev.fld (Reg.ADC_ACC_MM g e) 16 16 = (x.mx % 2 ^ 16).toNat)) ∧
    t.dev.mem = s.dev.mem) ∧
  (∀ (m : Master) (g : Fin 2) (v : Word) (peak : Bool) (s : State),
    let took (ch tag : Nat) (i : Instr) (was : Adc) : Prop := ∃ t, exec i s = .next t ∧
      (if 26 ≤ ch ∨ (s.dev.fm = true ∧ s.dev.isMetCh g ch = true) then t.dev.bit (Reg.ADC_EVT g) 2 = true ∧ t.dev.adc g = was ∧
         t.dev.fld (Reg.ADC_CNT_INJREF g) 0 32 = min (2 ^ 32 - 1) (s.dev.fld (Reg.ADC_CNT_INJREF g) 0 32 + 1)
       else if 4 ≤ was.inj.length then t.dev.bit (Reg.ADC_EVT g) 1 = true ∧ t.dev.adc g = was ∧
         t.dev.fld (Reg.ADC_CNT_INJREF g) 0 32 = min (2 ^ 32 - 1) (s.dev.fld (Reg.ADC_CNT_INJREF g) 0 32 + 1)
       else if was.cal ≠ 0 ∧ was.startAt / 10 = t.dev.now / 10
       then t.dev.adc g = { was with inj := was.inj ++ [(ch, tag, t.dev.now)], cal := 1, calWait := was.inj.length + 1 } ∧ s.dev.KeptBut [Reg.ADC_STAT g] t.dev
       else t.dev.adc g = { was with inj := was.inj ++ [(ch, tag, t.dev.now)] } ∧ s.dev.KeptBut [Reg.ADC_STAT g] t.dev)
    (s.dev.BusOpen m (Reg.ADC_INJ g) → took (fieldOf v 0 5) (fieldOf v 8 2) (.adcInj m g v) (s.dev.adc g)) ∧
    (∀ p, s.dev.carrierPoint (s.dev.fld (Reg.ADC_INJ_TRIG g) 1 3) peak (max s.dev.now (s.dev.adc g).trigAt) = some p →
      s.dev.domainOn 6 = true → s.dev.domainOn 4 = true → s.dev.bit (Reg.ADC_INJ_TRIG g) 0 = true →
      s.dev.bit (Reg.ADC_INJ_TRIG g) (if peak then 5 else 4) = true → s.dev.Due p →
      took (s.dev.fld (Reg.ADC_INJ_TRIG g) 8 5) (s.dev.fld (Reg.ADC_INJ_TRIG g) 16 2) (.injTrigger g peak) { s.dev.adc g with trigAt := p + 1 })) ∧
  (∀ (g : Fin 2) (sl : Fin 4) (a b c : Int) (slope : Bool) (s : State), s.dev.domainOn 6 = true → s.dev.bit (Reg.ADC_CTL g) 3 = true →
    ∃ t, exec (.bgCorrection g sl a b c slope) s = .next t ∧
      (if slope = false ∨ s.dev.noFreeSlot g = true then t.dev.bit (Reg.ADC_STAT g) 4 = true ∧ s.dev.KeptBut [Reg.ADC_STAT g] t.dev
       else if SMap.getD (s.dev.adc g).bgAt 0 sl ≠ 0 ∧ s.dev.now + 1 < SMap.getD (s.dev.adc g).bgAt 0 sl + 52428800 then s.dev.KeptBut [] t.dev
       else t.dev.bit (Reg.ADC_STAT g) 4 = false ∧ SMap.getD (t.dev.adc g).bgAt 0 sl = s.dev.now + 1 ∧
         ∀ i < 3, t.dev.slice g sl i = clampI (sliceLo i) (sliceHi i)
           (s.dev.slice g sl i + max (-1) (min 1 (if i = 0 then a else if i = 1 then b else c))))) ∧
  (∀ (m : Master) (g : Fin 2) (v : Word) (s : State), s.dev.BusOpen m (Reg.ADC_CAL g) → v.getLsbD 0 = true → ∃ t, exec (.adcCalStart m g v) s = .next t ∧
    (if (s.dev.adc g).cal ≠ 0 then t.dev.bit (Reg.ADC_EVT g) 9 = true ∧ t.dev.adcs = s.dev.adcs
     else (t.dev.adc g).cal = (if (s.dev.adc g).inj = [] then 2 else 1) ∧ (t.dev.adc g).calWait = (s.dev.adc g).inj.length ∧
       (t.dev.adc g).inj = (s.dev.adc g).inj ∧ (t.dev.adc g).startAt = s.dev.now ∧
       ((s.dev.adc g).inj = [] → s.dev.now ≤ (t.dev.adc g).calAt ∧ (t.dev.adc g).calAt ≤ s.dev.now + 80000 ∧ (t.dev.adc g).chunks = 0))) ∧
  (∀ (g : Fin 2) (ofs gain skew : List Int) (s : State), s.dev.ConvRuns → (s.dev.adc g).cal = 2 → (∀ r ∈ (s.dev.adc g).inj, s.dev.now < r.2.2 + 3210) →
    let val (i k : Nat) : Int := ((if i = 0 then ofs else if i = 1 then gain else skew).drop k).headD 0
    ∃ t, exec (.adcCalDone g ofs gain skew) s = .next t ∧ (t.dev.adc g).cal = 0 ∧ (t.dev.adc g).chunks = 1536 ∧
      ((∀ i < 3, ∀ k < 4, sliceLo i ≤ val i k ∧ val i k ≤ sliceHi i) → t.dev.bit (Reg.ADC_STAT g) 3 = true ∧ t.dev.bit (Reg.ADC_EVT g) 4 = true ∧
        ∀ i < 3, ∀ k < 4, t.dev.slice g k i = val i k) ∧
      (¬ (∀ i < 3, ∀ k < 4, sliceLo i ≤ val i k ∧ val i k ≤ sliceHi i) → t.dev.bit (Reg.ADC_STAT g) 3 = false ∧ t.dev.bit (Reg.ADC_EVT g) 5 = true ∧
        (s.dev.srcEnabled 83 = true → t.dev.srcPending 83 = true)))

/-- Fast comparators and die temperature. A half asserts where its input has been beyond the thresholds that it has in force for the filter's time, and releases where it has been inside them by
the hysteresis, which the filter holds back too (DEDUCED, notes/assumptions/91; R314). The output asserts while a guarding half does, on an enabled comparator; its assertion counts, sets its event and raises FLT_CMPn
(R214, R315). New thresholds go to the masked shadow half, then to the main one, which is masked in turn (R316). Guarding halves that differ raise FLT_CMP_DIAG (R317); a self-test
isolates the shadow half first and ends with its result (R318, R319). A reading at or above the limit twice sets OVER and FLT_TEMP (R320 to R322); two broken readings set
BROKEN; a rate above RISE raises FLT_TEMP_RATE (R323); TMON_LIM takes limits from -40 to +130 degrees only. -/
def Obligations.ComparatorsAndTemperature : Prop :=
  (∀ (n : Fin 8) (h : Half) (uv : Int) (held : Nat) (s : State), s.dev.pwr.safeOn = true →
    let out (on : Bool) : Bool := s.dev.bit Reg.CMP_CTL n &&
      (((if h = .main then on else s.dev.bit Reg.CMP_STAT (8 + n)) && !s.dev.cmp.maskM.getLsbD n) ||
       ((if h = .shadow then on else s.dev.bit Reg.CMP_STAT (16 + n)) && !s.dev.cmp.maskS.getLsbD n))
    (s.dev.fld (Reg.CMP_CFG n) 8 8 ≤ held → s.dev.cmpBeyond n h uv 0 = true → ∃ t, exec (.comparatorAssert n ⟨h, uv, held⟩) s = .next t ∧ t.dev.bit Reg.CMP_STAT (if h = .main then 8 + n else 16 + n) = true ∧ t.dev.bit Reg.CMP_STAT n = out true ∧
      (out true = true → s.dev.bit Reg.CMP_STAT n = false → t.dev.bit Reg.CMP_EVT n = true ∧
        t.dev.fld (Reg.CMP_CNT n) 0 32 = min (2 ^ 32 - 1) (s.dev.fld (Reg.CMP_CNT n) 0 32 + 1) ∧
        (s.dev.bit Reg.CMP_CTL (8 + n) = true → s.dev.srcEnabled (40 + n) = true → t.dev.srcPending (40 + n) = true)) ∧
      (out true = s.dev.bit Reg.CMP_STAT n → s.dev.KeptBut [Reg.CMP_STAT] t.dev)) ∧
    (s.dev.fld (Reg.CMP_CFG n) 8 8 ≤ held → s.dev.cmpBeyond n h uv (-s.dev.cmpHyst n) = false → ∃ t, exec (.comparatorRelease n ⟨h, uv, held⟩) s = .next t ∧
      t.dev.bit Reg.CMP_STAT (if h = .main then 8 + n else 16 + n) = false ∧ t.dev.bit Reg.CMP_STAT n = out false) ∧
    (held < s.dev.fld (Reg.CMP_CFG n) 8 8 → (∃ t, exec (.comparatorAssert n ⟨h, uv, held⟩) s = .next t ∧ t.dev = s.dev) ∧
      ∃ t, exec (.comparatorRelease n ⟨h, uv, held⟩) s = .next t ∧ t.dev = s.dev)) ∧
  (∀ (m : Master) (n : Fin 8) (v : Word) (s : State), s.dev.BusOpen m (Reg.CMP_TH n) → ∃ t, exec (.cmpThWrite m n v) s = .next t ∧
    (if s.dev.cmp.thP.getLsbD n = true ∨ s.dev.cmpTesting n = true ∨ fieldOf v 16 10 ≤ fieldOf v 0 10
     then t.dev.bit Reg.CMP_ERR 0 = true ∧ t.dev.cmp = s.dev.cmp ∧ s.dev.KeptBut [Reg.CMP_ERR] t.dev
     else t.dev.fld (Reg.CMP_TH n) 0 10 = fieldOf v 0 10 ∧ t.dev.fld (Reg.CMP_TH n) 16 10 = fieldOf v 16 10 ∧ t.dev.cmp.thP.getLsbD n = true ∧
       t.dev.cmp.maskS.getLsbD n = true ∧ t.dev.cmp.maskM = s.dev.cmp.maskM)) ∧
  (∀ (n : Fin 8) (s : State), s.dev.cmp.thP.getLsbD n = true → ∃ t, exec (.cmpThMainApply n) s = .next t ∧ t.dev.cmp.thP.getLsbD n = false ∧
    t.dev.cmpTh n .main = s.dev.rd (Reg.CMP_TH n) ∧ t.dev.cmp.maskM.getLsbD n = true ∧ t.dev.cmp.maskS = s.dev.cmp.maskS) ∧
  (∀ (n : Fin 8) (s : State), s.dev.cmpTesting n = false →
    (∃ t, exec (.cmpMaskEnd n .main) s = .next t ∧ t.dev.cmp.maskM.getLsbD n = false ∧ t.dev.cmp.maskS = s.dev.cmp.maskS) ∧
    (∃ t, exec (.cmpMaskEnd n .shadow) s = .next t ∧ t.dev.cmp.maskS.getLsbD n = false ∧ t.dev.cmp.maskM = s.dev.cmp.maskM)) ∧
  (∀ (n : Fin 8) (s : State), s.dev.pwr.safeOn = true → s.dev.cmp.maskM.getLsbD n = false → s.dev.cmp.maskS.getLsbD n = false →
    s.dev.bit Reg.CMP_STAT (8 + n) ≠ s.dev.bit Reg.CMP_STAT (16 + n) → ∃ t, exec (.cmpDisagree n) s = .next t ∧ t.dev.bit Reg.CMP_EVT (8 + n) = true ∧
      (s.dev.bit Reg.CMP_CTL 16 = true → s.dev.srcEnabled 97 = true → t.dev.srcPending 97 = true)) ∧
  (∀ (m : Master) (v : Word) (s : State), s.dev.BusOpen m Reg.CMP_TEST → ∃ t, exec (.cmpTest m v) s = .next t ∧ ∀ n < 8, v.getLsbD n = true →
    (if s.dev.cmpTesting n = true ∨ s.dev.cmp.thP.getLsbD n = true then t.dev.bit Reg.CMP_ERR 1 = true
     else t.dev.cmpTesting n = true ∧ t.dev.cmp.maskM.getLsbD n = false ∧ t.dev.cmp.maskS.getLsbD n = true)) ∧
  (∀ (n : Fin 8) (mainOk shadowOk : Bool) (s : State), s.dev.cmpTesting n = true → ∃ t, exec (.cmpSelftestDone n mainOk shadowOk) s = .next t ∧
    t.dev.cmpTesting n = false ∧ t.dev.cmp.maskM.getLsbD n = false ∧ t.dev.cmp.maskS.getLsbD n = false ∧ t.dev.bit Reg.CMP_EVT (16 + n) = true ∧
    t.dev.fld (Reg.CMP_ST_RES n) 0 3 = 1 + 2 * b2n mainOk + 4 * b2n shadowOk ∧
    t.dev.fld (Reg.CMP_ST_RES n) 16 16 = (s.dev.fld (Reg.CMP_ST_RES n) 16 16 + 1) % 65536 ∧
    ((mainOk && shadowOk) = false → t.dev.bit Reg.CMP_EVT (24 + n) = true ∧ (s.dev.srcEnabled 97 = true → t.dev.srcPending 97 = true))) ∧
  (∀ (x : Int) (s : State), s.dev.pwr.safeOn = true → s.dev.bit Reg.TMON_STAT 1 = false →
    (∃ t, exec (.tmonSample x false) s = .next t ∧ t.dev.fld Reg.TMON_TEMP 0 16 = (x % 65536).toNat ∧
      (s.dev.tmonHigh ≤ x → 1 ≤ s.dev.tmon.hot → t.dev.bit Reg.TMON_STAT 2 = true ∧
        (s.dev.bit Reg.TMON_STAT 2 = false → t.dev.bit Reg.TMON_EVT 0 = true ∧ (s.dev.srcEnabled 84 = true → t.dev.srcPending 84 = true))) ∧
      (x < s.dev.tmonHigh - 32 → t.dev.bit Reg.TMON_STAT 2 = false)) ∧
    (s.dev.tmon.broken = 1 → ∃ t, exec (.tmonSample x true) s = .next t ∧ t.dev.bit Reg.TMON_STAT 1 = true ∧ t.dev.bit Reg.TMON_EVT 2 = true ∧
      t.dev.fld Reg.TMON_TEMP 0 16 = 0x7FFF ∧ (s.dev.srcEnabled 86 = true → t.dev.srcPending 86 = true))) ∧
  (∀ (s0 : Int) (c0 : Nat) (s : State), s.dev.pwr.safeOn = true → s.dev.tmon.prev = some (s0, c0) → s.dev.tmon.cnt ≠ 0 →
    let c := s.dev.tmon.cnt
    let rate := clampI (-32768) 32767 (rnd (10 * (s.dev.tmon.sum * c0 - s0 * c)) (c * c0))
    ∃ t, exec .tmonRateWindow s = .next t ∧ t.dev.fld Reg.TMON_RATE 0 16 = (rate % 65536).toNat ∧ t.dev.tmon.prev = some (s.dev.tmon.sum, c) ∧
      t.dev.tmon.cnt = 0 ∧ t.dev.tmon.sum = 0 ∧
      ((s.dev.fld Reg.TMON_RISE 0 16 : Int) < rate → t.dev.bit Reg.TMON_EVT 1 = true ∧
        (s.dev.bit Reg.TMON_CTL 0 = true → s.dev.srcEnabled 85 = true → t.dev.srcPending 85 = true))) ∧
  (∀ (m : Master) (v : Word) (s : State), s.dev.BusOpen m Reg.TMON_LIM →
    let x (i : Nat) : Int := (v.extractLsb' (16 * i) 16).toInt
    ∃ t, exec (.tmonLimWrite m v) s = .next t ∧
      (if -640 ≤ x 0 ∧ x 0 ≤ 2080 ∧ -640 ≤ x 1 ∧ x 1 ≤ 2080 then t.dev.rd Reg.TMON_LIM = v ∧ s.dev.KeptBut [Reg.TMON_LIM] t.dev
       else t.dev.bit Reg.TMON_EVT 4 = true ∧ s.dev.KeptBut [Reg.TMON_EVT] t.dev))

/-! ### Metering -/

/-- Bins and line cycles. The oldest bin's conversions become one sample per enabled input, and a bin that misses one counts as gap (R331, R332). A line cycle's end counts
itself, shows its frequency, adds the cycle's energies to the registers and starts the next cycle (R335 to R338). While FREQ_NOM is set, cycles end at whole nominal periods, and
again with crossings once the reference has been valid for four of them (R336). A requested restart makes every interval register zero (R342). Each half cycle the growth goes to a mirror bank (R340, R354). MET_CMD forces, arms and disarms latches (R344, R345); a
read of MET_I latches its high word (R342). -/
def Obligations.MeteringCycles : Prop :=
  (∀ s : State, s.dev.metRun = true →
    let bin := s.dev.met.bin
    s.dev.DueOrStill (40000 * (bin + 1)) →
    let short := (List.range 17).any fun j => s.dev.inEn j && (s.dev.binMean j bin).isNone
    ∃ t, exec .metBinEnd s = .next t ∧ t.dev.met.n = s.dev.met.n + 1 ∧ t.dev.met.bin = bin + 1 ∧
      t.dev.met.raw = s.dev.met.raw.filter (fun e => decide (bin < e.2.1)) ∧
      t.dev.met.e = s.dev.met.e ∧ t.dev.met.gap = s.dev.met.gap + (if short = true then 40000 else 0) ∧
      (∀ j < 17, ∀ x, s.dev.inEn j = true → s.dev.binMean j bin = some x → (SMap.getD t.dev.met.xs [] j).head? = some x) ∧
      (∀ j < 17, s.dev.inEn j = true → s.dev.binMean j bin = none →
        (SMap.getD t.dev.met.xs [] j).head? = some ((SMap.getD s.dev.met.xs [] j).headD 0)) ∧
      (short = true → s.dev.met.gapBin = false → t.dev.bit Reg.MET_EVT 1 = true) ∧ s.dev.KeptBut [Reg.MET_EVT] t.dev) ∧
  (∀ (at' : Nat) (s : State), s.dev.metRun = true →
    let dur := at' - s.dev.met.lastT
    let nominal := s.dev.bit Reg.MET_STAT 2
    let whole : Prop := dur ≠ 0 ∧ dur % s.dev.nomT = 0
    let dt := at' - s.dev.met.crossT
    let inRange (x : Nat) : Bool := decide (14492754 ≤ x) && decide (x ≤ 23529411)
    let from' : Option Nat := if at' = s.dev.met.crossT then s.dev.met.okFrom
      else if (s.dev.met.ampOk && (inRange dt || inRange (2 * dt))) = true then some (s.dev.met.okFrom.getD s.dev.met.crossT) else none
    let back : Prop := nominal = true ∧ ¬ whole ∧ (from'.any fun f => decide (f + 4 * s.dev.nomT ≤ at')) = true
    ∃ t, exec (.lineCycleEnd at') s = .next t ∧
      (nominal = false ∨ whole ∨ back → t.dev.rd Reg.MET_LCYC = s.dev.rd Reg.MET_LCYC + 1 ∧
        t.dev.rd Reg.MET_FREQ = BitVec.ofNat 32 (min 65535 (512000000000 / max 1 dur)) ∧ t.dev.met.lastT = at' ∧ t.dev.met.vi = [] ∧ t.dev.met.n = 0 ∧
        (∀ q, t.dev.energy q = s.dev.energy q + (((s.dev.cycleFeeds dur).filter fun e => e.1 == q).map (·.2)).sum) ∧
        (s.dev.met.irstP = true → t.dev.met.irstP = false ∧ ∀ q < 130, t.dev.metInterval q = 0)) ∧
      (nominal = false → t.dev.bit Reg.MET_STAT 2 = false ∧
        t.dev.bit Reg.MET_STAT 1 = (inRange dur && s.dev.refAmplitude)) ∧
      (nominal = true → whole → t.dev.bit Reg.MET_STAT 2 = true) ∧
      (back → t.dev.bit Reg.MET_STAT 2 = false) ∧
      (nominal = true → ¬ whole → ¬ back → t.dev.bit Reg.MET_STAT 2 = true ∧ t.dev.met.crossT = at' ∧ t.dev.met.e = s.dev.met.e ∧
        t.dev.met.okFrom = from' ∧ s.dev.KeptBut [Reg.MET_STAT] t.dev)) ∧
  (∀ s : State, s.dev.metRun = true → s.dev.bit Reg.MET_STAT 2 = false → ∃ t, exec .freqNomTimeout s = .next t ∧ t.dev.bit Reg.MET_STAT 2 = true ∧
    t.dev.bit Reg.MET_STAT 1 = false ∧ t.dev.bit Reg.MET_EVT 2 = true ∧ t.dev.met.nomF = true ∧ t.dev.met.e = s.dev.met.e) ∧
  (∀ (at' : Nat) (s : State), s.dev.metRun = true → s.dev.amb.powered = true →
    let h := (s.dev.met.hseq + 1) % 2 ^ 32
    ∃ t, exec (.mirrorWrite at') s = .next t ∧ t.dev.met.hseq = h ∧ t.dev.rd (Reg.AMB_MIRROR (h % 2) 0) = BitVec.ofNat 32 h ∧
      (∀ j < 32, t.dev.rd (Reg.AMB_MIRROR (1 - h % 2) j) = s.dev.rd (Reg.AMB_MIRROR (1 - h % 2) j)) ∧ t.dev.met.e = s.dev.met.e ∧
      t.dev.met.hq1 = s.dev.met.hq ∧ t.dev.met.hq = [] ∧ t.dev.mem = s.dev.mem) ∧
  (∀ (m : Master) (v : Word) (s : State), s.dev.BusOpen m Reg.MET_CMD →
    (v.getLsbD 0 = true → ∃ t, exec (.forcedLatch m v) s = .next t ∧ t.dev.met.forced = true ∧ s.dev.KeptBut [Reg.MET_EVT] t.dev) ∧
    (v.getLsbD 1 = true → v.getLsbD 2 = false → ∃ t, exec (.latchArm m v) s = .next t ∧
      (if s.dev.bit Reg.SYS_READY 9 = true ∧ s.dev.now < s.dev.pair Reg.MET_LATCH_AT_LO Reg.MET_LATCH_AT_HI
       then t.dev.met.armed = true ∧ s.dev.KeptBut [] t.dev
       else t.dev.met.armed = s.dev.met.armed ∧ t.dev.bit Reg.MET_EVT 5 = true ∧ s.dev.KeptBut [Reg.MET_EVT] t.dev)) ∧
    (v.getLsbD 2 = true → ∃ t, exec (.latchDisarm m v) s = .next t ∧ t.dev.met.armed = false ∧ s.dev.KeptBut [Reg.MET_EVT] t.dev) ∧
    (v.getLsbD 3 = true → ∃ t, exec (.irst m v) s = .next t ∧ t.dev.met.irstP = true ∧ s.dev.KeptBut [Reg.MET_EVT] t.dev)) ∧
  (∀ (m : Master) (q : Fin 130) (s : State), s.dev.busCode m (Reg.MET_I q) .b32 false = none → SMap.getD s.dev.shadow 0 (shadowKey m (Reg.MET_I q)) = 0 →
    ∃ t, exec (.metIRead m q) s = .next t ∧ t.dev.busResp = ⟨s.dev.metI q, 0⟩ ∧
      SMap.getD t.dev.shadow 0 (shadowKey m (Reg.MET_I q + 0x400)) = (s.dev.metIw q).toNat + 1 ∧ s.dev.KeptBut [] t.dev)

/-- Records, start and configuration. The oldest latch becomes the newest record of its sector (R346, R348). The emergency latch books what is due, is of kind 5 and stops
accumulation (R355), which resumes at the next bin after PFW_N returns, the stop counting as gap (R356). The start of metering mounts the flacon, judges the seal and restarts the intervals (R349,
R357, R365). A verify step corrects the single-bit errors of one sector (R353). A configuration write needs the key within 1 ms and consumes it; it is counted; sealed registers
refuse it on the FM (R365, R367). A format frees the ring sectors of the FE and writes a RESTART record (R369); the FM refuses it (R365). -/
def Obligations.MeteringRecords : Prop :=
  (∀ (r : MetRec) (rest : List MetRec) (k : Nat) (s : State), s.dev.met.recs = r :: rest → s.dev.met.rsect = some k → k < 62 → s.dev.met.rslot < 31 →
    r.data.length = 256 → r.kind ≠ 5 → r.kind ≠ 6 → s.dev.pwr.latching = false →
    let a := sectAddr k + 0x100 + 256 * s.dev.met.rslot
    ∃ t, exec .metRecordWritten s = .next t ∧ t.dev.met.recs = rest ∧ t.dev.flcBytes a 256 = r.data ∧ t.dev.met.rslot = s.dev.met.rslot + 1 ∧
      t.dev.rd Reg.FLC_RSEQ = BitVec.ofNat 32 r.rseq ∧ t.dev.rd Reg.FLC_RADDR = BitVec.ofNat 32 a ∧ t.dev.bit Reg.MET_EVT 0 = true ∧
      t.dev.met.e = s.dev.met.e) ∧
  (∀ (at' : Nat) (s : State), s.dev.domainOn 7 = true → s.dev.met.on = true →
    (s.dev.bit Reg.MET_STAT 6 = false → ∃ t, exec (.emergencyLatch at') s = .next t ∧ t.dev.met.recs.map (·.kind) = [5] ∧
      t.dev.bit Reg.MET_STAT 6 = true ∧ t.dev.bit Reg.MET_STAT 0 = false ∧ t.dev.bit Reg.MET_EVT 4 = true ∧ t.dev.met.stopAt = at') ∧
    (s.dev.bit Reg.MET_STAT 6 = true → ∃ t, exec .pfwNReturn s = .next t ∧ t.dev.bit Reg.MET_STAT 6 = false ∧
      t.dev.bit Reg.MET_STAT 0 = (s.dev.bit Reg.MET_CTL 0 && !s.dev.met.off) ∧ t.dev.met.bin = s.dev.now / 40000 + 1 ∧
      t.dev.met.gap = s.dev.met.gap + (40000 * (s.dev.now / 40000 + 1) - s.dev.met.stopAt) ∧ t.dev.met.raw = [] ∧
      s.dev.KeptBut [Reg.MET_STAT] t.dev)) ∧
  (∀ s : State, s.dev.domainOn 7 = true → s.dev.met.on = false → ∃ t, exec .meteringStart s = .next t ∧ t.dev.met.on = true ∧ t.dev.met.recs = [] ∧
    t.dev.bit Reg.MET_STAT 5 = s.dev.fm ∧ t.dev.bit Reg.MET_STAT 4 = (!s.dev.fm || s.dev.fmCal) ∧ t.dev.bit Reg.SYS_READY 12 = true ∧
    (∀ q < 130, t.dev.metInterval q = 0)) ∧
  (∀ s : State, s.dev.domainOn 7 = true → s.dev.bit Reg.FLC_CTL 0 = true → s.dev.bit Reg.FLC_STAT 0 = true →
    let here (w : Nat) : Prop := sectAddr s.dev.met.vSect ≤ w ∧ w < sectAddr (s.dev.met.vSect + 1)
    ∃ t, exec .flaconVerify s = .next t ∧ t.dev.met.vSect = (s.dev.met.vSect + 1) % 64 ∧ t.dev.mem = s.dev.mem ∧
      (∀ e ∈ t.dev.ecc, e ∈ s.dev.ecc ∧ ¬ (here e.1 ∧ e.2 = 1)) ∧
      ((∃ e ∈ s.dev.ecc, here e.1 ∧ e.2 = 1) → t.dev.bit Reg.FLC_EVT 0 = true) ∧
      ((∃ e ∈ s.dev.ecc, here e.1 ∧ 2 ≤ e.2) → t.dev.bit Reg.FLC_EVT 1 = true ∧ (s.dev.srcEnabled 93 = true → t.dev.srcPending 93 = true))) ∧
  (∀ (m : Master) (v : Word) (s : State), s.dev.BusOpen m Reg.MET_UNLOCK → ∃ t, exec (.metUnlock m v) s = .next t ∧
    t.dev.met.unlock = (if v = 0x4D45 then some s.dev.now else s.dev.met.unlock) ∧ s.dev.KeptBut [] t.dev) ∧
  (∀ (m : Master) (a v : Word) (s : State), isMetCfg a.toNat = true → a.toNat < Reg.PCNT_PRESET 0 → noReg a.toNat = false →
    s.dev.busCode m a.toNat .b32 true = none → ∃ t, exec (.metConfigWrite m a v) s = .next t ∧
      (if s.dev.fm = true ∧ isMetSealed a.toNat = true then t.dev.rd a.toNat = s.dev.rd a.toNat ∧ t.dev.bit Reg.MET_EVT 6 = true ∧
         (s.dev.srcEnabled 96 = true → t.dev.srcPending 96 = true)
       else t.dev.met.unlock = none ∧
         (if (∃ k, s.dev.met.unlock = some k ∧ s.dev.now ≤ k + 1000000) ∧ s.dev.metCfgBad a.toNat v = false
          then t.dev.rd a.toNat = (s.dev.genWrite a.toNat v).rd a.toNat ∧ t.dev.fld Reg.MET_STAT 8 8 = (s.dev.fld Reg.MET_STAT 8 8 + 1) % 256
          else t.dev.bit Reg.MET_EVT 5 = true ∧ s.dev.KeptBut [Reg.MET_EVT] t.dev))) ∧
  (∀ (m : Master) (n : Fin 8) (v : Word) (k : Nat) (s : State), s.dev.BusOpen m (Reg.PCNT_PRESET n) → s.dev.met.unlock = some k → s.dev.now ≤ k + 1000000 →
    s.dev.bit Reg.PCNT_CTL n = false → ∃ t, exec (.pcntPreset m n v) s = .next t ∧ t.dev.rd (Reg.PCNT_CNT n) = v ∧
      t.dev.fld Reg.MET_STAT 8 8 = (s.dev.fld Reg.MET_STAT 8 8 + 1) % 256 ∧ t.dev.met.unlock = none) ∧
  (∀ (m : Master) (v : Word) (s : State), s.dev.BusOpen m Reg.FLC_FORMAT → ∃ t, exec (.flcFormat m v) s = .next t ∧
    (s.dev.fm = true → t.dev.bit Reg.MET_EVT 6 = true ∧ (s.dev.srcEnabled 96 = true → t.dev.srcPending 96 = true) ∧
      t.dev.rd Reg.FLC_RSEQ = s.dev.rd Reg.FLC_RSEQ) ∧
    (s.dev.fm = false → fieldOf v 0 16 ≠ 0x464D → t.dev.bit Reg.FLC_EVT 5 = true ∧ s.dev.KeptBut [Reg.FLC_EVT] t.dev) ∧
    (s.dev.fm = false → fieldOf v 0 16 = 0x464D → s.dev.met.recs = [] → s.dev.ecc = [] →
      (∀ k < 62, 2 ≤ k → memRead t.dev.mem (sectAddr k + 2) 2 = 0) ∧
      t.dev.met.rsect = some 0 ∧ t.dev.met.rslot = 1 ∧ t.dev.met.esect = some 1 ∧ t.dev.met.eslot = 1 ∧ t.dev.met.e = s.dev.met.e ∧
      t.dev.rd Reg.FLC_RSEQ = s.dev.rd Reg.FLC_RSEQ + 1 ∧ t.dev.rd Reg.FLC_RADDR = BitVec.ofNat 32 (sectAddr 0 + 0x100)))

/-- Pulse inputs and outputs, bypass watch. A change to the counted polarity counts (R359); a short or a break sets its event and suspends counting until the input is intact
again (R360). A pulse of WIDTH ms goes out while pulses are pending (R361). The bypass watch wakes on its enabled inputs, adds ampere-hours each second and writes one entry of its ring
of eight when it ends: the main supplies are back without ALWAYS, or END_S seconds below the threshold have passed; a ninth uncopied entry overwrites the oldest (R363, R364). -/
def Obligations.PulsesAndBypassWatch : Prop :=
  (∀ (n : Fin 8) (closed : Bool) (s : State), s.dev.domainOn 7 = true → ∃ t, exec (.pcinChange n closed) s = .next t ∧
    t.dev.fld Reg.PCNT_STAT (2 * n) 2 = (if closed then 1 else 2) ∧
    t.dev.rd (Reg.PCNT_CNT n) = s.dev.rd (Reg.PCNT_CNT n) +
      (if s.dev.bit Reg.PCNT_CTL n = true ∧ s.dev.met.susp.getLsbD n = false ∧ closed ≠ s.dev.bit Reg.PCNT_CTL (8 + n) then 1 else 0) ∧
    s.dev.KeptBut [Reg.PCNT_STAT, Reg.PCNT_CNT n] t.dev) ∧
  (∀ (n : Fin 8) (s : State), s.dev.domainOn 7 = true →
    (∃ t, exec (.pcinBandFault n .short) s = .next t ∧ t.dev.fld Reg.PCNT_STAT (2 * n) 2 = 0 ∧ t.dev.bit Reg.PCNT_EVT (8 + n) = true ∧
      t.dev.met.susp.getLsbD n = true ∧ t.dev.met.pbrk.getLsbD n = true ∧ t.dev.rd (Reg.PCNT_CNT n) = s.dev.rd (Reg.PCNT_CNT n)) ∧
    (∃ t, exec (.pcinBandFault n .broken) s = .next t ∧ t.dev.fld Reg.PCNT_STAT (2 * n) 2 = 3 ∧ t.dev.bit Reg.PCNT_EVT n = true ∧
      t.dev.met.susp.getLsbD n = true ∧ t.dev.met.pbrk.getLsbD n = true ∧ t.dev.rd (Reg.PCNT_CNT n) = s.dev.rd (Reg.PCNT_CNT n)) ∧
    (∀ closed, ∃ t, exec (.pcinCountResume n closed) s = .next t ∧ t.dev.fld Reg.PCNT_STAT (2 * n) 2 = (if closed then 1 else 2) ∧
      t.dev.met.susp.getLsbD n = false ∧ t.dev.met.pbrk = s.dev.met.pbrk ∧ s.dev.KeptBut [Reg.PCNT_STAT] t.dev)) ∧
  (∀ (n : Fin 4) (k : Nat) (s : State), s.dev.domainOn 7 = true → SMap.getD s.dev.met.ppend 0 n = k + 1 → s.dev.bit Reg.POUT_CTL n = true →
    ∃ t, exec (.poutPulse n) s = .next t ∧ t.dev.outbox = .pout n :: s.dev.outbox ∧ t.dev.rd (Reg.POUT_CNT n) = s.dev.rd (Reg.POUT_CNT n) + 1 ∧
      SMap.getD t.dev.met.ppend 0 n = k ∧
      SMap.getD t.dev.met.pend 0 n = s.dev.now + s.dev.fld (Reg.POUT_SRC n) 16 8 * 1000000 ∧ s.dev.KeptBut [Reg.POUT_CNT n] t.dev) ∧
  (∀ (inputs : BitVec 3) (s : State), s.dev.amb.powered = true → s.dev.amb.bwOn = false → s.dev.pwr.mainGood = false ∨ s.dev.bit Reg.AMB_BW_CTL 3 = true →
    let on := inputs &&& (s.dev.rd Reg.AMB_BW_CTL).setWidth 3
    on ≠ 0 → ∃ t, exec (.bwWake inputs) s = .next t ∧ t.dev.amb.bwOn = true ∧ t.dev.amb.bwSecs = 0 ∧ t.dev.amb.bwFrom = s.dev.holdNs / 1000000000 ∧
      t.dev.bit Reg.AMB_BW_STAT 0 = true ∧ t.dev.fld Reg.AMB_BW_STAT 1 3 = on.toNat ∧ s.dev.KeptBut [Reg.AMB_BW_STAT] t.dev) ∧
  (∀ (rms : List Nat) (s : State), s.dev.amb.powered = true → s.dev.amb.bwOn = true → ∃ t, exec (.bwSecond rms) s = .next t ∧
    t.dev.amb.bwSecs = s.dev.amb.bwSecs + 1 ∧
    t.dev.amb.bwLow = (if ∀ i < 3, s.dev.bit Reg.AMB_BW_CTL i = true → (rms.drop i).headD 0 < s.dev.fld Reg.AMB_BW_TH 16 12 then s.dev.amb.bwLow + 1 else 0) ∧
    (∀ i < 3,
      let a := SMap.getD s.dev.amb.bwAcc 0 i + 10 * ((rms.drop i).headD 0 * s.dev.fld (Reg.AMB_BW_K i) 0 24)
      if s.dev.bit Reg.AMB_BW_CTL i = true then t.dev.rd (Reg.AMB_BW_AH i) = s.dev.rd (Reg.AMB_BW_AH i) + BitVec.ofNat 32 (a / 9216) ∧
        SMap.getD t.dev.amb.bwAcc 0 i = a % 9216
      else t.dev.rd (Reg.AMB_BW_AH i) = s.dev.rd (Reg.AMB_BW_AH i)) ∧
    s.dev.KeptBut [Reg.AMB_BW_AH 0, Reg.AMB_BW_AH 1, Reg.AMB_BW_AH 2] t.dev) ∧
  (∀ s : State, s.dev.amb.powered = true → s.dev.amb.bwOn = true →
    (s.dev.pwr.mainGood = true ∧ s.dev.bit Reg.AMB_BW_CTL 3 = false) ∨ s.dev.fld Reg.AMB_BW_CTL 8 8 ≤ s.dev.amb.bwLow →
    let w := s.dev.fld Reg.AMB_BW_STAT 8 3
    ∃ t, exec .bwEnd s = .next t ∧ t.dev.amb.bwOn = false ∧ t.dev.bit Reg.AMB_BW_STAT 0 = false ∧ t.dev.fld Reg.AMB_BW_STAT 8 3 = (w + 1) % 8 ∧
      t.dev.rd (Reg.AMB_BW_EV w 0) = BitVec.ofNat 32 s.dev.amb.bwFrom ∧ t.dev.rd (Reg.AMB_BW_EV w 1) = BitVec.ofNat 32 s.dev.amb.bwSecs ∧
      t.dev.amb.bwEvN = (s.dev.amb.bwEvN + 1) % 65536 ∧
      (if 8 ≤ s.dev.amb.bwUnc then t.dev.bit Reg.AMB_BW_STAT 16 = true ∧ t.dev.fld Reg.AMB_BW_STAT 12 3 = (w + 1) % 8 ∧ t.dev.amb.bwUnc = 8
       else t.dev.bit Reg.AMB_BW_STAT 16 = s.dev.bit Reg.AMB_BW_STAT 16 ∧ t.dev.fld Reg.AMB_BW_STAT 12 3 = s.dev.fld Reg.AMB_BW_STAT 12 3 ∧
         t.dev.amb.bwUnc = s.dev.amb.bwUnc + 1) ∧
      s.dev.KeptBut [Reg.AMB_BW_STAT, Reg.AMB_BW_EV w 0, Reg.AMB_BW_EV w 1, Reg.AMB_BW_EV w 2, Reg.AMB_BW_EV w 3] t.dev)

/-! ### Safe inputs and outputs -/

/-- The safe channels. Internal channels that differ, a read-back that is wrong, a failed off-pulse, a pair that disagrees for too long, a failed or starved test pulse: each
locks the unit out, with its cause where it was not LOCKED before, clears SAFE_OUT_REQ, tells who and what in SAFE_DIAG and raises its source, which is always enabled (R389,
R391 to R397). A good read-back, a passed test and a pair that agrees end their failures; a test pulse judges its own channel of each pair in use. -/
def Obligations.SafeChannels : Prop :=
  let failed (s : State) (src who kind : Nat) (e : Dev) : Prop := e.safe.state = 0 ∧
    e.safe.cause = (if s.dev.safe.state = 0 then s.dev.safe.cause else src - 89) ∧ e.rd Reg.SAFE_OUT_REQ = 0 ∧
    (s.dev.safe.state ≠ 0 → e.bit Reg.SAFE_EVT 0 = true) ∧ e.fld Reg.SAFE_DIAG 8 3 = who ∧ e.fld Reg.SAFE_DIAG 12 4 = kind ∧ e.srcPending src = true
  (∀ s : State, s.dev.pwr.safeOn = true → (∃ t, exec (.safeChannelDisagree true) s = .next t ∧ t.dev.safe.chanDis = true ∧ failed s 92 0 8 t.dev) ∧
    (∃ t, exec (.safeChannelDisagree false) s = .next t ∧ t.dev.safe.chanDis = false ∧ t.dev.safe.state = s.dev.safe.state ∧ s.dev.KeptBut [] t.dev)) ∧
  (∀ (n : Fin 4) (b : SBand) (s : State), s.dev.pwr.safeOn = true → ∃ t, exec (.srbMismatch n b) s = .next t ∧
    (if (if s.dev.sout n = true then b = .energised else b = .offIntact ∨ (b = .offOpen ∧ s.dev.bit (Reg.SAFE_OUT n) 1 = false))
     then t.dev.safe.outBad.getLsbD n = false ∧ t.dev.safe.state = s.dev.safe.state ∧ s.dev.KeptBut [] t.dev
     else t.dev.safe.outBad.getLsbD n = true ∧ failed s 92 n (if s.dev.sout n = false ∧ b = .offOpen then 7 else 5) t.dev)) ∧
  (∀ (n : Fin 4) (a b : SBand) (back cut : Bool) (s : State), s.dev.sout n = true → ∃ t, exec (.offPulse n a b back cut) s = .next t ∧
    (cut = true → t.dev.fld Reg.SAFE_CNT_SKIP 0 32 = min (2 ^ 32 - 1) (s.dev.fld Reg.SAFE_CNT_SKIP 0 32 + 1) ∧ t.dev.safe = s.dev.safe) ∧
    (cut = false → (if s.dev.offBand n a = true ∧ s.dev.offBand n b = true ∧ back = true
      then t.dev.safe.tstBad.getLsbD n = false ∧ t.dev.outbox = .offPulse n :: s.dev.outbox ∧ s.dev.KeptBut [] t.dev
      else t.dev.safe.tstBad.getLsbD n = true ∧ t.dev.bit Reg.SAFE_EVT 7 = true ∧ failed s 92 n (if a = .offOpen ∨ b = .offOpen then 7 else 6) t.dev))) ∧
  (∀ (i : Fin 8) (s : State), s.dev.pwr.safeOn = true →
    (∃ t, exec (.sinDemand i) s = .next t ∧ t.dev.safe.sinHi.getLsbD i = false ∧ t.dev.safe.demand = s.dev.safe.demand ||| (1#8 <<< i.val) ∧
      (∀ p < 4, t.dev.safe.disc.getLsbD p = (s.dev.safe.disc.getLsbD p && !(p == i.val / 2 && t.dev.safe.demand.getLsbD (2 * p) == t.dev.safe.demand.getLsbD (2 * p + 1)))) ∧
      s.dev.KeptBut [] t.dev) ∧
    (∃ t, exec (.sinDemandRelease i) s = .next t ∧ t.dev.safe.sinHi.getLsbD i = true ∧ t.dev.safe.demand = s.dev.safe.demand &&& ~~~(1#8 <<< i.val) ∧
      (∀ p < 4, t.dev.safe.disc.getLsbD p = (s.dev.safe.disc.getLsbD p && !(p == i.val / 2 && t.dev.safe.demand.getLsbD (2 * p) == t.dev.safe.demand.getLsbD (2 * p + 1)))) ∧
      s.dev.KeptBut [] t.dev)) ∧
  (∀ (p : Fin 4) (s : State), s.dev.safe.demand.getLsbD (2 * p) ≠ s.dev.safe.demand.getLsbD (2 * p + 1) →
    ∃ t, exec (.sinDiscrepancy p) s = .next t ∧ t.dev.safe.disc.getLsbD p = true ∧ failed s 91 p 1 t.dev) ∧
  (∀ (chB : Bool) (a b c e : PairSample) (s : State), s.dev.pwr.safeOn = true → s.dev.bit Reg.SAFE_TP 0 = true →
    let use (p : Nat) : Bool := s.dev.bit (Reg.SAFE_PAIR p) 0 && s.dev.bit (Reg.SAFE_PAIR p) 1
    let v (p : Nat) : Nat := pairVerdict (s.dev.pairDemands p) (match p with | 0 => a | 1 => b | 2 => c | _ => e)
    ∃ t, exec (.testPulse chB [a, b, c, e]) s = .next t ∧ .testPulse chB ∈ t.dev.outbox ∧ t.dev.safe.starved = false ∧
      (∀ p < 4, t.dev.safe.inBad.getLsbD (2 * p + b2n chB) =
          (if use p = true ∧ v p ≠ 1 then decide (2 ≤ v p) else s.dev.safe.inBad.getLsbD (2 * p + b2n chB)) ∧
        t.dev.safe.inBad.getLsbD (2 * p + 1 - b2n chB) = s.dev.safe.inBad.getLsbD (2 * p + 1 - b2n chB)) ∧
      (∀ p < 4, use p = true → 2 ≤ v p → (∀ q < p, use q = true → v q < 2) → t.dev.bit Reg.SAFE_EVT 6 = true ∧ failed s 91 p (v p) t.dev) ∧
      ((∀ p < 4, use p = true → v p < 2) → t.dev.safe.state = s.dev.safe.state ∧ s.dev.KeptBut [Reg.SAFE_CNT_SKIP] t.dev)) ∧
  (∀ s : State, s.dev.pwr.safeOn = true → s.dev.bit Reg.SAFE_TP 0 = true → ∃ t, exec .testPulseStarved s = .next t ∧ t.dev.bit Reg.SAFE_EVT 6 = true ∧
    t.dev.safe.starved = true ∧ failed s 91 0 4 t.dev)

/-- The way out of LOCKED (R397 to R400). A reset pulse of 100 ms to 2 s arms, but not in the top-note stage (R72; the model's reading, notes/assumptions/86); a shorter or longer one only counts. KEY1 in ARMED and then KEY2 reach NORMAL where nothing
refuses it: no HALT hold, no failure of the safe inputs or outputs, no demand. A wrong key, a time-out and any other access in between lock again with KEY_ERR. SAFE_OUT_REQ
takes effect in NORMAL only. -/
def Obligations.SafeKeySequence : Prop :=
  let keyErr (s : State) (e : Dev) : Prop := e.safe.state = 0 ∧ e.safe.cause = 4 ∧ e.bit Reg.SAFE_EVT 0 = true ∧ e.rd Reg.SAFE_OUT_REQ = 0 ∧ e.bit Reg.SAFE_EVT 4 = true ∧
    s.dev.KeptBut [Reg.SAFE_OUT_REQ, Reg.SAFE_EVT] e
  (∀ (ms : Nat) (s : State), s.dev.pwr.safeOn = true → s.dev.safe.rstLong = false → ∃ t, exec (.safeRstNPulse ms) s = .next t ∧
    (ms < 100 → t.dev.bit Reg.SAFE_EVT 1 = true ∧ t.dev.safe = s.dev.safe ∧
      t.dev.fld Reg.SAFE_CNT_RST 0 32 = min (2 ^ 32 - 1) (s.dev.fld Reg.SAFE_CNT_RST 0 32 + 1)) ∧
    (2000 ≤ ms → t.dev.bit Reg.SAFE_EVT 2 = true ∧ t.dev.safe = s.dev.safe ∧
      t.dev.fld Reg.SAFE_CNT_RST 0 32 = min (2 ^ 32 - 1) (s.dev.fld Reg.SAFE_CNT_RST 0 32 + 1)) ∧
    (100 ≤ ms → ms < 2000 → t.dev.bit Reg.SAFE_EVT 3 = true ∧ (s.dev.safe.state = 0 →
        t.dev.safe = { s.dev.safe with state := if s.dev.fld Reg.SYS_STAGE 0 2 = 1 then 0 else 1 } ∧ s.dev.KeptBut [Reg.SAFE_EVT] t.dev) ∧
      (s.dev.safe.state = 1 ∨ s.dev.safe.state = 2 → keyErr s t.dev) ∧ (s.dev.safe.state = 3 → t.dev.safe = s.dev.safe))) ∧
  (∀ s : State, s.dev.pwr.safeOn = true → s.dev.safe.rstLong = false → ∃ t, exec .safeRstNLong s = .next t ∧ t.dev.safe = { s.dev.safe with rstLong := true } ∧
    t.dev.bit Reg.SAFE_EVT 2 = true ∧ s.dev.KeptBut [Reg.SAFE_EVT, Reg.SAFE_CNT_RST] t.dev) ∧
  (∀ (m : Master) (v : Word) (s : State), s.dev.BusOpen m Reg.SAFE_KEY → s.dev.safe.state = 1 → ∃ t, exec (.key1 m v) s = .next t ∧
    (if fieldOf v 0 16 = 0xC3A5 then t.dev.safe = { s.dev.safe with state := 2 } ∧ s.dev.KeptBut [] t.dev else keyErr s t.dev)) ∧
  (∀ (m : Master) (v : Word) (s : State), s.dev.BusOpen m Reg.SAFE_KEY → s.dev.safe.state = 2 → ∃ t, exec (.key2 m v) s = .next t ∧
    (fieldOf v 0 16 ≠ 0x5A3C → keyErr s t.dev) ∧
    (fieldOf v 0 16 = 0x5A3C → s.dev.fc.hold ≠ 3 → s.dev.srcActive 91 = false → s.dev.srcPending 91 = false → s.dev.srcActive 92 = false →
      s.dev.srcPending 92 = false → (∀ p < 4, s.dev.bit (Reg.SAFE_PAIR p) 0 = true → s.dev.pairDemands p = false) →
      t.dev.safe = { s.dev.safe with state := 3 } ∧ s.dev.KeptBut [] t.dev) ∧
    (fieldOf v 0 16 = 0x5A3C → s.dev.keyRefusal ≠ 0 → t.dev.safe.state = 0 ∧ t.dev.bit Reg.SAFE_EVT 5 = true ∧ t.dev.rd Reg.SAFE_OUT_REQ = 0 ∧
      t.dev.fld Reg.SAFE_DIAG 0 4 = s.dev.keyRefusal)) ∧
  (∀ s : State, s.dev.safe.state = 1 ∨ s.dev.safe.state = 2 → ∃ t, exec .armedTimeout s = .next t ∧ keyErr s t.dev) ∧
  (∀ (m : Master) (v : Word) (s : State), s.dev.BusOpen m Reg.SAFE_OUT_REQ → ∃ t, exec (.safeOutReqWrite m v) s = .next t ∧
    (s.dev.safe.state = 3 → t.dev.rd Reg.SAFE_OUT_REQ = v &&& 0xF#32 ∧ t.dev.safe = s.dev.safe ∧ s.dev.KeptBut [Reg.SAFE_OUT_REQ] t.dev) ∧
    (s.dev.safe.state = 1 ∨ s.dev.safe.state = 2 → keyErr s t.dev) ∧ (s.dev.safe.state = 0 → t.dev.safe = s.dev.safe ∧ s.dev.KeptBut [] t.dev))

/-! ### Twin -/

/-- The frames of the twin link on a unit that follows. A whole COMMAND is relayed at the own port of its ring (R152, R409, R419); COPY is kept, checked against the shadow run's
captures and OCRC, and loaded once every live run has halted, where the load ends in time (R411, R414, R416, R417); SNAP gives the image and exchange area of the shadow run (R411); STATUS tells the partner's
role, and a unit in SEEK that hears a HOLDER follows it (R410, R421); MISS is asked for from this end (R165, R410); SERVICE counts as arrived at the own port (R171, R409). A live
run starts every enabled engine at TWIN_LIVE (R415, R418). -/
def Obligations.TwinFrames : Prop :=
  (∀ (f : Frame) (p : Nat) (s : State), fKind f = 2 → fBad f = false → s.dev.LaneIn 24 → s.dev.standby = true → s.dev.ownPort (fRing f) = some p →
    ∃ t, exec (.twinCommandReceived f) s = .next t ∧ t.dev.twin.relayed = fRing f :: s.dev.twin.relayed ∧
      t.dev.outbox.head? = some (.frame p (mkFrame (f.sof.take 6 ++ [BitVec.ofNat 8 (128 * b2n (s.dev.endB p) + 64 * b2n s.dev.twinId + f.data.length / 16)]) f.data))) ∧
  (∀ (f : Frame) (s : State), fKind f = 9 → fBad f = false → s.dev.LaneIn 24 → s.dev.standby = true →
    (s.dev.twin.shadowPer = none → s.dev.tb.engAt.isSome = true → ∃ t, exec (.twinCopyReceived f) s = .next t ∧
      t.dev.twin.copy = some (fPeriod f, f.data) ∧ t.dev.engs = s.dev.engs ∧ s.dev.KeptBut [Reg.TWIN_STAT] t.dev) ∧
    (s.dev.twin.shadowPer = none → s.dev.tb.engAt = none → s.dev.twin.shadowRun = false → (∀ n < 8, s.dev.engRuns n = false) →
      fPeriod f = (s.dev.tb.k + 2 ^ 32 - 1) % 2 ^ 32 → s.dev.twin.ctxPer ≠ some (fPeriod f) → s.dev.loadFits = true → ∃ t, exec (.twinCopyReceived f) s = .next t ∧
        t.dev.twin.ctxPer = some (fPeriod f) ∧ ∀ x ∈ s.dev.ctxPlaces, ∀ i < 16,
          (t.dev.eng x.1).regs.rg i = BitVec.ofNat 32 (fieldAt ((f.data.drop x.2).take (s.dev.ctxLen x.1)) (4 * i) 4)) ∧
    (∀ q, s.dev.twin.shadowPer = some (fPeriod f) → s.dev.twin.stat = some (fPeriod f, q) → s.dev.twin.capBusy = [] → s.dev.twin.shadowOk = true →
      s.dev.twin.shadowEnd = true → s.dev.ocrc = q → (∀ x ∈ s.dev.ctxPlaces,
        SMap.getD s.dev.twin.caps 0 x.1 = crc32 ((f.data.drop x.2).take (s.dev.ctxLen x.1)) + 1) →
      ∃ t, exec (.twinCopyReceived f) s = .next t ∧ t.dev.twin.passes = s.dev.twin.passes + 1 ∧ t.dev.twin.shadowPer = none ∧
        t.dev.rd Reg.TWIN_CHK = BitVec.ofNat 32 (fPeriod f) ∧ (s.dev.role = 3 → 1 ≤ s.dev.twin.passes → t.dev.role = 4))) ∧
  (∀ (f : Frame) (s : State), fKind f = 10 → fBad f = false → s.dev.LaneIn 24 → s.dev.standby = true → ∃ t, exec (.twinSnapReceived f) s = .next t ∧
    t.dev.twin.snapPer = some (fPeriod f) ∧ t.dev.twin.snapImg = f.data.take 0x1414 ∧ t.dev.twin.snapXin = f.data.drop 0x1418 ∧
    s.dev.KeptBut [Reg.TWIN_STAT] t.dev) ∧
  (∀ (arb : Bool) (f : Frame) (s : State), fKind f = 11 → fBad f = false → s.dev.LaneIn 24 → s.dev.role ≠ 0 → s.dev.twin.shadowPer = none → ∃ t, exec (.twinStatusReceived ⟨f, arb⟩) s = .next t ∧ t.dev.bit Reg.TWIN_STAT 3 = arb ∧
    t.dev.fld Reg.TWIN_STAT 6 3 = byteAt f.data 0 % 8 ∧ t.dev.bit Reg.TWIN_STAT 5 = true ∧ t.dev.twin.heard = true ∧ t.dev.twin.noStat = 0 ∧
    t.dev.twin.pPolicy = byteAt f.data 0 / 64 ∧
    (s.dev.role = 1 → byteAt f.data 0 % 8 = 2 → t.dev.role = 3 ∧ t.dev.bit Reg.TWIN_STAT 4 = false ∧ t.dev.twin.claimAt = none)) ∧
  (∀ (f : Frame) (p : Nat) (s : State), fKind f = 8 → fBad f = false → s.dev.LaneIn 24 → s.dev.role ≠ 0 → s.dev.tb.inPeriod = true → s.dev.tb.engPast = false →
    fPeriod f = s.dev.tb.k → f.data.length = 8 →
    let l := ((List.range 12).filter fun i => nbit (fieldAt f.data 1 2) i).map (· + 1)
    let e := s.dev.seeEpoch f
    s.dev.ownPort (byteAt f.data 0) = some p → l ≠ [] → s.dev.repollFits p l.length (80 * (s.dev.now - s.dev.tb.bnd)) = true →
    ∃ t, exec (.twinMissReceived f) s = .next t ∧ t.dev.outbox.head? = some (.frame p (mkFrame (e.sof 4 (e.endB p) l.length)
      ((if e.endB p then l else l.reverse).map fun i => BitVec.ofNat 8 (16 * i) :: List.replicate 23 (0 : Byte)).flatten))) ∧
  (∀ (f : Frame) (p : Nat) (s : State), fKind f = 12 → fBad f = false → s.dev.LaneIn 24 → s.dev.role ≠ 0 →
    ((List.range 24).find? fun p => s.dev.bit (Reg.RING_LINK_CTL p) 0 && s.dev.ringOf p == fRing f) = some p →
    ∃ t, exec (.twinServiceReceived f) s = .next t ∧
      t.dev = ((s.dev.setLane 24 fun l => { l with frm := 0 }).twinHeard.seeEpoch f).svcOwn p (s.dev.endB p) (mkFrame ((s.dev.seeEpoch f).sof 3 (s.dev.endB p) 0) f.data)) ∧
  (∀ (n : Fin 8) (v : Nat) (s : State), SMap.getD s.dev.twin.capBusy 0 n = v + 1 → s.dev.twin.shadowPer = none → ∃ t, exec (.contextCaptureDone n) s = .next t ∧
    SMap.getD t.dev.twin.caps 0 n = v + 1 ∧ SMap.getD t.dev.twin.capBusy 0 n = 0 ∧ s.dev.KeptBut [] t.dev) ∧
  (∀ s : State, s.dev.twin.shadowRun = true → (s.dev.tb.counting = true → s.dev.tb.bnd + s.dev.tb.engStart + 2 * s.dev.fld Reg.TWIN_LIVE 0 17 ≤ s.dev.nextSeq) →
    ∃ t, exec .liveRunStart s = .next t ∧ t.dev.twin.shadowRun = false ∧
    ∀ n < 8, s.dev.bit (Reg.AECTL_STAT n) 4 = true → t.dev.engRuns n = true ∧ (t.dev.eng n).pc = 0 ∧ (t.dev.eng n).cyc = 0 ∧
      (t.dev.eng n).per = s.dev.tb.k ∧ (t.dev.eng n).base = s.dev.fld Reg.TWIN_LIVE 0 17)

/-- Command changes hands. A takeover and a confirmed claim make the unit HOLDER under the epoch after the newest it has seen, with ARB_OUT high, after 200 ns without a block, before which nothing changes, and 1 us after the claim (R420, R421); a claim that loses
withdraws. A unit that yields follows from then on (R423). A swap is armed only between a holder and a standby for a period at least two ahead (R425); after the return hold the
preferred unit arms one (R426). Two periods without STATUS on a trained link raise FLT_TWIN_LINK (R427). TWIN_CTL and TWIN_CTX take what is legal while the atomizer stands
still (R405, R429). -/
def Obligations.TwinCommand : Prop :=
  let holder (s : State) (t : State) : Prop := t.dev.role = 2 ∧ t.dev.bit Reg.TWIN_STAT 4 = true ∧ t.dev.epoch = (s.dev.twin.seen + 1) % 256 ∧
    t.dev.twin.seen = (s.dev.twin.seen + 1) % 256 ∧ t.dev.bit Reg.TWIN_EVT 0 = true ∧ t.dev.twin.claimAt = none ∧
    t.dev.fld Reg.TWIN_CNT_TAKE 0 32 = min (2 ^ 32 - 1) (s.dev.fld Reg.TWIN_CNT_TAKE 0 32 + 1) ∧ (t.TapOff → t.pins.arb = true)
  (∀ s : State, s.dev.role = 4 ∨ (s.dev.role = 3 ∧ s.dev.bit Reg.TWIN_CTL 5 = true) → (s.dev.tb.counting = true → s.dev.twin.blkAt + 200 ≤ s.dev.nextSeq) →
    ∃ t, exec .takeover s = .next t ∧ holder s t) ∧
  (∀ s : State, s.dev.tb.counting = true → s.dev.nextSeq < s.dev.twin.blkAt + 200 → ∃ t, exec .takeover s = .next t ∧ t.dev = s.dev) ∧
  (∀ s : State, s.dev.role = 1 → s.dev.atm.running = true → s.dev.twin.claimAt = none → s.dev.bit Reg.TWIN_STAT 5 = false →
    ∃ t, exec .claim s = .next t ∧ t.dev.twin.claimAt = some s.dev.now ∧ t.dev.bit Reg.TWIN_STAT 4 = true ∧ t.dev.role = 1 ∧ s.dev.KeptBut [Reg.TWIN_STAT] t.dev) ∧
  (∀ (high : Bool) (c : Nat) (s : State), s.dev.twin.claimAt = some c → (s.dev.tb.counting = true → c + 1000 ≤ s.dev.nextSeq) → ∃ t, exec (.claimConfirm high) s = .next t ∧
    (if high = true ∧ s.dev.twinId = true then t.dev.bit Reg.TWIN_STAT 4 = false ∧ t.dev.bit Reg.TWIN_EVT 9 = true ∧ t.dev.twin.claimAt = none ∧ t.dev.role = s.dev.role
     else holder s t)) ∧
  (∀ s : State, s.dev.role = 2 → s.dev.twin.yieldDue = true ∨ s.dev.twinId = true → ∃ t, exec .yield s = .next t ∧ t.dev.role = 3 ∧ t.dev.bit Reg.TWIN_STAT 4 = false ∧ t.dev.bit Reg.TWIN_EVT 1 = true ∧
    t.dev.twin.passes = 0 ∧ t.dev.epoch = s.dev.twin.seen % 256 ∧ s.dev.KeptBut [Reg.TWIN_STAT, Reg.TWIN_EVT] t.dev) ∧
  (∀ (m : Master) (v : Word) (s : State), s.dev.BusOpen m Reg.TWIN_CMD → fieldOf v 16 16 = 0x5A7E →
    (v.getLsbD 0 = true → ∃ t, exec (.swap m v) s = .next t ∧
      (if v.getLsbD 1 = true then t.dev.bit Reg.TWIN_EVT 12 = true ∧ t.dev.twin = s.dev.twin
       else
        let p := (s.dev.rd Reg.TWIN_SWAP_AT).toNat
        let ahead := (p + 2 ^ 32 - s.dev.tb.k) % 2 ^ 32
        if (s.dev.role = 2 ∨ s.dev.role = 4) ∧ (s.dev.fld Reg.TWIN_STAT 6 3 = 2 ∨ s.dev.fld Reg.TWIN_STAT 6 3 = 4) ∧ s.dev.tb.inPeriod = true ∧ 2 ≤ ahead ∧ ahead < 2 ^ 31
        then t.dev.twin = { s.dev.twin with swapP := some p, swapAcc := false, partSwap := false } ∧ s.dev.KeptBut [] t.dev
        else t.dev.bit Reg.TWIN_EVT 3 = true ∧ t.dev.twin = s.dev.twin ∧ s.dev.KeptBut [Reg.TWIN_EVT] t.dev)) ∧
    (v.getLsbD 0 = false → v.getLsbD 1 = true → ∃ t, exec (.cancel m v) s = .next t ∧
      t.dev.twin = { s.dev.twin with swapP := none, swapAcc := false, partSwap := false } ∧ s.dev.KeptBut [] t.dev)) ∧
  (∀ s : State, s.dev.role = 4 → s.dev.bit Reg.TWIN_CTL 1 = true → s.dev.twin.pPref = false → s.dev.policyOf = 0 → s.dev.twin.mismatch = false →
    s.dev.twin.swapP = none → s.dev.tb.inPeriod = true → s.dev.tb.k < 2 ^ 32 → s.dev.fld Reg.TWIN_STAT 6 3 = 2 →
    (s.dev.tb.counting = true → s.dev.twin.sbyAt + s.dev.fld Reg.TWIN_HOLD 0 16 * 10 ^ 9 ≤ s.dev.nextSeq) →
    ∃ t, exec .returnHoldExpiry s = .next t ∧ t.dev.twin.swapP = some ((s.dev.tb.k + 2) % 2 ^ 32) ∧ s.dev.KeptBut [] t.dev) ∧
  (∀ s : State, s.dev.role ≠ 0 → s.dev.bit Reg.SYS_READY 15 = true → 2 ≤ s.dev.twin.noStat → s.dev.twin.statLost = false →
    ∃ t, exec .twinStatusTimeout s = .next t ∧ t.dev.bit Reg.TWIN_STAT 5 = false ∧ t.dev.twin.statLost = true ∧
      (s.dev.srcEnabled 89 = true → t.dev.srcPending 89 = true)) ∧
  (∀ (m : Master) (v : Word) (s : State), s.dev.BusOpen m Reg.TWIN_CTL → s.dev.atmRuns = false →
    let w := (if fieldOf v 8 4 = 0 then putField v 8 4 1 else v) &&& 0xF0F3F#32
    ∃ t, exec (.twinCtlWrite m v) s = .next t ∧
      (if 8 < fieldOf v 16 4 then t.dev.bit Reg.TWIN_EVT 12 = true ∧ s.dev.KeptBut [Reg.TWIN_EVT] t.dev
       else t.dev.rd Reg.TWIN_CTL = w ∧
         t.dev.role = (if v.getLsbD 0 = true ∧ s.dev.bit Reg.TWIN_CTL 0 = false then 1 else if v.getLsbD 0 = false ∧ s.dev.bit Reg.TWIN_CTL 0 = true then 0 else s.dev.role))) ∧
  (∀ (m : Master) (n : Fin 8) (v : Word) (s : State), s.dev.BusOpen m (Reg.TWIN_CTX n) → (∀ j < 8, j ≠ n.val → s.dev.bit (Reg.TWIN_CTX j) 0 = false) →
    ∃ t, exec (.twinCtxWrite m n v) s = .next t ∧
      (if s.dev.atmRuns = true ∨ 16 < fieldOf v 4 5 ∨ 512 < fieldOf v 16 10 ∨ (v.getLsbD 0 = true ∧ 2046 < 96 + 8 * fieldOf v 4 5 + 8 * fieldOf v 16 10)
       then t.dev.bit Reg.TWIN_EVT 12 = true ∧ s.dev.KeptBut [Reg.TWIN_EVT] t.dev
       else t.dev.fld (Reg.TWIN_CTX n) 4 5 = fieldOf v 4 5 ∧ t.dev.fld (Reg.TWIN_CTX n) 16 10 = fieldOf v 16 10 ∧
         t.dev.bit (Reg.TWIN_CTX n) 0 = v.getLsbD 0 ∧ s.dev.KeptBut [Reg.TWIN_CTX n] t.dev))

/-! ### Clocks and device time -/

/-- The synthesisers. Without the reference every synthesiser is unlocked, the event counts and FLT_PLL_UNLOCK is raised for one in use; with it back all three re-lock
(R431, R434, R437, R439). A loss of lock takes the ready bit, and SYN1's takes device time (R434, R445). A re-lock of SYN0 takes the staged reference and spread and
the first band entry that fits, or none with CFG_ERR (R433, R437, R442). A lock shows and, for SYN1, starts device time, from the holdover count where that is valid (R74,
R445). A re-lock is keyed and refused while the atomizer runs (R440); the trim goes to 1,000,000 ppb (R436). LOCKF and the band edge show (R433, R441).
SYN0 locks only on an entry whose band reaches its frequencies at the junction temperature (R527). -/
def Obligations.Synthesisers : Prop :=
  let alarm (i : Nat) (s : State) (e : Dev) : Prop := s.dev.srcEnabled i = true → e.srcPending i = true
  (∀ s : State, s.dev.pwr.safeOn = true → s.dev.clk.refLost = false → ∃ t, exec .refLost s = .next t ∧ t.dev.clk.refLost = true ∧ t.dev.clk.refOk = false ∧
    t.dev.bit Reg.CLK_STAT 3 = false ∧ t.dev.bit Reg.CLK_EVT 3 = true ∧ ∀ i < 3, t.dev.bit Reg.CLK_STAT i = false ∧
      (s.dev.bit Reg.CLK_STAT i = true → t.dev.bit Reg.CLK_EVT i = true ∧ (s.dev.synInUse i = true → alarm 88 s t.dev))) ∧
  (∀ s : State, s.dev.pwr.safeOn = true → s.dev.clk.refOk = false → ∃ t, exec .refBack s = .next t ∧ t.dev.clk.refOk = true ∧
    t.dev.clk.refLost = false ∧ t.dev.bit Reg.CLK_STAT 3 = true ∧ t.dev.bit Reg.CLK_STAT 6 = false ∧ t.dev.bit Reg.CLK_EVT 4 = true ∧ t.dev.clk.busy = (if s.dev.clk.refLost = true then 7 else s.dev.clk.busy) ∧
    s.dev.KeptBut [Reg.CLK_STAT, Reg.CLK_EVT] t.dev) ∧
  (∀ (n : Fin 3) (s : State), s.dev.bit Reg.CLK_STAT n = true → ∃ t, exec (.synUnlock n) s = .next t ∧ t.dev.bit Reg.CLK_STAT n = false ∧
    t.dev.bit Reg.CLK_EVT n = true ∧ t.dev.bit Reg.SYS_READY (5 + n) = false ∧ t.dev.clk.busy.getLsbD n = true ∧
    t.dev.fld Reg.CLK_CNT_UNLOCK (8 * n) 8 = min 255 (s.dev.fld Reg.CLK_CNT_UNLOCK (8 * n) 8 + 1) ∧ (s.dev.synInUse n = true → alarm 88 s t.dev) ∧
    (n.val = 0 → t.dev.bit Reg.CLK_STAT 5 = true ∧ t.dev.tb = s.dev.tb) ∧
    (n.val = 1 → t.dev.tb.counting = false ∧ t.dev.tb.inPeriod = false ∧ t.dev.bit Reg.SYS_READY 9 = false ∧ t.dev.bit Reg.GATE_CAL 0 = false ∧
      (s.dev.bit Reg.SYS_READY 9 = true → t.dev.bit Reg.TIME_EVT 0 = true ∧ alarm 95 s t.dev))) ∧
  (∀ (n : Fin 3) (s : State), s.dev.clk.busy.getLsbD n = true → ∃ t, exec (.relock n) s = .next t ∧ t.dev.bit Reg.CLK_STAT n = false ∧
    (n.val = 0 →
      let fits (i : Nat) : Bool := bandFits (s.dev.rd (Reg.CLK_BAND i)) (s.dev.fld Reg.CLK_SYN0 0 3) (s.dev.fld Reg.CLK_TRIM 0 20)
      t.dev.clk.refSel = s.dev.fld Reg.CLK_CTL 0 4 ∧ t.dev.fld Reg.CLK_STAT 8 3 = s.dev.fld Reg.CLK_SYN0 0 3 ∧
      (∀ i < 32, fits i = true → (∀ j < i, fits j = false) → t.dev.fld Reg.CLK_STAT 16 5 = i ∧
        t.dev.clk.band = s.dev.fld (Reg.CLK_BAND i) 0 6 ∧ t.dev.clk.noBand = false) ∧
      ((∀ i < 32, fits i = false) → t.dev.bit Reg.CLK_EVT 7 = true ∧ t.dev.clk.noBand = true))) ∧
  (∀ (n : Fin 3) (s : State), s.dev.pwr.safeOn = true → s.dev.clk.refLost = false → s.dev.bit Reg.CLK_STAT n = false →
    (n.val = 0 → s.dev.clk.chosen = true ∧ s.dev.clk.noBand = false ∧ s.dev.vcoTunes = true) → ∃ t, exec (.synLock n) s = .next t ∧ t.dev.bit Reg.CLK_STAT n = true ∧
      (n.val = 0 → t.dev.bit Reg.CLK_STAT 4 = true ∧ t.dev.tb = s.dev.tb ∧ (s.dev.clk.busy.getLsbD 0 = false → t.dev.bit Reg.SYS_READY 5 = true)) ∧
      (n.val ≠ 0 → t.dev.bit Reg.SYS_READY (5 + n) = true ∧ t.dev.clk.busy.getLsbD n = false) ∧
      (n.val = 1 → t.dev.tb.counting = true ∧
        (if s.dev.bit Reg.AMB_STATUS 6 = true then t.dev.tb.dt = s.dev.amb.hold * 2 ^ 32 ∧ t.dev.bit Reg.SYS_READY 9 = true ∧ t.dev.fld Reg.TIME_STATUS 0 3 = 3
         else t.dev.tb.dt = s.dev.tb.dt ∧ t.dev.bit Reg.SYS_READY 9 = s.dev.bit Reg.SYS_READY 9 ∧ t.dev.fld Reg.TIME_STATUS 0 3 = 0))) ∧
  (∀ s : State, s.dev.clk.chosen = true → s.dev.clk.noBand = true ∨ s.dev.vcoTunes = false → ∃ t, exec (.synLock 0) s = .next t ∧ t.dev = s.dev) ∧
  (∀ b : Nat, bandRange b 400 = (max 76800000 (16 * (4700000 + 37500 * (b : Int))), min 115200000 (16 * (4900000 + 37500 * (b : Int))))) ∧
  (∀ s : State, s.dev.clk.busy.getLsbD 0 = true → s.dev.bit Reg.CLK_STAT 0 = true → ∃ t, exec .relockDone s = .next t ∧ t.dev.clk.busy.getLsbD 0 = false ∧
    t.dev.bit Reg.CLK_STAT 5 = false ∧ t.dev.bit Reg.CLK_STAT 6 = false ∧ t.dev.bit Reg.SYS_READY 5 = true ∧ t.dev.bit Reg.CLK_EVT 5 = true) ∧
  (∀ (m : Master) (v : Word) (s : State), s.dev.BusOpen m Reg.CLK_RELOCK → ∃ t, exec (.clkRelockGo m v) s = .next t ∧
    (if fieldOf v 16 16 = 0x5C0C ∧ v.getLsbD 0 = true then
      if s.dev.atmRuns = true then t.dev.bit Reg.CLK_EVT 7 = true ∧ t.dev.clk = s.dev.clk ∧ s.dev.KeptBut [Reg.CLK_EVT] t.dev
      else t.dev.clk.busy.getLsbD 0 = true ∧ t.dev.bit Reg.CLK_STAT 0 = false ∧ (s.dev.bit Reg.CLK_STAT 0 = true → t.dev.bit Reg.CLK_STAT 5 = true ∧ alarm 88 s t.dev)
     else t.dev = s.dev.putBusResp ⟨0, 0⟩)) ∧
  (∀ (m : Master) (v : Word) (s : State), s.dev.BusOpen m Reg.CLK_TRIM → ∃ t, exec (.clkTrimWrite m v) s = .next t ∧
    (if 1000000 < fieldOf v 0 20 then t.dev.bit Reg.CLK_EVT 7 = true ∧ s.dev.KeptBut [Reg.CLK_EVT] t.dev
     else t.dev.fld Reg.CLK_TRIM 0 20 = fieldOf v 0 20 ∧ s.dev.KeptBut [Reg.CLK_TRIM] t.dev)) ∧
  (∀ s : State, (∃ t, exec .lockfClear s = .next t ∧ t.dev.bit Reg.CLK_STAT 4 = false ∧
      (s.dev.bit Reg.CLK_CTL 4 = false → s.dev.KeptBut [Reg.CLK_STAT] t.dev) ∧
      (s.dev.bit Reg.CLK_CTL 4 = true → s.dev.bit Reg.CLK_STAT 0 = true → t.dev.bit Reg.CLK_STAT 0 = false ∧ t.dev.bit Reg.CLK_EVT 0 = true ∧ alarm 88 s t.dev)) ∧
    (s.dev.bit Reg.CLK_STAT 0 = true → s.dev.vcoNearEdge = true → ∃ t, exec .bandEdge s = .next t ∧ t.dev.bit Reg.CLK_STAT 7 = true ∧ t.dev.bit Reg.CLK_EVT 6 = true ∧
      s.dev.KeptBut [Reg.CLK_STAT, Reg.CLK_EVT] t.dev))

/-- Device time. STEP waits for the next boundary where it may be made there, else STEP_REF (R446); SET loads it while it is not valid and counts (R448). The
parameters of the period are taken where they are legal, and the grid only while the atomizer and every ring port stand still; else PER_REF (R16 to R19).
PPS_OUT is sent at the next second plus OUT; an edge of PPS_IN is stamped and its error to the nearest second shown, and one within 0.5 s of the last ignored;
2 s without one are PPS_LOST (R455, R456). -/
def Obligations.DeviceTime : Prop :=
  (∀ (m : Master) (v : Word) (s : State), s.dev.BusOpen m Reg.TIME_CMD → fieldOf v 16 16 = 0x7153 →
    let x := sext 64 (s.dev.pair Reg.TIME_STEP_LO Reg.TIME_STEP_HI) * 65536
    (v.getLsbD 0 = true → v.getLsbD 1 = false → ∃ t, exec (.step m v) s = .next t ∧ t.dev.tb.dt = s.dev.tb.dt ∧
      (if s.dev.stepOk x s.dev.nextBoundary = true then t.dev.tb.stepPend = some x ∧ t.dev.tb.stepSrv = none ∧ s.dev.KeptBut [Reg.TIME_STATUS] t.dev
       else t.dev.tb = s.dev.tb ∧ t.dev.bit Reg.TIME_STATUS 10 = true ∧ s.dev.KeptBut [Reg.TIME_STATUS] t.dev)) ∧
    (v.getLsbD 0 = false → v.getLsbD 1 = true → ∃ t, exec (.set m v) s = .next t ∧
      (if s.dev.bit Reg.SYS_READY 9 = true ∨ s.dev.tb.counting = false then t.dev.tb = s.dev.tb ∧ t.dev.bit Reg.TIME_STATUS 10 = true ∧
         s.dev.KeptBut [Reg.TIME_STATUS] t.dev
       else t.dev.now = s.dev.pair Reg.TIME_STEP_LO Reg.TIME_STEP_HI ∧ t.dev.tb.notBefore = t.dev.now + 10000 ∧ t.dev.bit Reg.SYS_READY 9 = true ∧
         t.dev.fld Reg.TIME_STATUS 0 3 = 4))) ∧
  (∀ (m : Master) (v : Word) (s : State), s.dev.BusOpen m Reg.TIME_PHASES → ∃ t, exec (.timePhasesWrite m v) s = .next t ∧
    (if phasesOk (fieldOf v 0 16) (fieldOf v 16 16) s.dev.tb.tP = true ∧
        (∀ p, s.dev.tb.oldTP = some p → phasesOk (fieldOf v 0 16) (fieldOf v 16 16) p = true) ∧
        (s.dev.tb.gridPend = false ∨ phasesOk (fieldOf v 0 16) (fieldOf v 16 16) (s.dev.fld Reg.TIME_PERIOD 0 18) = true)
     then t.dev.rd Reg.TIME_PHASES = v ∧ t.dev.tb = { s.dev.tb with phPend := true } ∧ s.dev.KeptBut [Reg.TIME_PHASES] t.dev
     else t.dev.bit Reg.TIME_STATUS 8 = true ∧ t.dev.tb = s.dev.tb ∧ s.dev.KeptBut [Reg.TIME_STATUS] t.dev)) ∧
  (∀ (m : Master) (v : Word) (s : State), let x := fieldOf v 0 18
    (s.dev.BusOpen m Reg.TIME_PERIOD → ∃ t, exec (.timePeriodWrite m false v) s = .next t ∧
      (if s.dev.atmRuns = false ∧ s.dev.anyRun = false ∧ 10000 ≤ x ∧ x ≤ 200000 ∧ x % 10 = 0 ∧ s.dev.fld Reg.TIME_ANCHOR 0 18 < x ∧
          phasesOk (s.dev.tb.engStart / 10) (s.dev.tb.outPhase / 10) x = true ∧ phasesOk (s.dev.fld Reg.TIME_PHASES 0 16) (s.dev.fld Reg.TIME_PHASES 16 16) x = true
       then t.dev.fld Reg.TIME_PERIOD 0 18 = x ∧ t.dev.tb = { s.dev.tb with gridPend := true } ∧ s.dev.KeptBut [Reg.TIME_PERIOD] t.dev
       else t.dev.bit Reg.TIME_STATUS 8 = true ∧ t.dev.tb = s.dev.tb ∧ s.dev.KeptBut [Reg.TIME_STATUS] t.dev)) ∧
    (s.dev.BusOpen m Reg.TIME_ANCHOR → ∃ t, exec (.timePeriodWrite m true v) s = .next t ∧
      (if s.dev.atmRuns = false ∧ s.dev.anyRun = false ∧ x < s.dev.fld Reg.TIME_PERIOD 0 18
       then t.dev.fld Reg.TIME_ANCHOR 0 18 = x ∧ t.dev.tb = { s.dev.tb with gridPend := true } ∧ s.dev.KeptBut [Reg.TIME_ANCHOR] t.dev
       else t.dev.bit Reg.TIME_STATUS 8 = true ∧ t.dev.tb = s.dev.tb ∧ s.dev.KeptBut [Reg.TIME_STATUS] t.dev))) ∧
  (∀ s : State, s.dev.bit Reg.TIME_PPS_CTL 0 = true → s.dev.bit Reg.SYS_READY 9 = true →
    let at' := gridFrom (max s.dev.now s.dev.tsrv.ppsNext) (s.dev.fld Reg.TIME_PPS_OFS 0 30) 1000000000
    s.dev.Due at' → ∃ t, exec .ppsOut s = .next t ∧ t.dev.outbox = .pps at' :: s.dev.outbox ∧ t.dev.tsrv.ppsOut = true ∧
      t.dev.tsrv.ppsFall = at' + s.dev.fld Reg.TIME_PPS_CTL 8 8 * 1000000 ∧ s.dev.KeptBut [] t.dev) ∧
  (∀ (stamp : Nat) (s : State), s.dev.bit Reg.TIME_PPS_CTL 1 = true →
    ((∃ k, s.dev.tsrv.ppsLast = some k ∧ stamp < k + 500000000) → ∃ t, exec (.ppsInEdge stamp) s = .next t ∧ t.dev = s.dev) ∧
    ((∀ k, s.dev.tsrv.ppsLast = some k → k + 500000000 ≤ stamp) → s.dev.bit Reg.TIME_PPS_CTL 2 = false →
      let x : Int := stamp - sext 32 (s.dev.rd Reg.TIME_PPS_INOFS).toNat
      ∃ t, exec (.ppsInEdge stamp) s = .next t ∧ t.dev.tsrv.ppsLast = some stamp ∧ t.dev.rd Reg.TIME_PPSIN_LO = BitVec.ofNat 32 stamp ∧
        t.dev.rd Reg.TIME_PPSIN_HI = BitVec.ofNat 32 (stamp / 2 ^ 32) ∧
        t.dev.rd Reg.TIME_PPSIN_ERR = BitVec.ofInt 32 (x - 1000000000 * ((2 * x + 1000000000) / 2000000000)) ∧
        s.dev.KeptBut [Reg.TIME_PPSIN_LO, Reg.TIME_PPSIN_HI, Reg.TIME_PPSIN_ERR] t.dev)) ∧
  (∀ s : State, s.dev.bit Reg.TIME_PPS_CTL 1 = true → s.dev.Due (s.dev.tsrv.ppsWait + 2000000000) → ∃ t, exec .ppsLost s = .next t ∧ t.dev.bit Reg.TIME_EVT 5 = true ∧ s.dev.KeptBut [Reg.TIME_EVT] t.dev)

/-- The servos. In LOCKED a sample more than LIMIT from where the last one and the rate put it is counted and not used, and LIMIT_N of them in a row, or none
accepted for HOLD_N intervals, lead to HOLDOVER at the held frequency; one within is shown and goes through integral and proportional part, the integrator held where u is
clamped (R444, R449 to R451). In ACQUIRE the samples that agree are counted (R452). Software's samples of servo A are ignored and counted while PPS_IN feeds it (R456).
SEL waits for the new servo's next sample; SEL 0 ends the rate (R444, R453). -/
def Obligations.Servos : Prop :=
  (∀ (m : Master) (n : Fin 2) (v : Word) (s : State), s.dev.BusOpen m (Reg.SRV_SMP_HI n) →
    let x := sext 64 (v.toNat * 2 ^ 32 + (s.dev.servo n).smpLo.toNat)
    let far := x - ((s.dev.servo n).lastX + s.dev.drift n ((s.dev.servo n).rej + 1))
    let lim : Int := s.dev.fld (Reg.SRV_OUTL n) 0 16 * 65536
    (n.val = 0 → s.dev.bit Reg.TIME_PPS_CTL 1 = true → s.dev.bit Reg.TIME_PPS_CTL 2 = true → ∃ t, exec (.servoSample m n v) s = .next t ∧
      t.dev.servos = s.dev.servos ∧ t.dev.fld (Reg.SRV_CNT_REJ 0) 0 32 = min (2 ^ 32 - 1) (s.dev.fld (Reg.SRV_CNT_REJ 0) 0 32 + 1) ∧
      s.dev.KeptBut [Reg.SRV_CNT_REJ 0] t.dev) ∧
    ((n.val = 0 → s.dev.bit Reg.TIME_PPS_CTL 1 = false ∨ s.dev.bit Reg.TIME_PPS_CTL 2 = false) → s.dev.bit (Reg.SRV_CTL n) 0 = true →
      (s.dev.srvState n = 2 → (lim < far ∨ far < -lim) → ∃ t, exec (.servoSample m n v) s = .next t ∧
        t.dev.fld (Reg.SRV_CNT_REJ n) 0 32 = min (2 ^ 32 - 1) (s.dev.fld (Reg.SRV_CNT_REJ n) 0 32 + 1) ∧ t.dev.rd (Reg.SRV_OFS n) = s.dev.rd (Reg.SRV_OFS n) ∧
        (t.dev.servo n).integ = (s.dev.servo n).integ ∧ (t.dev.servo n).lastX = (s.dev.servo n).lastX ∧
        (if s.dev.fld (Reg.SRV_OUTL n) 16 4 ≤ (s.dev.servo n).rej + 1 then t.dev.srvState n = 3
         else t.dev.srvState n = 2 ∧ (t.dev.servo n).rej = (s.dev.servo n).rej + 1)) ∧
      (s.dev.srvState n = 2 → -lim ≤ far → far ≤ lim → s.dev.tsrv.pendSel ≠ some (n.val + 1) → (s.dev.servo n).slew = false →
        let i := (s.dev.servo n).integ + s.dev.fld (Reg.SRV_GAIN n) 16 16 * x
        let u := -(divS (s.dev.logint n) (s.dev.fld (Reg.SRV_GAIN n) 0 16 * x + i))
        let mx : Int := s.dev.fld Reg.TIME_SLEW 0 10 * 1000 * 2 ^ 39
        ∃ t, exec (.servoSample m n v) s = .next t ∧ (t.dev.servo n).lastX = x ∧ (t.dev.servo n).rej = 0 ∧
          (t.dev.servo n).integ = (if mx < u ∨ u < -mx then (s.dev.servo n).integ else i) ∧
          t.dev.rd (Reg.SRV_OFS n) = wordI (clampI (-2147483648) 2147483647 (rnd x 65536)) ∧
          t.dev.rd Reg.TIME_RATE = (if s.dev.tsrv.inUse = n.val + 1 then wordI (clampI (-(mx * 2 / 1000000000)) (mx * 2 / 1000000000) (rnd (clampI (-mx) mx u * 2) 1000000000)) else s.dev.rd Reg.TIME_RATE) ∧
          s.dev.KeptBut [Reg.SRV_OFS n, Reg.SRV_FREQ n, Reg.TIME_RATE, Reg.TIME_STATUS] t.dev) ∧
      (s.dev.srvState n = 1 → (s.dev.servo n).agree = 0 → 2 ≤ s.dev.fld (Reg.SRV_CTL n) 28 4 → s.dev.tsrv.pendSel ≠ some (n.val + 1) →
        ∃ t, exec (.servoSample m n v) s = .next t ∧ (t.dev.servo n).agree = 1 ∧ (t.dev.servo n).lastX = x ∧ t.dev.fld (Reg.SRV_STAT n) 4 4 = 1 ∧
          t.dev.srvState n = 1 ∧ s.dev.KeptBut [Reg.SRV_OFS n, Reg.SRV_STAT n] t.dev))) ∧
  (∀ (n : Fin 2) (s : State), s.dev.srvState n = 2 →
    s.dev.DueOrStill ((s.dev.servo n).lastAt + s.dev.fld (Reg.SRV_CTL n) 24 4 * 1000000000 * 2 ^ (s.dev.logint n + 7).toNat / 128) →
    ∃ t, exec (.servoHoldover n) s = .next t ∧ t.dev.srvState n = 3 ∧ (t.dev.servo n).slew = false ∧
    (t.dev.servo n).integ = (s.dev.servo n).integ ∧
    (s.dev.tsrv.inUse = n.val + 1 → t.dev.bit Reg.TIME_EVT 1 = true ∧
      let mx : Int := s.dev.fld Reg.TIME_SLEW 0 10 * 1000 * 2 ^ 39
      t.dev.rd Reg.TIME_RATE = wordI (clampI (-(mx * 2 / 1000000000)) (mx * 2 / 1000000000) (rnd (clampI (-mx) mx (s.dev.heldU n) * 2) 1000000000))) ∧
    (s.dev.tsrv.inUse ≠ n.val + 1 → s.dev.KeptBut [Reg.SRV_STAT n, Reg.TIME_STATUS] t.dev)) ∧
  (∀ (m : Master) (v : Word) (s : State), s.dev.BusOpen m Reg.TIME_CTL → ∃ t, exec (.timeSelWrite m v) s = .next t ∧
    let sel := fieldOf v 1 2
    (sel = 3 → t.dev.bit Reg.TIME_EVT 6 = true ∧ t.dev.tsrv = s.dev.tsrv ∧ s.dev.KeptBut [Reg.TIME_EVT] t.dev) ∧
    (sel < 3 → t.dev.fld Reg.TIME_CTL 0 4 = fieldOf v 0 4 ∧
      (sel = s.dev.fld Reg.TIME_CTL 1 2 → t.dev.tsrv = s.dev.tsrv ∧ s.dev.KeptBut [Reg.TIME_CTL] t.dev) ∧
      (sel ≠ s.dev.fld Reg.TIME_CTL 1 2 → sel = 0 → t.dev.tsrv = { s.dev.tsrv with inUse := 0, pendSel := none } ∧ t.dev.rd Reg.TIME_RATE = 0 ∧
        s.dev.KeptBut [Reg.TIME_CTL, Reg.TIME_RATE, Reg.TIME_STATUS] t.dev) ∧
      (sel ≠ s.dev.fld Reg.TIME_CTL 1 2 → sel ≠ 0 → t.dev.tsrv = { s.dev.tsrv with pendSel := if s.dev.tsrv.inUse = sel then none else some sel } ∧
        s.dev.KeptBut [Reg.TIME_CTL] t.dev)))

/-! ### Ports, queues, check values -/

/-- The Ethernet ports and the switch. A change of the link shows with its event (R459, R479). A received frame of wrong length, with a bad FCS, or of flow control is dropped and
counted (R460); an accepted one counts, its source is learned (R462), and a unicast frame to a known port joins that port's egress queue of its priority (R462 to R464). A port sends the
head of its highest queue, padded to the minimum, and its slots return (R460, R464); the internal port takes a packet of a queue whose consumer is the switch. Ageing removes
one address whose time is over (R462); MDIO_GO sends its frame, and is refused while one runs (R461); a read of ETH_TXTS_INFO takes the oldest stamp (R469, R479). -/
def Obligations.EthernetPortsAndSwitch : Prop :=
  let more (a : Nat) (s : State) (e : Dev) : Prop := e.fld a 0 32 = min (2 ^ 32 - 1) (s.dev.fld a 0 32 + 1)
  (∀ (n : Fin 4) (up an : Bool) (speed : Fin 4) (s : State), s.dev.domainOn 5 = true → (up = true → s.dev.bit (Reg.ETH_CTL n) 0 = true) →
    let mode := s.dev.fld (Reg.ETH_CTL n) 1 2
    ∃ t, exec (.ethLinkChange n up speed an) s = .next t ∧ t.dev.bit (Reg.ETH_STAT n) 0 = up ∧
      t.dev.bit (Reg.ETH_STAT n) 1 = (an && (mode == 2 || (mode == 0 && s.dev.bit (Reg.ETH_CTL n) 3))) ∧
      t.dev.fld (Reg.ETH_STAT n) 2 2 = (if mode = 0 then 2 else if mode = 1 then 3 else min 2 speed.val) ∧
      (if up = s.dev.bit (Reg.ETH_STAT n) 0 then s.dev.KeptBut [Reg.ETH_STAT n] t.dev
       else t.dev.bit (Reg.ETH_EVT n) (if up then 0 else 1) = true ∧ s.dev.KeptBut [Reg.ETH_STAT n, Reg.ETH_EVT n] t.dev)) ∧
  (∀ (n : Fin 4) (f : List Byte) (ok : Bool) (stamp : Nat) (s : State), s.dev.NetRuns → s.dev.bit (Reg.ETH_CTL n) 0 = true →
    let short := f.length < 60 ∨ s.dev.fld (Reg.ETH_MAXLEN n) 0 14 < f.length + 4
    let drop (c : Nat) : Prop := ∃ t, exec (.ethFrameReceived n f ok stamp) s = .next t ∧ more (Reg.ETH_CNT n c) s t.dev ∧ t.dev.net = s.dev.net ∧
      s.dev.KeptBut [Reg.ETH_CNT n c] t.dev
    (short → drop 2) ∧ (¬short → ok = false → drop 1) ∧ (¬short → ok = true → fieldAt (untag f) 12 2 = 0x8808 → drop 5) ∧
    (∀ (mem un p port at' : Nat), ¬short → ok = true → fieldAt f 12 2 ≠ 0x8808 → isTagged f = false → looksPtp f = false → s.dev.prpEn = false → s.dev.tc < 2 →
      s.dev.bit Reg.SW_CTL 0 = true → s.dev.bit (Reg.SW_PORT n) 16 = false → s.dev.vlan (s.dev.fld (Reg.SW_PORT n) 0 12) = some (mem, un) →
      nbit mem n = true → nbit mem p = true → p < 4 → p ≠ n → fieldAt f 0 6 / 2 ^ 40 % 2 = 0 → s.dev.bit Reg.SW_CTL 4 = false →
      (s.dev.net.macs.find? fun e => e.1 == s.dev.fld (Reg.SW_PORT n) 0 12 && e.2.1 == fieldAt f 0 6) = some (s.dev.fld (Reg.SW_PORT n) 0 12, fieldAt f 0 6, p, at') →
      s.dev.egSlots + slotsFor f.length ≤ s.dev.fld Reg.SW_BUF 0 14 → slotsFor f.length ≤ s.dev.freeSlots → port = 8 * p + s.dev.fld (Reg.SW_PORT n) 12 3 →
      ∃ t, exec (.ethFrameReceived n f ok stamp) s = .next t ∧ more (Reg.ETH_CNT n 0) s t.dev ∧ t.dev.freeSlots + slotsFor f.length = s.dev.freeSlots ∧
        ∃ x ∈ SMap.getD t.dev.net.egress [] port, SMap.getD t.dev.net.egress [] port = SMap.getD s.dev.net.egress [] port ++ [x] ∧ x.len = f.length ∧
          x.src = n.val ∧ x.slots.length = slotsFor f.length ∧ x.stamp = ((stamp : Int) + s.dev.tsAdj n 0).toNat) ∧
    (∀ (mem un : Nat), ¬short → ok = true → fieldAt f 12 2 ≠ 0x8808 → isTagged f = false → s.dev.prpEn = false → s.dev.bit Reg.SW_CTL 0 = true →
      s.dev.bit (Reg.SW_PORT n) 16 = false → s.dev.vlan (s.dev.fld (Reg.SW_PORT n) 0 12) = some (mem, un) → nbit mem n = true → s.dev.bit Reg.SW_CTL 4 = true →
      s.dev.net.macs.length < 4 → ∃ t, exec (.ethFrameReceived n f ok stamp) s = .next t ∧ more (Reg.ETH_CNT n 0) s t.dev ∧
        (s.dev.fld (Reg.SW_PORT n) 0 12, fieldAt f 6 6, n.val, s.dev.now) ∈ t.dev.net.macs)) ∧
  (∀ (n : Fin 5) (stamp k : Nat) (x : EgFrame) (rest : List EgFrame) (mem un : Nat) (s : State), s.dev.NetRuns → n.val < 4 →
    s.dev.bit (Reg.ETH_CTL n) 0 = true → s.dev.bit (Reg.ETH_STAT n) 0 = true → s.dev.nextEgress n = some k → SMap.getD s.dev.net.egress [] k = x :: rest →
    s.dev.PktClean x.slots x.len → ptpAt (s.dev.pktBytes x.slots x.len) = none → x.tsreq = false → s.dev.vlan (x.tci % 4096) = some (mem, un) →
    let f := if nbit un n = true then s.dev.pktBytes x.slots x.len else addTag x.tci (s.dev.pktBytes x.slots x.len)
    max 60 (x.len + (if nbit un n = true then 0 else 4)) + 4 ≤ s.dev.fld (Reg.ETH_MAXLEN n) 0 14 →
    ∃ t, exec (.ethFrameTransmit n stamp) s = .next t ∧ t.dev.outbox = .eth n (f ++ List.replicate (60 - f.length) 0) :: s.dev.outbox ∧
      SMap.getD t.dev.net.egress [] k = rest ∧ more (Reg.ETH_CNT n 4) s t.dev ∧ t.dev.freeSlots = (s.dev.freeSlots + x.slots.length) % 2 ^ 14 ∧
      s.dev.KeptBut [Reg.ETH_CNT n 4, Reg.QM_STAT] t.dev) ∧
  (∀ (stamp : Nat) (s : State), s.dev.NetRuns →
    let takes (q : Nat) : Prop := q < 64 ∧ s.dev.bit Reg.QM_CTL 0 = true ∧ s.dev.bit (Reg.QM_Q_CFG q) 0 = true ∧ s.dev.qCons q = 1 ∧ (s.dev.qHead q).isSome = true
    (∃ q, takes q) → ∃ t q, exec (.ethFrameTransmit 4 stamp) s = .next t ∧ takes q ∧ t.dev.qpkts q = (s.dev.qpkts q).drop 1 ∧
      ∀ r, r ≠ q → t.dev.qpkts r = s.dev.qpkts r) ∧
  (∀ (vid : BitVec 12) (mac : BitVec 48) (s : State),
    (∀ e ∈ s.dev.net.macs, e.1 = vid.toNat → e.2.1 = mac.toNat → s.dev.DueOrStill (e.2.2.2 + s.dev.fld Reg.SW_AGE 0 16 * 1000000000)) →
    ∃ t, exec (.addressAgeOut vid mac) s = .next t ∧ s.dev.KeptBut [] t.dev ∧
    ∀ e, e ∈ t.dev.net.macs ↔ e ∈ s.dev.net.macs ∧ ¬(e.1 = vid.toNat ∧ e.2.1 = mac.toNat)) ∧
  (∀ (m : Master) (v : Word) (s : State), s.dev.BusOpen m Reg.SW_MDIO → v.getLsbD 11 = true → ∃ t, exec (.mdioGo m v) s = .next t ∧
    (if s.dev.bit Reg.SW_MDIO 11 = true then t.dev.bit Reg.SW_EVT 2 = true ∧ t.dev.outbox = s.dev.outbox ∧ s.dev.KeptBut [Reg.SW_EVT] t.dev
     else t.dev.bit Reg.SW_MDIO 11 = true ∧ t.dev.fld Reg.SW_MDIO 0 11 = fieldOf v 0 11 ∧ s.dev.KeptBut [Reg.SW_MDIO] t.dev ∧
       t.dev.outbox = .mdio (if v.getLsbD 10 = true then 0b0101#4 ++ v.extractLsb' 5 5 ++ v.extractLsb' 0 5 ++ 0b10#2 ++ v.extractLsb' 16 16
         else 0b0110#4 ++ v.extractLsb' 5 5 ++ v.extractLsb' 0 5 ++ 0b10#2 ++ 0#16) :: s.dev.outbox)) ∧
  (∀ (x : BitVec 16) (s : State), s.dev.bit Reg.SW_MDIO 11 = true → ∃ t, exec (.mdioDone x) s = .next t ∧ t.dev.bit Reg.SW_MDIO 11 = false ∧
    t.dev.bit Reg.SW_EVT 1 = true ∧ t.dev.fld Reg.SW_MDIO 16 16 = (if s.dev.bit Reg.SW_MDIO 10 = true then s.dev.fld Reg.SW_MDIO 16 16 else x.toNat) ∧
    s.dev.KeptBut [Reg.SW_MDIO, Reg.SW_EVT] t.dev) ∧
  (∀ (m : Master) (n : Fin 4) (s : State), s.dev.busCode m (Reg.ETH_TXTS_INFO n) .b32 false = none →
    SMap.getD s.dev.shadow 0 (shadowKey m (Reg.ETH_TXTS_INFO n)) = 0 → ∃ t, exec (.ethTxtsRead m n) s = .next t ∧
    t.dev.busResp = ⟨s.dev.rd (Reg.ETH_TXTS_INFO n), 0⟩ ∧ SMap.getD t.dev.net.txts [] n = (SMap.getD s.dev.net.txts [] n).drop 1 ∧
    s.dev.KeptBut [Reg.ETH_TXTS_LO n, Reg.ETH_TXTS_HI n, Reg.ETH_TXTS_INFO n] t.dev ∧
    (∀ e rest, (SMap.getD s.dev.net.txts [] n).drop 1 = e :: rest → t.dev.rd (Reg.ETH_TXTS_LO n) = BitVec.ofNat 32 e.1) ∧
    ((SMap.getD s.dev.net.txts [] n).drop 1 = [] → t.dev.rd (Reg.ETH_TXTS_INFO n) = 0))

/-- The packet queues. Software opens a packet where its queue is enabled for it and has none open: a length outside the limit is refused, as is one without room, each
counted; else its slots are taken and the first one shown (R470 to R472, R476). COMMIT ends it, and one that grew too long, or ABORT, takes it back, or ends it with ABORT where the consumer
has seen it (R473, R474). DONE and DROP remove the head packet and return its slots (R475). -/
def Obligations.PacketQueues : Prop :=
  (∀ (m : Master) (q : Fin 64) (v : Word) (s : State), s.dev.BusOpen m (Reg.QM_Q_OPEN q) →
    let len := fieldOf v 0 16
    let refused (i : Nat) (e : Dev) : Prop := e.bit Reg.QM_EVT i = true ∧ e.net = s.dev.net ∧ e.mem = s.dev.mem
    let counted (e : Dev) : Prop := e.fld Reg.QM_CNT_REF 0 32 = min (2 ^ 32 - 1) (s.dev.fld Reg.QM_CNT_REF 0 32 + 1)
    ∃ t, exec (.qmQOpen m q v) s = .next t ∧
      (s.dev.qFor q 0 = false ∨ (s.dev.qOpenPkt q).isSome = true → refused 4 t.dev ∧ s.dev.KeptBut [Reg.QM_EVT] t.dev) ∧
      (s.dev.qFor q 0 = true → s.dev.qOpenPkt q = none → (len = 0 ∨ len = 0xFFFF ∨ s.dev.qMaxLen q < len) → refused 0 t.dev ∧ counted t.dev) ∧
      (s.dev.qFor q 0 = true → s.dev.qOpenPkt q = none → 0 < len → len < 0xFFFF → len ≤ s.dev.qMaxLen q → s.dev.qRoom q < slotsFor len → refused 1 t.dev ∧ counted t.dev) ∧
      (s.dev.qFor q 0 = true → s.dev.qOpenPkt q = none → 0 < len → len < 0xFFFF → len ≤ s.dev.qMaxLen q → slotsFor len ≤ s.dev.qRoom q →
        (∃ k ∈ t.dev.qpkts q, t.dev.qpkts q = s.dev.qpkts q ++ [k] ∧ k.slots.length = slotsFor len ∧ k = { slots := k.slots, len := len }) ∧
          (∀ r, r ≠ q.val → t.dev.qpkts r = s.dev.qpkts r) ∧ t.dev.freeSlots + slotsFor len = s.dev.freeSlots ∧ t.dev.bit (Reg.QM_Q_PSLOT q) 31 = true)) ∧
  (∀ (m : Master) (q : Fin 64) (v : Word) (s : State), s.dev.BusOpen m (Reg.QM_Q_CMD q) → s.dev.qProd q = 0 →
    (let idle (i : Instr) : Prop := ∃ t, exec i s = .next t ∧ t.dev.bit Reg.QM_EVT 4 = true ∧ t.dev.net = s.dev.net ∧ s.dev.KeptBut [Reg.QM_EVT] t.dev
     s.dev.qOpenPkt q = none → (fieldOf v 0 4 = 1 → idle (.qmCommit m q v)) ∧ (fieldOf v 0 4 = 2 → idle (.qmAbort m q v))) ∧
    (∀ p, s.dev.qOpenPkt q = some p → p.drop = false →
      let ended (ab : Bool) (len : Nat) (e : Dev) : Prop := e.freeSlots = s.dev.freeSlots ∧
        e.qpkts q = (s.dev.qpkts q).map fun x => if x.ended then x else { x with ended := true, vis := true, abort := ab, len := len, written := len }
      let back (e : Dev) : Prop := if p.vis = true then ended true p.written e ∧ e.bit Reg.QM_EVT 3 = true
        else e.qpkts q = (s.dev.qpkts q).filter (·.ended) ∧ e.freeSlots = (s.dev.freeSlots + p.slots.length) % 2 ^ 14 ∧ e.bit Reg.QM_EVT 2 = true ∧
          e.fld Reg.QM_CNT_REWIND 0 32 = min (2 ^ 32 - 1) (s.dev.fld Reg.QM_CNT_REWIND 0 32 + 1)
      (fieldOf v 0 4 = 1 → ∃ t, exec (.qmCommit m q v) s = .next t ∧
        (if fieldOf v 16 16 ≤ p.len then ended false (fieldOf v 16 16) t.dev else back t.dev)) ∧
      (fieldOf v 0 4 = 2 → ∃ t, exec (.qmAbort m q v) s = .next t ∧ back t.dev))) ∧
  (∀ (m : Master) (q : Fin 64) (v : Word) (s : State), s.dev.BusOpen m (Reg.QM_Q_CMD q) →
    let takes (i : Instr) : Prop := ∃ t, exec i s = .next t ∧ t.dev.mem = s.dev.mem ∧
      (∀ p rest, s.dev.qpkts q = p :: rest → p.vis = true →
        t.dev.qpkts q = (if p.ended = true then rest else { p with slots := [], vis := false, drop := true } :: rest) ∧
        t.dev.freeSlots = (s.dev.freeSlots + p.slots.length) % 2 ^ 14 ∧ (∀ r, r ≠ q.val → t.dev.qpkts r = s.dev.qpkts r)) ∧
      ((∀ p rest, s.dev.qpkts q = p :: rest → p.vis = false) → t.dev.bit Reg.QM_EVT 4 = true ∧ t.dev.net = s.dev.net ∧ s.dev.KeptBut [Reg.QM_EVT] t.dev)
    (fieldOf v 0 4 = 4 → takes (.qmDone m q v)) ∧ (fieldOf v 0 4 = 8 → takes (.qmDrop m q v)))

/-- The check-value units, most significant bit of each byte first, or reflected bytes (R477). START loads the initial value, clears the count and folds the constant in, its most
significant byte first; data bytes go in from the least significant one, or with BSWAP from the most significant one, and are counted; CRC_VAL takes a value of the width; CRC_RES reads it, reflected with
REFOUT, with the final XOR; CRC_CFG refuses a width of 0 or above 32 and a fold of more than four bytes (R477, R482). -/
def Obligations.CheckValueUnits : Prop :=
  ∀ (m : Master) (n : Fin 4) (v : Word) (s : State),
    let w := s.dev.fld (Reg.CRC_CFG n) 0 6
    let feed (l : List Nat) (r : Nat) : Word := BitVec.ofNat 32 (l.foldl (fun r b =>
      crcByte w ((s.dev.rd (Reg.CRC_POLY n)).toNat % 2 ^ w) r (if s.dev.bit (Reg.CRC_CFG n) 8 then reflect 8 b else b)) r)
    (s.dev.BusOpen m (Reg.CRC_CMD n) → v.getLsbD 0 = true → ∃ t, exec (.crcStart m n v) s = .next t ∧ t.dev.rd (Reg.CRC_CNT n) = 0 ∧
      t.dev.rd (Reg.CRC_VAL n) = feed ((List.range (s.dev.fld (Reg.CRC_CFG n) 11 3)).reverse.map fun i =>
        (s.dev.rd (Reg.CRC_FOLD n)).toNat % 2 ^ w / 256 ^ i % 256) ((s.dev.rd (Reg.CRC_INIT n)).toNat % 2 ^ w) ∧
      s.dev.KeptBut [Reg.CRC_VAL n, Reg.CRC_CNT n] t.dev) ∧
    (∀ x : DinW, s.dev.BusOpen m (dinAddr n x) → ∃ t, exec (.crcDin m n x v) s = .next t ∧
      let k := match x with | .d8 => 1 | .d16 => 2 | .d32 => 4
      t.dev.rd (Reg.CRC_CNT n) = s.dev.rd (Reg.CRC_CNT n) + BitVec.ofNat 32 k ∧
      t.dev.rd (Reg.CRC_VAL n) = feed ((List.range k).map fun i =>
        v.toNat / 256 ^ (if s.dev.bit (Reg.CRC_CFG n) 10 then k - 1 - i else i) % 256) ((s.dev.rd (Reg.CRC_VAL n)).toNat % 2 ^ w) ∧
      s.dev.KeptBut [Reg.CRC_VAL n, Reg.CRC_CNT n] t.dev) ∧
    (s.dev.BusOpen m (Reg.CRC_VAL n) → ∃ t, exec (.crcValWrite m n v) s = .next t ∧ t.dev.rd (Reg.CRC_VAL n) = BitVec.ofNat 32 (v.toNat % 2 ^ w) ∧
      s.dev.KeptBut [Reg.CRC_VAL n] t.dev) ∧
    (s.dev.busCode m (Reg.CRC_RES n) .b32 false = none → SMap.getD s.dev.shadow 0 (shadowKey m (Reg.CRC_RES n)) = 0 →
      ∃ t, exec (.memoryAccess m (BitVec.ofNat 32 (Reg.CRC_RES n)) .b32 .read) s = .next t ∧ s.dev.KeptBut [] t.dev ∧
        let x := (s.dev.rd (Reg.CRC_VAL n)).toNat % 2 ^ w
        t.dev.busResp = ⟨BitVec.ofNat 32 ((if s.dev.bit (Reg.CRC_CFG n) 9 = true then reflect w x else x) ^^^ ((s.dev.rd (Reg.CRC_XOR n)).toNat % 2 ^ w)), 0⟩) ∧
    (s.dev.BusOpen m (Reg.CRC_CFG n) → ∃ t, exec (.crcCfgWrite m n v) s = .next t ∧
      (if fieldOf v 0 6 = 0 ∨ 32 < fieldOf v 0 6 ∨ 4 < fieldOf v 11 3 then t.dev.bit (Reg.CRC_STAT n) 1 = true ∧ s.dev.KeptBut [Reg.CRC_STAT n] t.dev
       else t.dev.fld (Reg.CRC_CFG n) 0 6 = fieldOf v 0 6 ∧ t.dev.fld (Reg.CRC_CFG n) 8 6 = fieldOf v 8 6 ∧ s.dev.KeptBut [Reg.CRC_CFG n] t.dev))

/-! ### Supervisor, boot, debug, devices -/

/-- What watches the supervisor, its timers and interrupts. A lockstep mismatch, a kick that comes too early or without its key and an expiry of the watchdog restart the
supervisor with their cause and raise FLT_WDOG, or, with WD_ACT, reset the device and keep SYS_BOOT (R484, R485, R491); a good kick starts the interval anew; the warning shows
once (R491). A timer that expires shows, and is loaded anew or stops (R490). With PSR.IE set the enabled line of lowest number is taken (R260, R261, R487).

Debug access. A grant needs its key and the policy that allows it, and REVOKE ends it and its halt (R501); a debugger with access halts the supervisor, one without does not (R501). A TAP instruction
that takes the pins holds the device in reset, and under HIGHZ nothing is driven; any other instruction lets it go (R503, R504). -/
def Obligations.SupervisorWatch : Prop :=
  (let restarted (cause : Nat) (s : State) (e : Dev) : Prop := e.fld Reg.SYS_SUPV_CAUSE 0 3 = cause ∧
    e.fld Reg.SYS_SUPV_CAUSE 8 8 = min 255 (s.dev.fld Reg.SYS_SUPV_CAUSE 8 8 + 1) ∧ e.bit Reg.SYS_RST_CAUSE 4 = true ∧
    (s.dev.srcEnabled 94 = true → e.srcPending 94 = true) ∧
    (s.dev.pwr.queue = [] → s.dev.pwr.restart = false → e.pwr.queue = [(2, false), (2, true)] ∧ e.bit Reg.SYS_PWR_STAT 2 = false ∧ e.boot.runs = false)
  let bitten (cause : Nat) (s : State) (e : Dev) : Prop :=
    if s.dev.bit Reg.SCB_CTL 0 = true then e.rd Reg.SYS_RST_CAUSE = 0x24 ∧ e.rd Reg.SYS_BOOT = s.dev.rd Reg.SYS_BOOT
    else restarted cause s e ∧ e.bit Reg.SYS_RST_CAUSE 5 = true
  (∀ s : State, s.dev.domainOn 2 = true → ∃ t, exec .lockstepMismatch s = .next t ∧ restarted 4 s t.dev) ∧
  (∀ (l : Nat) (s : State), s.dev.supRuns = true → s.dev.sup.ie = true → l < 64 → s.dev.irqEn l = true → s.dev.irqLine l = true →
    (∀ j < l, s.dev.irqEn j = false ∨ s.dev.irqLine j = false) → ∃ t, exec .interruptTaken s = .next t ∧ s.dev.Took 9 s.dev.sup.pc l 0 t.dev) ∧
  (∀ (k : Fin 2) (s : State), s.dev.domainOn 2 = true → (s.dev.sysr (0x300 + 4 * k)).getLsbD 0 = true → ∃ t, exec (.timerExpiry k) s = .next t ∧
    (t.dev.sysr 0x308).getLsbD k = true ∧ s.dev.KeptBut [] t.dev ∧
    (if (s.dev.sysr (0x300 + 4 * k)).getLsbD 1 = true
     then t.dev.sysr (0x302 + 4 * k) = s.dev.sysr (0x301 + 4 * k) ∧ t.dev.sysr (0x300 + 4 * k) = s.dev.sysr (0x300 + 4 * k)
     else t.dev.sysr (0x302 + 4 * k) = 0 ∧ (t.dev.sysr (0x300 + 4 * k)).getLsbD 0 = false)) ∧
  (∀ (v : Word) (s : State), s.dev.domainOn 2 = true → (s.dev.sysr 0x310).getLsbD 0 = true → ∃ t, exec (.wdKick v) s = .next t ∧
    (if fieldOf v 0 16 = 0xC35A ∧ (s.dev.sysr 0x312).toNat ≤ (s.dev.sysr 0x314).toNat then t.dev.sysr 0x314 = 0 ∧ t.dev.sup.warned = false ∧ s.dev.KeptBut [] t.dev
     else bitten 3 s t.dev)) ∧
  (∀ s : State, s.dev.wdRuns = true → (∃ t, exec .wdExpiry s = .next t ∧ bitten 2 s t.dev) ∧
    (s.dev.sup.warned = false → ∃ t, exec .wdWarn s = .next t ∧ (t.dev.sysr 0x308).getLsbD 2 = true ∧ t.dev.sup.warned = true ∧ s.dev.KeptBut [] t.dev))) ∧
  ((∀ (m : Master) (v : Word) (s : State), s.dev.BusOpen m Reg.SCB_DBG →
    (v.getLsbD 16 = false → ∃ t, exec (.grant m v) s = .next t ∧ s.dev.KeptBut [Reg.SCB_DBG] t.dev ∧
      t.dev.boot.granted = (s.dev.boot.granted || decide (fieldOf v 0 16 = 0xDB6A ∧ s.dev.boot.policy = 1))) ∧
    (v.getLsbD 16 = true → ∃ t, exec (.revoke m v) s = .next t ∧ s.dev.KeptBut [Reg.SCB_DBG] t.dev ∧ t.dev.boot = { s.dev.boot with granted := false, halted := s.dev.boot.halted && s.dev.boot.policy != 1 })) ∧
  (∀ s : State, s.dev.domainOn 2 = true → ∃ t, exec .coreHalt s = .next t ∧ s.dev.KeptBut [] t.dev ∧
    t.dev.boot = (if s.dev.debugOk = true then { s.dev.boot with halted := true } else s.dev.boot)) ∧
  (∀ (ir : BitVec 5) (s : State), ∃ t, exec (.tapInstructionLoad ir) s = .next t ∧ t.dev.boot.tapIr = ir.toNat ∧ (ir = 1 → t.dev.boot.tapDr = 0x19144C5B) ∧
    (ir = 0 ∨ ir = 4 ∨ ir = 5 → t.dev.pwr.dbgHeld = true ∧ (s.dev.pwr.safeOn = true → t.dev.pwr.safeOn = false ∧ t.dev.rd Reg.SYS_RST_CAUSE = 8) ∧
      (ir = 5 → t.pins = { gout := 0, sout := 0, errN := false, arb := false, floats := true })) ∧
    (ir ≠ 0 → ir ≠ 4 → ir ≠ 5 → t.dev.pwr.dbgHeld = false ∧ (s.dev.pwr.safeOn = true → s.dev.KeptBut [] t.dev) ∧
      (s.dev.pwr.mainGood = true → s.dev.pwr.resetHi = true → t.dev.pwr.safeOn = true))))

/-- The boot. But after a supervisor restart the ROM waits for the synthesisers; it starts the watchdog, tries the slot of higher sequence number first, loads an image that passes and runs it from its entry at system level, with key, version and
sequence number shown; with no image it serves the recovery port (R493 to R499). A recovery image that passes runs, another leaves the port as it was (R498). CONFIRMED is set by a 1
(R497). A fuse command of the supervisor at system level is programmed where it is legal, else refused; programming only raises the least version or revokes one more key (R500). -/
def Obligations.BootAndFuses : Prop :=
  let runs (x : Image) (e : Dev) : Prop := e.boot.runs = true ∧ e.boot.serving = false ∧ e.sup.pc = x.entry ∧ e.sup.sys = true ∧ e.sup.ie = false ∧
    e.bit Reg.SYS_READY 8 = true ∧ e.rd Reg.BOOT_SEQ = BitVec.ofNat 32 x.seq ∧ e.fld Reg.BOOT_STAT 8 8 = x.svn ∧ e.fld Reg.BOOT_STAT 4 2 = x.keyIdx ∧
    e.bit Reg.SYS_BOOT 4 = true ∧ e.bit Reg.SYS_BOOT 5 = false ∧ ∀ i < x.len, (memByte e.mem (x.load + i)).toNat = byteAt x.bytes (0x100 + i)
  let fused (m : Master) (s : State) (v : Word) (bad : Prop) (i : Instr) : Prop := ∃ t, exec i s = .next t ∧ t.dev.boot.svnMin = s.dev.boot.svnMin ∧
    t.dev.boot.revoked = s.dev.boot.revoked ∧
    (m ≠ .supv ∨ s.dev.sup.sys = false ∨ s.dev.boot.fuseOp.isSome = true ∨ bad → t.dev.bit Reg.BOOT_STAT 7 = true ∧ t.dev.boot = s.dev.boot ∧
      s.dev.KeptBut [Reg.BOOT_STAT] t.dev) ∧
    (m = .supv → s.dev.sup.sys = true → s.dev.boot.fuseOp = none → ¬bad → t.dev.boot.fuseOp = some (fieldOf v 0 2, fieldOf v 8 8) ∧
      t.dev.bit Reg.BOOT_STAT 6 = true ∧ s.dev.KeptBut [Reg.BOOT_STAT] t.dev)
  (∀ (sfdp : Bool) (a b : Option Image) (us : Word) (s : State), s.dev.domainOn 2 = true → s.dev.boot.runs = false → s.dev.boot.serving = false →
    s.dev.boot.halted = false → (s.dev.fld Reg.SYS_SUPV_CAUSE 0 3 = 0 → s.dev.fld Reg.SYS_READY 5 3 = 7) →
    ∃ t, exec (.bootImageStart sfdp a b us) s = .next t ∧ t.dev.bit Reg.BOOT_STAT 2 = !sfdp ∧ (t.dev.sysr 0x310).getLsbD 0 = true ∧ t.dev.sysr 0x311 = 2000 ∧
      (∀ x, a = some x → (sfdp = false ∨ b = none) → s.dev.imageOk x true = true → runs x t.dev ∧ t.dev.bit Reg.SYS_BOOT 6 = false ∧ t.dev.rd Reg.BOOT_TIMG = us) ∧
      (∀ x y, a = some x → b = some y → sfdp = true → s.dev.imageOk x true = true → s.dev.imageOk y true = true → s.dev.bit Reg.SYS_BOOT 0 = false →
        s.dev.fld Reg.SYS_SUPV_CAUSE 0 3 = 1 → runs (if x.seq < y.seq then y else x) t.dev ∧
          t.dev.bit Reg.SYS_BOOT 6 = decide (x.seq < y.seq)) ∧
      ((∀ x, a = some x ∨ b = some x → s.dev.imageOk x true = false) → t.dev.boot.serving = true ∧ t.dev.boot.runs = false ∧
        t.dev.outbox = [.uart 0x52, .uart 0x56, .uart 0x50, .uart 0x53] ++ s.dev.outbox)) ∧
  (∀ (x : Image) (s : State), s.dev.domainOn 2 = true → s.dev.boot.serving = true → ∃ t, exec (.recoveryImageReceived x) s = .next t ∧
    (if s.dev.imageOk x true = true then runs x t.dev ∧ t.dev.bit Reg.BOOT_STAT 3 = true else t.dev.boot = s.dev.boot ∧ ∀ r, t.dev.rd r = s.dev.rd r)) ∧
  (∀ (m : Master) (v : Word) (s : State), s.dev.BusOpen m Reg.SYS_BOOT → ∃ t, exec (.confirmed m v) s = .next t ∧
    t.dev.bit Reg.SYS_BOOT 5 = (s.dev.bit Reg.SYS_BOOT 5 || v.getLsbD 5) ∧ t.dev.fld Reg.SYS_BOOT 0 2 = fieldOf v 0 2 ∧
    t.dev.fld Reg.SYS_BOOT 6 26 = s.dev.fld Reg.SYS_BOOT 6 26 ∧ s.dev.KeptBut [Reg.SYS_BOOT] t.dev) ∧
  (∀ (m : Master) (v : Word) (s : State), s.dev.BusOpen m Reg.BOOT_FUSE_CMD → fieldOf v 16 16 = 0xF05E →
    (fieldOf v 0 2 = 1 → fused m s v (s.dev.boot.svn < fieldOf v 8 8 ∨ 64 < fieldOf v 8 8) (.raiseSvnMin m v)) ∧
    (fieldOf v 0 2 = 2 → fused m s v (3 < fieldOf v 8 8 ∨ fieldOf v 8 8 = s.dev.boot.keyIdx ∨
      ∀ k < 4, s.dev.boot.revoked.getLsbD k = false ↔ k = fieldOf v 8 8) (.revokeKey m v))) ∧
  (∀ (op x : Nat) (s : State), s.dev.boot.fuseOp = some (op, x) → ∃ t, exec .fuseProgramDone s = .next t ∧ t.dev.boot.fuseOp = none ∧
    t.dev.bit Reg.BOOT_STAT 6 = false ∧ s.dev.KeptBut [Reg.BOOT_STAT] t.dev ∧
    (op = 1 → t.dev.boot.svnMin = max s.dev.boot.svnMin x ∧ t.dev.boot.revoked = s.dev.boot.revoked) ∧
    (op = 2 → t.dev.boot.svnMin = s.dev.boot.svnMin ∧ ∀ k < 4, t.dev.boot.revoked.getLsbD k = (s.dev.boot.revoked.getLsbD k || decide (k = x))))

/-- UART and GPIO. A received byte joins 16 at most, else it is lost and shows; one with a framing error shows, and whether it is kept is left open; a read takes the oldest, or EMPTY; a written byte
is queued and leaves in turn, the last with its event (R505). An input edge shows on a pin that the device does not drive; SET and CLR change the bits written as 1 (R506). -/
def Obligations.UartAndGpio : Prop :=
  (∀ (b : Byte) (err : Bool) (s : State), s.dev.domainOn 2 = true → s.dev.bit Reg.UART_CTL 0 = true → s.dev.bit Reg.UART_CTL 1 = true →
    ∃ t, exec (.uartByteReceived b err) s = .next t ∧ s.dev.KeptBut [Reg.UART_EVT, Reg.UART_STAT] t.dev ∧ (err = true → t.dev.bit Reg.UART_EVT 3 = true) ∧
      (err = false → s.dev.per.rxq.length < 16 → t.dev.per.rxq = s.dev.per.rxq ++ [b] ∧ t.dev.bit Reg.UART_EVT 0 = true ∧
        t.dev.fld Reg.UART_STAT 0 5 = s.dev.per.rxq.length + 1) ∧
      (err = false → 16 ≤ s.dev.per.rxq.length → t.dev.per.rxq = s.dev.per.rxq ∧ t.dev.bit Reg.UART_EVT 2 = true) ∧
      (t.dev.per.rxq = s.dev.per.rxq ∨ t.dev.per.rxq = s.dev.per.rxq ++ [b])) ∧
  (∀ (m : Master) (v : Word) (s : State), s.dev.BusOpen m Reg.UART_DATA → ∃ t, exec (.uartDataWrite m v) s = .next t ∧
    t.dev.per = { s.dev.per with txq := s.dev.per.txq ++ [v.setWidth 8] } ∧ t.dev.fld Reg.UART_STAT 8 5 = min 16 (s.dev.per.txq.length + 1) ∧
    t.dev.bit Reg.UART_STAT 16 = false ∧ s.dev.KeptBut [Reg.UART_STAT] t.dev) ∧
  (∀ (m : Master) (s : State), s.dev.busCode m Reg.UART_DATA .b32 false = none → SMap.getD s.dev.shadow 0 (shadowKey m Reg.UART_DATA) = 0 →
    ∃ t, exec (.uartDataRead m) s = .next t ∧ t.dev.per = { s.dev.per with rxq := s.dev.per.rxq.drop 1 } ∧ s.dev.KeptBut [Reg.UART_STAT] t.dev ∧
      t.dev.busResp = ⟨(match s.dev.per.rxq with | b :: _ => b.setWidth 32 | [] => 0x100#32), 0⟩) ∧
  (∀ (b : Byte) (rest : List Byte) (s : State), s.dev.domainOn 2 = true → s.dev.bit Reg.UART_CTL 0 = true → s.dev.bit Reg.UART_CTL 2 = true →
    s.dev.per.txq = b :: rest → ∃ t, exec .uartByteSent s = .next t ∧ t.dev.outbox = .uart b :: s.dev.outbox ∧ t.dev.per = { s.dev.per with txq := rest } ∧
      (rest = [] → t.dev.bit Reg.UART_EVT 1 = true) ∧ s.dev.KeptBut [Reg.UART_EVT, Reg.UART_STAT] t.dev) ∧
  (∀ (n : Fin 16) (up : Bool) (s : State), s.dev.domainOn 2 = true → ∃ t, exec (.gpioEdge n up) s = .next t ∧
    (if s.dev.gpioDrives n = false ∧ s.dev.bit Reg.GPIO_IN n ≠ up
     then t.dev.bit Reg.GPIO_IN n = up ∧ t.dev.bit Reg.GPIO_EVT (if up = true then n else 16 + n) = true ∧ s.dev.KeptBut [Reg.GPIO_IN, Reg.GPIO_EVT] t.dev
     else t.dev = s.dev)) ∧
  (∀ (m : Master) (v : Word) (s : State),
    let pins (e : Dev) : Prop := s.dev.KeptBut [Reg.GPIO_OUT, Reg.GPIO_IN] e ∧ ∀ n < 16, e.bit Reg.GPIO_IN n = (if e.gpioDrives n then e.bit Reg.GPIO_OUT n else s.dev.bit Reg.GPIO_IN n)
    (s.dev.BusOpen m Reg.GPIO_SET → ∃ t, exec (.gpioSet m v) s = .next t ∧ t.dev.rd Reg.GPIO_OUT = s.dev.rd Reg.GPIO_OUT ||| (v &&& 0xFFFF#32) ∧ pins t.dev) ∧
    (s.dev.BusOpen m Reg.GPIO_CLR → ∃ t, exec (.gpioClr m v) s = .next t ∧ t.dev.rd Reg.GPIO_OUT = s.dev.rd Reg.GPIO_OUT &&& ~~~(v &&& 0xFFFF#32) ∧ pins t.dev))

/-- Rails, PMBus and the flash port. PMIC_CTL is taken while no sequence runs: the rail of highest index that is switched off goes at once, those that are switched on follow in ascending order with
their delays (R507); a rail that goes while a domain needs it raises FLT_SUPPLY (R69). A transaction is sent with what it writes while none runs and its length is legal, else it is refused; its end shows, and a read brings its data
(R508, R509). -/
def Obligations.RailsPmbusAndFlash : Prop :=
  (∀ (m : Master) (v : Word) (s : State), s.dev.BusOpen m Reg.PMIC_CTL → ∃ t, exec (.pmicCtlWrite m v) s = .next t ∧
    (s.dev.per.rails ≠ [] → t.dev.bit Reg.PMIC_EVT 18 = true ∧ t.dev.per = s.dev.per ∧ s.dev.KeptBut [Reg.PMIC_EVT] t.dev) ∧
    (s.dev.per.rails = [] → t.dev.rd Reg.PMIC_CTL = v &&& 0x3F#32 ∧
      (∀ i < 6, s.dev.bit Reg.PMIC_CTL i = true → v &&& 0x3F#32 = 0 → (∀ j < 6, i < j → s.dev.bit Reg.PMIC_CTL j = false) →
        t.dev.bit Reg.PMIC_STAT i = false ∧ t.dev.bit Reg.PMIC_STAT (8 + i) = false) ∧
      (s.dev.fld Reg.PMIC_CTL 0 6 = 0 → (∀ i < 6, v.getLsbD i = true → 0 < s.dev.fld (Reg.PMIC_RAIL i) 0 10) →
        t.dev.per.rails = ((List.range 6).filter fun i => v.getLsbD i).map (fun i => (i, true, s.dev.fld (Reg.PMIC_RAIL i) 0 10)) ∧
        t.dev.fld Reg.PMIC_STAT 0 16 = s.dev.fld Reg.PMIC_STAT 0 16 ∧ t.dev.bit Reg.PMIC_STAT 16 = decide (fieldOf v 0 6 ≠ 0)))) ∧
  (∀ (i k : Nat) (on : Bool) (rest : List (Nat × Bool × Nat)) (s : State), i < 6 → s.dev.per.rails = (i, on, k) :: rest → (∀ e ∈ rest, e.2.2 ≠ 0) →
    ∃ t, exec .pmicRailStep s = .next t ∧ t.dev.per.rails = rest ∧ t.dev.bit Reg.PMIC_STAT i = on ∧ t.dev.bit Reg.PMIC_STAT (8 + i) = on ∧
      t.dev.bit Reg.PMIC_STAT 16 = decide (rest ≠ []) ∧
      (if on = false ∧ s.dev.pwr.pg.getLsbD i = true ∧ s.dev.railNeeded i = true then s.dev.srcEnabled 87 = true → t.dev.srcPending 87 = true
       else s.dev.KeptBut [Reg.PMIC_STAT, Reg.SYS_SUPMON] t.dev)) ∧
  (∀ (m : Master) (v : Word) (s : State), s.dev.BusOpen m Reg.PMB_CMD →
    let op := fieldOf v 16 3
    let sends (i : Instr) : Prop := ∃ t, exec i s = .next t ∧
      (s.dev.per.pmbOp.isSome = true ∨ (5 ≤ op ∧ 32 < fieldOf v 24 6) → t.dev.bit Reg.PMIC_EVT 18 = true ∧ t.dev.outbox = s.dev.outbox ∧ t.dev.per = s.dev.per ∧
        s.dev.KeptBut [Reg.PMIC_EVT] t.dev) ∧
      (s.dev.per.pmbOp = none → (5 ≤ op → fieldOf v 24 6 ≤ 32) → s.dev.bit Reg.PMB_CTL 0 = true →
        t.dev.per = { s.dev.per with pmbOp := some v } ∧ t.dev.rd Reg.PMB_STAT = 1 ∧ s.dev.KeptBut [Reg.PMB_STAT] t.dev ∧
        t.dev.outbox = .pmb v (pmbBytes v (s.dev.bit Reg.PMB_CTL 2)
          (s.dev.winBytes (Reg.PMB_DATA 0) (if op = 1 then 1 else if op = 2 then 2 else if op = 5 then fieldOf v 24 6 else 0))) :: s.dev.outbox)
    (op = 0 → sends (.sendByte m v)) ∧ (op = 1 → sends (.writeByte m v)) ∧ (op = 2 → sends (.writeWord m v)) ∧ (op = 3 → sends (.readByte m v)) ∧
      (op = 4 → sends (.readWord m v)) ∧ (op = 5 → sends (.blockWrite m v)) ∧ (op = 6 → sends (.blockRead m v))) ∧
  (∀ (v : Word) (s : State), s.dev.per.pmbOp = some v →
    (∀ bytes : List Byte, ∃ t, exec (.pmbDone (.ok bytes)) s = .next t ∧ t.dev.per.pmbOp = none ∧ t.dev.bit Reg.PMIC_EVT 16 = true ∧
      let bs := bytes.take (if fieldOf v 16 3 = 3 then 1 else if fieldOf v 16 3 = 4 then 2 else if fieldOf v 16 3 = 6 then 32 else 0)
      t.dev.rd Reg.PMB_STAT = BitVec.ofNat 32 (256 * bs.length) ∧ ∀ j < bs.length, t.dev.fld (Reg.PMB_DATA (j / 4)) (8 * (j % 4)) 8 = byteAt bs j) ∧
    (∀ e : PmbEnd, e = .nack ∨ e = .pecErr ∨ e = .timeout → ∃ t, exec (.pmbDone e) s = .next t ∧ t.dev.per.pmbOp = none ∧ t.dev.bit Reg.PMIC_EVT 17 = true ∧
      t.dev.rd Reg.PMB_STAT = (match e with | .nack => 2#32 | .pecErr => 4#32 | _ => 8#32) ∧ s.dev.KeptBut [Reg.PMB_STAT, Reg.PMIC_EVT] t.dev)) ∧
  (∀ (m : Master) (v : Word) (s : State), s.dev.BusOpen m Reg.QSPI_CMD → ∃ t, exec (.qspiCmd m v) s = .next t ∧
    (if s.dev.per.qspi.isSome = true ∨ 256 < fieldOf v 10 9 then t.dev.bit Reg.QSPI_EVT 1 = true ∧ t.dev.per = s.dev.per ∧ s.dev.KeptBut [Reg.QSPI_EVT] t.dev
     else t.dev.per.qspi = some v ∧ t.dev.rd Reg.QSPI_STAT = 1 ∧ s.dev.KeptBut [Reg.QSPI_STAT] t.dev ∧
       t.dev.outbox = .qspi v (if v.getLsbD 8 = true then s.dev.rd Reg.QSPI_ADDR else 0)
         (if v.getLsbD 9 = true then s.dev.winBytes (Reg.QSPI_BUF 0) (fieldOf v 10 9) else []) :: s.dev.outbox)) ∧
  (∀ (data : List Byte) (v : Word) (s : State), s.dev.per.qspi = some v → fieldOf v 10 9 ≤ 256 → ∃ t, exec (.qspiDone data) s = .next t ∧ t.dev.per.qspi = none ∧
    t.dev.rd Reg.QSPI_STAT = 0 ∧ t.dev.bit Reg.QSPI_EVT 0 = true ∧
    (v.getLsbD 9 = true → s.dev.KeptBut [Reg.QSPI_STAT, Reg.QSPI_EVT] t.dev) ∧
    (v.getLsbD 9 = false → ∀ j < min data.length (fieldOf v 10 9), t.dev.fld (Reg.QSPI_BUF (j / 4)) (8 * (j % 4)) 8 = byteAt data j))
end

