-- ==== Sys2Proof/Laws/SMap.lean ====
section
/-! SUPPORT. What storing into a sparse table does: the stored key reads the value, every other key reads as before, and the
canonical form is kept. -/

namespace Sys2Proof.Machine

theorem SMap.get?_erase_same {α : Type} (m : SMap α) (i : Nat) : SMap.get? (SMap.erase m i) i = none := by
  induction m with
  | nil => rfl
  | cons e m ih =>
    obtain ⟨k, v⟩ := e
    by_cases h : k = i
    · simp [SMap.erase, h, ih]
    · simp [SMap.erase, h, SMap.get?, ih]

theorem SMap.get?_erase_other {α : Type} (m : SMap α) (i j : Nat) (h : j ≠ i) :
    SMap.get? (SMap.erase m i) j = SMap.get? m j := by
  induction m with
  | nil => rfl
  | cons e m ih =>
    obtain ⟨k, v⟩ := e
    by_cases hk : k = i
    · subst hk
      simp [SMap.erase, SMap.get?, ih, Ne.symm h]
    · simp [SMap.erase, hk, SMap.get?, ih]

theorem SMap.get?_insert_same {α : Type} (m : SMap α) (i : Nat) (v : α) (h : SMap.get? m i = none) :
    SMap.get? (SMap.insert m i v) i = some v := by
  induction m with
  | nil => simp [SMap.insert, SMap.get?]
  | cons e m ih =>
    obtain ⟨k, w⟩ := e
    by_cases hlt : i < k
    · simp [SMap.insert, hlt, SMap.get?]
    · by_cases hk : k = i
      · simp [SMap.get?, hk] at h
      · simp [SMap.get?, hk] at h
        simp [SMap.insert, hlt, SMap.get?, hk, ih h]

theorem SMap.get?_insert_other {α : Type} (m : SMap α) (i j : Nat) (v : α) (h : j ≠ i) :
    SMap.get? (SMap.insert m i v) j = SMap.get? m j := by
  induction m with
  | nil => simp [SMap.insert, SMap.get?, Ne.symm h]
  | cons e m ih =>
    obtain ⟨k, w⟩ := e
    by_cases hlt : i < k
    · simp [SMap.insert, hlt, SMap.get?, Ne.symm h]
    · simp [SMap.insert, hlt, SMap.get?, ih]

/-- The stored key reads the stored value. -/
@[simp] theorem SMap.getD_put_same {α : Type} [DecidableEq α] (m : SMap α) (d : α) (i : Nat) (v : α) :
    SMap.getD (SMap.put m d i v) d i = v := by
  unfold SMap.put SMap.getD
  split
  · rename_i h; simp [SMap.get?_erase_same, h]
  · simp [SMap.get?_insert_same _ _ _ (SMap.get?_erase_same m i)]

/-- Every other key reads as before, whatever default it is read with. -/
theorem SMap.getD_put_other {α : Type} [DecidableEq α] (m : SMap α) (d e : α) (i j : Nat) (v : α) (h : j ≠ i) :
    SMap.getD (SMap.put m d i v) e j = SMap.getD m e j := by
  unfold SMap.put SMap.getD
  split
  · simp [SMap.get?_erase_other _ _ _ h]
  · simp [SMap.get?_insert_other _ _ _ _ h, SMap.get?_erase_other _ _ _ h]

theorem SMap.rising_mono {α : Type} (m : SMap α) (a b : Nat) (hab : a ≤ b) (h : SMap.rising b m = true) :
    SMap.rising a m = true := by
  cases m with
  | nil => rfl
  | cons e m =>
    obtain ⟨k, v⟩ := e
    simp only [SMap.rising, Bool.and_eq_true, decide_eq_true_eq] at h ⊢
    exact ⟨by omega, h.2⟩

theorem SMap.rising_erase {α : Type} (m : SMap α) (b i : Nat) (h : SMap.rising b m = true) :
    SMap.rising b (SMap.erase m i) = true := by
  induction m generalizing b with
  | nil => rfl
  | cons e m ih =>
    obtain ⟨k, v⟩ := e
    simp only [SMap.rising, Bool.and_eq_true, decide_eq_true_eq] at h
    by_cases hk : k = i
    · simp only [SMap.erase, hk, if_true]
      exact SMap.rising_mono _ _ (k + 1) (by omega) (ih _ h.2)
    · simp only [SMap.erase, hk, if_false, SMap.rising, Bool.and_eq_true, decide_eq_true_eq]
      exact ⟨h.1, ih _ h.2⟩

theorem SMap.rising_insert {α : Type} (m : SMap α) (b i : Nat) (v : α) (hb : b ≤ i) (h : SMap.rising b m = true)
    (hn : SMap.get? m i = none) : SMap.rising b (SMap.insert m i v) = true := by
  induction m generalizing b with
  | nil => simp [SMap.insert, SMap.rising, hb]
  | cons e m ih =>
    obtain ⟨k, w⟩ := e
    simp only [SMap.rising, Bool.and_eq_true, decide_eq_true_eq] at h
    by_cases hk : k = i
    · simp [SMap.get?, hk] at hn
    · simp only [SMap.get?, hk, if_false] at hn
      by_cases hlt : i < k
      · simp only [SMap.insert, hlt, if_true, SMap.rising, Bool.and_eq_true, decide_eq_true_eq]
        exact ⟨hb, by omega, h.2⟩
      · simp only [SMap.insert, hlt, if_false, SMap.rising, Bool.and_eq_true, decide_eq_true_eq]
        exact ⟨h.1, ih _ (by omega) h.2 hn⟩

theorem SMap.mem_erase {α : Type} (m : SMap α) (i : Nat) (e : Nat × α) (h : e ∈ SMap.erase m i) : e ∈ m := by
  induction m with
  | nil => simp [SMap.erase] at h
  | cons x m ih =>
    obtain ⟨k, v⟩ := x
    by_cases hk : k = i
    · simp only [SMap.erase, hk, if_true] at h
      exact List.mem_cons_of_mem _ (ih h)
    · simp only [SMap.erase, hk, if_false, List.mem_cons] at h
      rcases h with h | h
      · simp [h]
      · exact List.mem_cons_of_mem _ (ih h)

theorem SMap.mem_insert {α : Type} (m : SMap α) (i : Nat) (v : α) (e : Nat × α) (h : e ∈ SMap.insert m i v) :
    e = (i, v) ∨ e ∈ m := by
  induction m with
  | nil => simp [SMap.insert] at h; exact Or.inl h
  | cons x m ih =>
    obtain ⟨k, w⟩ := x
    by_cases hlt : i < k
    · simp only [SMap.insert, hlt, if_true, List.mem_cons] at h
      simpa using h
    · simp only [SMap.insert, hlt, if_false, List.mem_cons] at h
      rcases h with h | h
      · simp [h]
      · rcases ih h with h | h
        · exact Or.inl h
        · exact Or.inr (List.mem_cons_of_mem _ h)

/-- Storing keeps the canonical form. -/
theorem SMap.wf_put {α : Type} [DecidableEq α] (d : Nat → α) (m : SMap α) (i : Nat) (v : α) (h : SMap.wf d m = true) :
    SMap.wf d (SMap.put m (d i) i v) = true := by
  simp only [SMap.wf, Bool.and_eq_true, List.all_eq_true] at h ⊢
  unfold SMap.put
  split
  · exact ⟨SMap.rising_erase _ _ _ h.1, fun e he => h.2 e (SMap.mem_erase _ _ _ he)⟩
  · rename_i hv
    refine ⟨SMap.rising_insert _ _ _ _ (Nat.zero_le _) (SMap.rising_erase _ _ _ h.1) (SMap.get?_erase_same _ _), ?_⟩
    intro e he
    rcases SMap.mem_insert _ _ _ _ he with he | he
    · subst he; simpa using hv
    · exact h.2 e (SMap.mem_erase _ _ _ he)

end Sys2Proof.Machine
end

