-- ==== Sys2Proof/Laws/Memory.lean ====
section
/-! SUPPORT. The laws of memory: every operation keeps the canonical form; what a write changes, and what it leaves alone. -/

namespace Sys2Proof.Machine

theorem memPut_wf (m : List Host.Cell) (a : Nat) (v : Byte) (h : Memory.wf m = true) : Memory.wf (memPut m a v) = true :=
  SMap.wf_put (fun _ => (0 : Byte)) m a v h

theorem memWrite_wf (n : Nat) : ∀ (m : List Host.Cell) (a v : Nat), Memory.wf m = true → Memory.wf (memWrite m a n v) = true := by
  induction n with
  | zero => exact fun _ _ _ h => h
  | succ n ih => exact fun m a v h => ih _ _ _ (memPut_wf m a _ h)

theorem memBytes_wf (bs : List Byte) : ∀ (m : List Host.Cell) (a : Nat), Memory.wf m = true → Memory.wf (memBytes m a bs) = true := by
  induction bs with
  | nil => exact fun _ _ h => h
  | cons b bs ih => exact fun m a h => ih _ _ (memPut_wf m a b h)

/-- Reset lists nothing in memory. -/
theorem reset_memory_wf : Memory.wf State.reset.dev.mem = true := rfl

@[simp] theorem memByte_memPut_same (m : List Host.Cell) (a : Nat) (v : Byte) : memByte (memPut m a v) a = v :=
  SMap.getD_put_same m 0 a v

theorem memByte_memPut_other (m : List Host.Cell) (a b : Nat) (v : Byte) (h : b ≠ a) : memByte (memPut m a v) b = memByte m b :=
  SMap.getD_put_other m 0 0 a b v h

/-- A write leaves every byte outside it alone. -/
theorem memByte_memWrite_outside (n : Nat) : ∀ (m : List Host.Cell) (a v b : Nat), b < a ∨ a + n ≤ b →
    memByte (memWrite m a n v) b = memByte m b := by
  induction n with
  | zero => exact fun _ _ _ _ _ => rfl
  | succ n ih =>
    intro m a v b h
    rw [memWrite, ih _ _ _ _ (by omega), memByte_memPut_other _ _ _ _ (by omega)]

/-- A read after a write of the same bytes gives the value written, in its width. -/
theorem memRead_memWrite (n : Nat) : ∀ (m : List Host.Cell) (a v : Nat), memRead (memWrite m a n v) a n = v % 256 ^ n := by
  induction n with
  | zero => intro m a v; simp [memRead, Nat.mod_one]
  | succ n ih =>
    intro m a v
    rw [memRead, memWrite, ih, memByte_memWrite_outside _ _ _ _ _ (by omega), memByte_memPut_same, BitVec.toNat_ofNat]
    rw [show (256 : Nat) ^ (n + 1) = 256 * 256 ^ n from Nat.pow_succ', Nat.mod_mul]

/-- Bytes stored in order leave every byte outside them alone. -/
theorem memByte_memBytes_outside (bs : List Byte) : ∀ (m : List Host.Cell) (a b : Nat), b < a ∨ a + bs.length ≤ b →
    memByte (memBytes m a bs) b = memByte m b := by
  induction bs with
  | nil => exact fun _ _ _ _ => rfl
  | cons x bs ih =>
    intro m a b h
    simp only [List.length_cons] at h
    rw [memBytes, ih _ _ _ (by omega), memByte_memPut_other _ _ _ _ (by omega)]

end Sys2Proof.Machine
end

