-- ==== Sys2Proof/Laws/Regs.lean ====
section
/-! SUPPORT. What storing into a register, a field or a bit does to what registers, fields and bits read. -/

namespace Sys2Proof.Machine

/-! ### Whole registers -/

/-- A stored register reads as stored. -/
@[simp] theorem Dev.rd_wr_same (a : Nat) (v : Word) (d : Dev) : (d.wr a v).rd a = v := by
  simp [Dev.wr, Dev.putRegs, Dev.rd]

/-- Every other register reads as before. -/
theorem Dev.rd_wr_other (a b : Nat) (v : Word) (d : Dev) (h : b ≠ a) : (d.wr a v).rd b = d.rd b := by
  simp [Dev.wr, Dev.putRegs, Dev.rd, SMap.getD_put_other _ _ _ _ _ _ h]

theorem Dev.rd_wr (a b : Nat) (v : Word) (d : Dev) : (d.wr a v).rd b = if b = a then v else d.rd b := by
  split
  · rename_i h; subst h; simp
  · rename_i h; exact Dev.rd_wr_other a b v d h

theorem Dev.rd_setF_same (a lo w x : Nat) (d : Dev) : (d.setF a lo w x).rd a = putField (d.rd a) lo w x := by
  simp [Dev.setF]

theorem Dev.rd_setF_other (a b lo w x : Nat) (d : Dev) (h : b ≠ a) : (d.setF a lo w x).rd b = d.rd b :=
  Dev.rd_wr_other _ _ _ _ h

theorem Dev.rd_setB_other (a b i : Nat) (x : Bool) (d : Dev) (h : b ≠ a) : (d.setB a i x).rd b = d.rd b :=
  Dev.rd_wr_other _ _ _ _ h

/-! ### Fields -/

/-- Field `w` bits wide from bit `lo` on, seen as bits. -/
theorem fieldOf_eq (v : Word) (lo w : Nat) : fieldOf v lo w = (v.extractLsb' lo w).toNat := by
  simp [fieldOf, Nat.shiftRight_eq_div_pow]

theorem getLsbD_fieldMask (lo w i : Nat) (h : lo + w ≤ 32) :
    (BitVec.ofNat 32 ((2 ^ w - 1) * 2 ^ lo)).getLsbD i = (decide (lo ≤ i) && decide (i < lo + w)) := by
  rw [BitVec.getLsbD_ofNat, Nat.mul_comm, Nat.testBit_two_pow_mul, Nat.testBit_two_pow_sub_one]
  by_cases h1 : lo ≤ i <;> by_cases h2 : i < lo + w <;> simp [h1, h2] <;> omega

theorem getLsbD_putField (v : Word) (lo w x i : Nat) (h : lo + w ≤ 32) :
    (putField v lo w x).getLsbD i =
      if lo ≤ i ∧ i < lo + w then x.testBit (i - lo) else v.getLsbD i := by
  unfold putField
  simp only [BitVec.getLsbD_or, BitVec.getLsbD_and, BitVec.getLsbD_not, getLsbD_fieldMask lo w i h, BitVec.getLsbD_ofNat,
    Nat.mul_comm x, Nat.testBit_two_pow_mul]
  by_cases h1 : lo ≤ i <;> by_cases h2 : i < lo + w <;> simp [h1, h2]
  · intro h3; omega
  all_goals
    intro h3
    exact BitVec.lt_of_getLsbD h3

theorem testBit_fieldOf (v : Word) (lo w i : Nat) :
    (fieldOf v lo w).testBit i = (decide (i < w) && v.getLsbD (lo + i)) := by
  rw [fieldOf_eq, BitVec.testBit_toNat, BitVec.getLsbD_extractLsb']

/-- A field holds what was put into it. -/
theorem fieldOf_putField_same (v : Word) (lo w x : Nat) (h : lo + w ≤ 32) : fieldOf (putField v lo w x) lo w = x % 2 ^ w := by
  apply Nat.eq_of_testBit_eq
  intro i
  rw [testBit_fieldOf, getLsbD_putField _ _ _ _ _ h, Nat.testBit_mod_two_pow]
  by_cases hi : i < w
  · simp [hi]
  · simp [hi]

/-- A field apart from the one that was put holds what it held. -/
theorem fieldOf_putField_apart (v : Word) (lo w x lo' w' : Nat) (h : lo + w ≤ 32) (ha : lo' + w' ≤ lo ∨ lo + w ≤ lo') :
    fieldOf (putField v lo w x) lo' w' = fieldOf v lo' w' := by
  apply Nat.eq_of_testBit_eq
  intro i
  rw [testBit_fieldOf, testBit_fieldOf, getLsbD_putField _ _ _ _ _ h]
  by_cases hi : i < w'
  · have : ¬ (lo ≤ lo' + i ∧ lo' + i < lo + w) := by omega
    simp [hi, this]
  · simp [hi]

theorem Dev.fld_setF_same (a lo w x : Nat) (d : Dev) (h : lo + w ≤ 32) : (d.setF a lo w x).fld a lo w = x % 2 ^ w := by
  simp [Dev.fld, Dev.setF, fieldOf_putField_same _ _ _ _ h]

theorem Dev.fld_setF_apart (a lo w x lo' w' : Nat) (d : Dev) (h : lo + w ≤ 32) (ha : lo' + w' ≤ lo ∨ lo + w ≤ lo') :
    (d.setF a lo w x).fld a lo' w' = d.fld a lo' w' := by
  simp [Dev.fld, Dev.setF, fieldOf_putField_apart _ _ _ _ _ _ h ha]

theorem Dev.fld_wr_other (a b lo w : Nat) (v : Word) (d : Dev) (h : b ≠ a) : (d.wr a v).fld b lo w = d.fld b lo w := by
  simp [Dev.fld, Dev.rd_wr_other _ _ _ _ h]

theorem Dev.fld_setF_other (a b lo w x lo' w' : Nat) (d : Dev) (h : b ≠ a) : (d.setF a lo w x).fld b lo' w' = d.fld b lo' w' :=
  Dev.fld_wr_other _ _ _ _ _ _ h

theorem Dev.fld_setB_other (a b i lo' w' : Nat) (x : Bool) (d : Dev) (h : b ≠ a) : (d.setB a i x).fld b lo' w' = d.fld b lo' w' :=
  Dev.fld_wr_other _ _ _ _ _ _ h

/-! ### Bits -/

/-- A bit reads as stored. -/
theorem Dev.bit_setB_same (a i : Nat) (b : Bool) (d : Dev) (h : i < 32) : (d.setB a i b).bit a i = b := by
  simp only [Dev.bit, Dev.setB, Dev.setF, Dev.rd_wr_same]
  rw [getLsbD_putField _ _ _ _ _ (by omega)]
  cases b <;> simp [b2n]

theorem Dev.bit_setB_apart (a i j : Nat) (b : Bool) (d : Dev) (h : i < 32) (hj : j ≠ i) : (d.setB a i b).bit a j = d.bit a j := by
  simp only [Dev.bit, Dev.setB, Dev.setF, Dev.rd_wr_same]
  rw [getLsbD_putField _ _ _ _ _ (by omega), if_neg (by omega)]

theorem Dev.bit_wr_same (a i : Nat) (v : Word) (d : Dev) : (d.wr a v).bit a i = v.getLsbD i := by simp [Dev.bit]

theorem Dev.bit_wr_other (a b i : Nat) (v : Word) (d : Dev) (h : b ≠ a) : (d.wr a v).bit b i = d.bit b i := by
  simp [Dev.bit, Dev.rd_wr_other _ _ _ _ h]

theorem Dev.bit_setF_other (a b lo w x i : Nat) (d : Dev) (h : b ≠ a) : (d.setF a lo w x).bit b i = d.bit b i :=
  Dev.bit_wr_other _ _ _ _ _ h

theorem Dev.bit_setB_other (a b i j : Nat) (x : Bool) (d : Dev) (h : b ≠ a) : (d.setB a i x).bit b j = d.bit b j :=
  Dev.bit_wr_other _ _ _ _ _ h

/-- A bit outside a stored field reads as before. -/
theorem Dev.bit_setF_apart (a lo w x i : Nat) (d : Dev) (h : lo + w ≤ 32) (hi : i < lo ∨ lo + w ≤ i) :
    (d.setF a lo w x).bit a i = d.bit a i := by
  simp only [Dev.bit, Dev.setF, Dev.rd_wr_same]
  rw [getLsbD_putField _ _ _ _ _ h, if_neg (by omega)]

/-- A field apart from a stored bit holds what it held. -/
theorem Dev.fld_setB_apart (a i lo w : Nat) (b : Bool) (d : Dev) (h : i < 32) (ha : lo + w ≤ i ∨ i < lo) :
    (d.setB a i b).fld a lo w = d.fld a lo w :=
  Dev.fld_setF_apart _ _ _ _ _ _ _ (by omega) (by omega)

end Sys2Proof.Machine
end

