-- ==== Sys2Proof/Laws/State.lean ====
section
/-! SUPPORT. What each named update of the device leaves as it was, one lemma per field, and what it stores. -/

namespace Sys2Proof.Machine

variable (d : Dev) (s : State)

/-! ### The state after a command -/

@[simp] theorem State.upd_dev (f : Dev → Dev) : (s.upd f).dev = f s.dev := rfl
@[simp] theorem State.upd_pins (f : Dev → Dev) : (s.upd f).pins = pinsOf (f s.dev) := rfl
@[simp] theorem State.upd_pending (f : Dev → Dev) : (s.upd f).pending = s.pending := rfl

/-! ### wr -/

@[simp] theorem Dev.wr_fm (a : Nat) (v : Word) : (d.wr a v).fm = d.fm := rfl
@[simp] theorem Dev.wr_twinId (a : Nat) (v : Word) : (d.wr a v).twinId = d.twinId := rfl
@[simp] theorem Dev.wr_mem (a : Nat) (v : Word) : (d.wr a v).mem = d.mem := rfl
@[simp] theorem Dev.wr_ecc (a : Nat) (v : Word) : (d.wr a v).ecc = d.ecc := rfl
@[simp] theorem Dev.wr_shadow (a : Nat) (v : Word) : (d.wr a v).shadow = d.shadow := rfl
@[simp] theorem Dev.wr_scrubPos (a : Nat) (v : Word) : (d.wr a v).scrubPos = d.scrubPos := rfl
@[simp] theorem Dev.wr_outbox (a : Nat) (v : Word) : (d.wr a v).outbox = d.outbox := rfl
@[simp] theorem Dev.wr_busResp (a : Nat) (v : Word) : (d.wr a v).busResp = d.busResp := rfl
@[simp] theorem Dev.wr_freeCtr (a : Nat) (v : Word) : (d.wr a v).freeCtr = d.freeCtr := rfl
@[simp] theorem Dev.wr_tb (a : Nat) (v : Word) : (d.wr a v).tb = d.tb := rfl
@[simp] theorem Dev.wr_pwr (a : Nat) (v : Word) : (d.wr a v).pwr = d.pwr := rfl
@[simp] theorem Dev.wr_amb (a : Nat) (v : Word) : (d.wr a v).amb = d.amb := rfl
@[simp] theorem Dev.wr_fc (a : Nat) (v : Word) : (d.wr a v).fc = d.fc := rfl
@[simp] theorem Dev.wr_pdrvLow (a : Nat) (v : Word) : (d.wr a v).pdrvLow = d.pdrvLow := rfl
@[simp] theorem Dev.wr_grdyBad (a : Nat) (v : Word) : (d.wr a v).grdyBad = d.grdyBad := rfl
@[simp] theorem Dev.wr_gates (a : Nat) (v : Word) : (d.wr a v).gates = d.gates := rfl
@[simp] theorem Dev.wr_rearmP (a : Nat) (v : Word) : (d.wr a v).rearmP = d.rearmP := rfl
@[simp] theorem Dev.wr_atm (a : Nat) (v : Word) : (d.wr a v).atm = d.atm := rfl
@[simp] theorem Dev.wr_lanes (a : Nat) (v : Word) : (d.wr a v).lanes = d.lanes := rfl
@[simp] theorem Dev.wr_ports (a : Nat) (v : Word) : (d.wr a v).ports = d.ports := rfl
@[simp] theorem Dev.wr_cells (a : Nat) (v : Word) : (d.wr a v).cells = d.cells := rfl
@[simp] theorem Dev.wr_safe (a : Nat) (v : Word) : (d.wr a v).safe = d.safe := rfl
@[simp] theorem Dev.wr_clk (a : Nat) (v : Word) : (d.wr a v).clk = d.clk := rfl
@[simp] theorem Dev.wr_servos (a : Nat) (v : Word) : (d.wr a v).servos = d.servos := rfl
@[simp] theorem Dev.wr_tsrv (a : Nat) (v : Word) : (d.wr a v).tsrv = d.tsrv := rfl
@[simp] theorem Dev.wr_boot (a : Nat) (v : Word) : (d.wr a v).boot = d.boot := rfl
@[simp] theorem Dev.wr_twin (a : Nat) (v : Word) : (d.wr a v).twin = d.twin := rfl
@[simp] theorem Dev.wr_net (a : Nat) (v : Word) : (d.wr a v).net = d.net := rfl
@[simp] theorem Dev.wr_engs (a : Nat) (v : Word) : (d.wr a v).engs = d.engs := rfl
@[simp] theorem Dev.wr_xq (a : Nat) (v : Word) : (d.wr a v).xq = d.xq := rfl
@[simp] theorem Dev.wr_outQ (a : Nat) (v : Word) : (d.wr a v).outQ = d.outQ := rfl
@[simp] theorem Dev.wr_sorts (a : Nat) (v : Word) : (d.wr a v).sorts = d.sorts := rfl
@[simp] theorem Dev.wr_sils (a : Nat) (v : Word) : (d.wr a v).sils = d.sils := rfl
@[simp] theorem Dev.wr_img (a : Nat) (v : Word) : (d.wr a v).img = d.img := rfl
@[simp] theorem Dev.wr_fused (a : Nat) (v : Word) : (d.wr a v).fused = d.fused := rfl
@[simp] theorem Dev.wr_fmCal (a : Nat) (v : Word) : (d.wr a v).fmCal = d.fmCal := rfl
@[simp] theorem Dev.wr_adcs (a : Nat) (v : Word) : (d.wr a v).adcs = d.adcs := rfl
@[simp] theorem Dev.wr_cmp (a : Nat) (v : Word) : (d.wr a v).cmp = d.cmp := rfl
@[simp] theorem Dev.wr_tmon (a : Nat) (v : Word) : (d.wr a v).tmon = d.tmon := rfl
@[simp] theorem Dev.wr_met (a : Nat) (v : Word) : (d.wr a v).met = d.met := rfl
@[simp] theorem Dev.wr_sup (a : Nat) (v : Word) : (d.wr a v).sup = d.sup := rfl
@[simp] theorem Dev.wr_per (a : Nat) (v : Word) : (d.wr a v).per = d.per := rfl
@[simp] theorem Dev.wr_snap (a : Nat) (v : Word) : (d.wr a v).snap = d.snap := rfl

/-! ### setF -/

@[simp] theorem Dev.setF_fm (a lo w x : Nat) : (d.setF a lo w x).fm = d.fm := rfl
@[simp] theorem Dev.setF_twinId (a lo w x : Nat) : (d.setF a lo w x).twinId = d.twinId := rfl
@[simp] theorem Dev.setF_mem (a lo w x : Nat) : (d.setF a lo w x).mem = d.mem := rfl
@[simp] theorem Dev.setF_ecc (a lo w x : Nat) : (d.setF a lo w x).ecc = d.ecc := rfl
@[simp] theorem Dev.setF_shadow (a lo w x : Nat) : (d.setF a lo w x).shadow = d.shadow := rfl
@[simp] theorem Dev.setF_scrubPos (a lo w x : Nat) : (d.setF a lo w x).scrubPos = d.scrubPos := rfl
@[simp] theorem Dev.setF_outbox (a lo w x : Nat) : (d.setF a lo w x).outbox = d.outbox := rfl
@[simp] theorem Dev.setF_busResp (a lo w x : Nat) : (d.setF a lo w x).busResp = d.busResp := rfl
@[simp] theorem Dev.setF_freeCtr (a lo w x : Nat) : (d.setF a lo w x).freeCtr = d.freeCtr := rfl
@[simp] theorem Dev.setF_tb (a lo w x : Nat) : (d.setF a lo w x).tb = d.tb := rfl
@[simp] theorem Dev.setF_pwr (a lo w x : Nat) : (d.setF a lo w x).pwr = d.pwr := rfl
@[simp] theorem Dev.setF_amb (a lo w x : Nat) : (d.setF a lo w x).amb = d.amb := rfl
@[simp] theorem Dev.setF_fc (a lo w x : Nat) : (d.setF a lo w x).fc = d.fc := rfl
@[simp] theorem Dev.setF_pdrvLow (a lo w x : Nat) : (d.setF a lo w x).pdrvLow = d.pdrvLow := rfl
@[simp] theorem Dev.setF_grdyBad (a lo w x : Nat) : (d.setF a lo w x).grdyBad = d.grdyBad := rfl
@[simp] theorem Dev.setF_gates (a lo w x : Nat) : (d.setF a lo w x).gates = d.gates := rfl
@[simp] theorem Dev.setF_rearmP (a lo w x : Nat) : (d.setF a lo w x).rearmP = d.rearmP := rfl
@[simp] theorem Dev.setF_atm (a lo w x : Nat) : (d.setF a lo w x).atm = d.atm := rfl
@[simp] theorem Dev.setF_lanes (a lo w x : Nat) : (d.setF a lo w x).lanes = d.lanes := rfl
@[simp] theorem Dev.setF_ports (a lo w x : Nat) : (d.setF a lo w x).ports = d.ports := rfl
@[simp] theorem Dev.setF_cells (a lo w x : Nat) : (d.setF a lo w x).cells = d.cells := rfl
@[simp] theorem Dev.setF_safe (a lo w x : Nat) : (d.setF a lo w x).safe = d.safe := rfl
@[simp] theorem Dev.setF_clk (a lo w x : Nat) : (d.setF a lo w x).clk = d.clk := rfl
@[simp] theorem Dev.setF_servos (a lo w x : Nat) : (d.setF a lo w x).servos = d.servos := rfl
@[simp] theorem Dev.setF_tsrv (a lo w x : Nat) : (d.setF a lo w x).tsrv = d.tsrv := rfl
@[simp] theorem Dev.setF_boot (a lo w x : Nat) : (d.setF a lo w x).boot = d.boot := rfl
@[simp] theorem Dev.setF_twin (a lo w x : Nat) : (d.setF a lo w x).twin = d.twin := rfl
@[simp] theorem Dev.setF_net (a lo w x : Nat) : (d.setF a lo w x).net = d.net := rfl
@[simp] theorem Dev.setF_engs (a lo w x : Nat) : (d.setF a lo w x).engs = d.engs := rfl
@[simp] theorem Dev.setF_xq (a lo w x : Nat) : (d.setF a lo w x).xq = d.xq := rfl
@[simp] theorem Dev.setF_outQ (a lo w x : Nat) : (d.setF a lo w x).outQ = d.outQ := rfl
@[simp] theorem Dev.setF_sorts (a lo w x : Nat) : (d.setF a lo w x).sorts = d.sorts := rfl
@[simp] theorem Dev.setF_sils (a lo w x : Nat) : (d.setF a lo w x).sils = d.sils := rfl
@[simp] theorem Dev.setF_img (a lo w x : Nat) : (d.setF a lo w x).img = d.img := rfl
@[simp] theorem Dev.setF_fused (a lo w x : Nat) : (d.setF a lo w x).fused = d.fused := rfl
@[simp] theorem Dev.setF_fmCal (a lo w x : Nat) : (d.setF a lo w x).fmCal = d.fmCal := rfl
@[simp] theorem Dev.setF_adcs (a lo w x : Nat) : (d.setF a lo w x).adcs = d.adcs := rfl
@[simp] theorem Dev.setF_cmp (a lo w x : Nat) : (d.setF a lo w x).cmp = d.cmp := rfl
@[simp] theorem Dev.setF_tmon (a lo w x : Nat) : (d.setF a lo w x).tmon = d.tmon := rfl
@[simp] theorem Dev.setF_met (a lo w x : Nat) : (d.setF a lo w x).met = d.met := rfl
@[simp] theorem Dev.setF_sup (a lo w x : Nat) : (d.setF a lo w x).sup = d.sup := rfl
@[simp] theorem Dev.setF_per (a lo w x : Nat) : (d.setF a lo w x).per = d.per := rfl
@[simp] theorem Dev.setF_snap (a lo w x : Nat) : (d.setF a lo w x).snap = d.snap := rfl

/-! ### setB -/

@[simp] theorem Dev.setB_fm (a i : Nat) (b : Bool) : (d.setB a i b).fm = d.fm := rfl
@[simp] theorem Dev.setB_twinId (a i : Nat) (b : Bool) : (d.setB a i b).twinId = d.twinId := rfl
@[simp] theorem Dev.setB_mem (a i : Nat) (b : Bool) : (d.setB a i b).mem = d.mem := rfl
@[simp] theorem Dev.setB_ecc (a i : Nat) (b : Bool) : (d.setB a i b).ecc = d.ecc := rfl
@[simp] theorem Dev.setB_shadow (a i : Nat) (b : Bool) : (d.setB a i b).shadow = d.shadow := rfl
@[simp] theorem Dev.setB_scrubPos (a i : Nat) (b : Bool) : (d.setB a i b).scrubPos = d.scrubPos := rfl
@[simp] theorem Dev.setB_outbox (a i : Nat) (b : Bool) : (d.setB a i b).outbox = d.outbox := rfl
@[simp] theorem Dev.setB_busResp (a i : Nat) (b : Bool) : (d.setB a i b).busResp = d.busResp := rfl
@[simp] theorem Dev.setB_freeCtr (a i : Nat) (b : Bool) : (d.setB a i b).freeCtr = d.freeCtr := rfl
@[simp] theorem Dev.setB_tb (a i : Nat) (b : Bool) : (d.setB a i b).tb = d.tb := rfl
@[simp] theorem Dev.setB_pwr (a i : Nat) (b : Bool) : (d.setB a i b).pwr = d.pwr := rfl
@[simp] theorem Dev.setB_amb (a i : Nat) (b : Bool) : (d.setB a i b).amb = d.amb := rfl
@[simp] theorem Dev.setB_fc (a i : Nat) (b : Bool) : (d.setB a i b).fc = d.fc := rfl
@[simp] theorem Dev.setB_pdrvLow (a i : Nat) (b : Bool) : (d.setB a i b).pdrvLow = d.pdrvLow := rfl
@[simp] theorem Dev.setB_grdyBad (a i : Nat) (b : Bool) : (d.setB a i b).grdyBad = d.grdyBad := rfl
@[simp] theorem Dev.setB_gates (a i : Nat) (b : Bool) : (d.setB a i b).gates = d.gates := rfl
@[simp] theorem Dev.setB_rearmP (a i : Nat) (b : Bool) : (d.setB a i b).rearmP = d.rearmP := rfl
@[simp] theorem Dev.setB_atm (a i : Nat) (b : Bool) : (d.setB a i b).atm = d.atm := rfl
@[simp] theorem Dev.setB_lanes (a i : Nat) (b : Bool) : (d.setB a i b).lanes = d.lanes := rfl
@[simp] theorem Dev.setB_ports (a i : Nat) (b : Bool) : (d.setB a i b).ports = d.ports := rfl
@[simp] theorem Dev.setB_cells (a i : Nat) (b : Bool) : (d.setB a i b).cells = d.cells := rfl
@[simp] theorem Dev.setB_safe (a i : Nat) (b : Bool) : (d.setB a i b).safe = d.safe := rfl
@[simp] theorem Dev.setB_clk (a i : Nat) (b : Bool) : (d.setB a i b).clk = d.clk := rfl
@[simp] theorem Dev.setB_servos (a i : Nat) (b : Bool) : (d.setB a i b).servos = d.servos := rfl
@[simp] theorem Dev.setB_tsrv (a i : Nat) (b : Bool) : (d.setB a i b).tsrv = d.tsrv := rfl
@[simp] theorem Dev.setB_boot (a i : Nat) (b : Bool) : (d.setB a i b).boot = d.boot := rfl
@[simp] theorem Dev.setB_twin (a i : Nat) (b : Bool) : (d.setB a i b).twin = d.twin := rfl
@[simp] theorem Dev.setB_net (a i : Nat) (b : Bool) : (d.setB a i b).net = d.net := rfl
@[simp] theorem Dev.setB_engs (a i : Nat) (b : Bool) : (d.setB a i b).engs = d.engs := rfl
@[simp] theorem Dev.setB_xq (a i : Nat) (b : Bool) : (d.setB a i b).xq = d.xq := rfl
@[simp] theorem Dev.setB_outQ (a i : Nat) (b : Bool) : (d.setB a i b).outQ = d.outQ := rfl
@[simp] theorem Dev.setB_sorts (a i : Nat) (b : Bool) : (d.setB a i b).sorts = d.sorts := rfl
@[simp] theorem Dev.setB_sils (a i : Nat) (b : Bool) : (d.setB a i b).sils = d.sils := rfl
@[simp] theorem Dev.setB_img (a i : Nat) (b : Bool) : (d.setB a i b).img = d.img := rfl
@[simp] theorem Dev.setB_fused (a i : Nat) (b : Bool) : (d.setB a i b).fused = d.fused := rfl
@[simp] theorem Dev.setB_fmCal (a i : Nat) (b : Bool) : (d.setB a i b).fmCal = d.fmCal := rfl
@[simp] theorem Dev.setB_adcs (a i : Nat) (b : Bool) : (d.setB a i b).adcs = d.adcs := rfl
@[simp] theorem Dev.setB_cmp (a i : Nat) (b : Bool) : (d.setB a i b).cmp = d.cmp := rfl
@[simp] theorem Dev.setB_tmon (a i : Nat) (b : Bool) : (d.setB a i b).tmon = d.tmon := rfl
@[simp] theorem Dev.setB_met (a i : Nat) (b : Bool) : (d.setB a i b).met = d.met := rfl
@[simp] theorem Dev.setB_sup (a i : Nat) (b : Bool) : (d.setB a i b).sup = d.sup := rfl
@[simp] theorem Dev.setB_per (a i : Nat) (b : Bool) : (d.setB a i b).per = d.per := rfl
@[simp] theorem Dev.setB_snap (a i : Nat) (b : Bool) : (d.setB a i b).snap = d.snap := rfl

/-! ### orW -/

@[simp] theorem Dev.orW_fm (a : Nat) (m : Word) : (d.orW a m).fm = d.fm := rfl
@[simp] theorem Dev.orW_twinId (a : Nat) (m : Word) : (d.orW a m).twinId = d.twinId := rfl
@[simp] theorem Dev.orW_mem (a : Nat) (m : Word) : (d.orW a m).mem = d.mem := rfl
@[simp] theorem Dev.orW_ecc (a : Nat) (m : Word) : (d.orW a m).ecc = d.ecc := rfl
@[simp] theorem Dev.orW_shadow (a : Nat) (m : Word) : (d.orW a m).shadow = d.shadow := rfl
@[simp] theorem Dev.orW_scrubPos (a : Nat) (m : Word) : (d.orW a m).scrubPos = d.scrubPos := rfl
@[simp] theorem Dev.orW_outbox (a : Nat) (m : Word) : (d.orW a m).outbox = d.outbox := rfl
@[simp] theorem Dev.orW_busResp (a : Nat) (m : Word) : (d.orW a m).busResp = d.busResp := rfl
@[simp] theorem Dev.orW_freeCtr (a : Nat) (m : Word) : (d.orW a m).freeCtr = d.freeCtr := rfl
@[simp] theorem Dev.orW_tb (a : Nat) (m : Word) : (d.orW a m).tb = d.tb := rfl
@[simp] theorem Dev.orW_pwr (a : Nat) (m : Word) : (d.orW a m).pwr = d.pwr := rfl
@[simp] theorem Dev.orW_amb (a : Nat) (m : Word) : (d.orW a m).amb = d.amb := rfl
@[simp] theorem Dev.orW_fc (a : Nat) (m : Word) : (d.orW a m).fc = d.fc := rfl
@[simp] theorem Dev.orW_pdrvLow (a : Nat) (m : Word) : (d.orW a m).pdrvLow = d.pdrvLow := rfl
@[simp] theorem Dev.orW_grdyBad (a : Nat) (m : Word) : (d.orW a m).grdyBad = d.grdyBad := rfl
@[simp] theorem Dev.orW_gates (a : Nat) (m : Word) : (d.orW a m).gates = d.gates := rfl
@[simp] theorem Dev.orW_rearmP (a : Nat) (m : Word) : (d.orW a m).rearmP = d.rearmP := rfl
@[simp] theorem Dev.orW_atm (a : Nat) (m : Word) : (d.orW a m).atm = d.atm := rfl
@[simp] theorem Dev.orW_lanes (a : Nat) (m : Word) : (d.orW a m).lanes = d.lanes := rfl
@[simp] theorem Dev.orW_ports (a : Nat) (m : Word) : (d.orW a m).ports = d.ports := rfl
@[simp] theorem Dev.orW_cells (a : Nat) (m : Word) : (d.orW a m).cells = d.cells := rfl
@[simp] theorem Dev.orW_safe (a : Nat) (m : Word) : (d.orW a m).safe = d.safe := rfl
@[simp] theorem Dev.orW_clk (a : Nat) (m : Word) : (d.orW a m).clk = d.clk := rfl
@[simp] theorem Dev.orW_servos (a : Nat) (m : Word) : (d.orW a m).servos = d.servos := rfl
@[simp] theorem Dev.orW_tsrv (a : Nat) (m : Word) : (d.orW a m).tsrv = d.tsrv := rfl
@[simp] theorem Dev.orW_boot (a : Nat) (m : Word) : (d.orW a m).boot = d.boot := rfl
@[simp] theorem Dev.orW_twin (a : Nat) (m : Word) : (d.orW a m).twin = d.twin := rfl
@[simp] theorem Dev.orW_net (a : Nat) (m : Word) : (d.orW a m).net = d.net := rfl
@[simp] theorem Dev.orW_engs (a : Nat) (m : Word) : (d.orW a m).engs = d.engs := rfl
@[simp] theorem Dev.orW_xq (a : Nat) (m : Word) : (d.orW a m).xq = d.xq := rfl
@[simp] theorem Dev.orW_outQ (a : Nat) (m : Word) : (d.orW a m).outQ = d.outQ := rfl
@[simp] theorem Dev.orW_sorts (a : Nat) (m : Word) : (d.orW a m).sorts = d.sorts := rfl
@[simp] theorem Dev.orW_sils (a : Nat) (m : Word) : (d.orW a m).sils = d.sils := rfl
@[simp] theorem Dev.orW_img (a : Nat) (m : Word) : (d.orW a m).img = d.img := rfl
@[simp] theorem Dev.orW_fused (a : Nat) (m : Word) : (d.orW a m).fused = d.fused := rfl
@[simp] theorem Dev.orW_fmCal (a : Nat) (m : Word) : (d.orW a m).fmCal = d.fmCal := rfl
@[simp] theorem Dev.orW_adcs (a : Nat) (m : Word) : (d.orW a m).adcs = d.adcs := rfl
@[simp] theorem Dev.orW_cmp (a : Nat) (m : Word) : (d.orW a m).cmp = d.cmp := rfl
@[simp] theorem Dev.orW_tmon (a : Nat) (m : Word) : (d.orW a m).tmon = d.tmon := rfl
@[simp] theorem Dev.orW_met (a : Nat) (m : Word) : (d.orW a m).met = d.met := rfl
@[simp] theorem Dev.orW_sup (a : Nat) (m : Word) : (d.orW a m).sup = d.sup := rfl
@[simp] theorem Dev.orW_per (a : Nat) (m : Word) : (d.orW a m).per = d.per := rfl
@[simp] theorem Dev.orW_snap (a : Nat) (m : Word) : (d.orW a m).snap = d.snap := rfl

/-! ### setLane -/

@[simp] theorem Dev.setLane_fm (n : Nat) (f : Lane → Lane) : (d.setLane n f).fm = d.fm := rfl
@[simp] theorem Dev.setLane_twinId (n : Nat) (f : Lane → Lane) : (d.setLane n f).twinId = d.twinId := rfl
@[simp] theorem Dev.setLane_regs (n : Nat) (f : Lane → Lane) : (d.setLane n f).regs = d.regs := rfl
@[simp] theorem Dev.setLane_mem (n : Nat) (f : Lane → Lane) : (d.setLane n f).mem = d.mem := rfl
@[simp] theorem Dev.setLane_ecc (n : Nat) (f : Lane → Lane) : (d.setLane n f).ecc = d.ecc := rfl
@[simp] theorem Dev.setLane_shadow (n : Nat) (f : Lane → Lane) : (d.setLane n f).shadow = d.shadow := rfl
@[simp] theorem Dev.setLane_scrubPos (n : Nat) (f : Lane → Lane) : (d.setLane n f).scrubPos = d.scrubPos := rfl
@[simp] theorem Dev.setLane_outbox (n : Nat) (f : Lane → Lane) : (d.setLane n f).outbox = d.outbox := rfl
@[simp] theorem Dev.setLane_busResp (n : Nat) (f : Lane → Lane) : (d.setLane n f).busResp = d.busResp := rfl
@[simp] theorem Dev.setLane_freeCtr (n : Nat) (f : Lane → Lane) : (d.setLane n f).freeCtr = d.freeCtr := rfl
@[simp] theorem Dev.setLane_tb (n : Nat) (f : Lane → Lane) : (d.setLane n f).tb = d.tb := rfl
@[simp] theorem Dev.setLane_pwr (n : Nat) (f : Lane → Lane) : (d.setLane n f).pwr = d.pwr := rfl
@[simp] theorem Dev.setLane_amb (n : Nat) (f : Lane → Lane) : (d.setLane n f).amb = d.amb := rfl
@[simp] theorem Dev.setLane_fc (n : Nat) (f : Lane → Lane) : (d.setLane n f).fc = d.fc := rfl
@[simp] theorem Dev.setLane_pdrvLow (n : Nat) (f : Lane → Lane) : (d.setLane n f).pdrvLow = d.pdrvLow := rfl
@[simp] theorem Dev.setLane_grdyBad (n : Nat) (f : Lane → Lane) : (d.setLane n f).grdyBad = d.grdyBad := rfl
@[simp] theorem Dev.setLane_gates (n : Nat) (f : Lane → Lane) : (d.setLane n f).gates = d.gates := rfl
@[simp] theorem Dev.setLane_rearmP (n : Nat) (f : Lane → Lane) : (d.setLane n f).rearmP = d.rearmP := rfl
@[simp] theorem Dev.setLane_atm (n : Nat) (f : Lane → Lane) : (d.setLane n f).atm = d.atm := rfl
@[simp] theorem Dev.setLane_ports (n : Nat) (f : Lane → Lane) : (d.setLane n f).ports = d.ports := rfl
@[simp] theorem Dev.setLane_cells (n : Nat) (f : Lane → Lane) : (d.setLane n f).cells = d.cells := rfl
@[simp] theorem Dev.setLane_safe (n : Nat) (f : Lane → Lane) : (d.setLane n f).safe = d.safe := rfl
@[simp] theorem Dev.setLane_clk (n : Nat) (f : Lane → Lane) : (d.setLane n f).clk = d.clk := rfl
@[simp] theorem Dev.setLane_servos (n : Nat) (f : Lane → Lane) : (d.setLane n f).servos = d.servos := rfl
@[simp] theorem Dev.setLane_tsrv (n : Nat) (f : Lane → Lane) : (d.setLane n f).tsrv = d.tsrv := rfl
@[simp] theorem Dev.setLane_boot (n : Nat) (f : Lane → Lane) : (d.setLane n f).boot = d.boot := rfl
@[simp] theorem Dev.setLane_twin (n : Nat) (f : Lane → Lane) : (d.setLane n f).twin = d.twin := rfl
@[simp] theorem Dev.setLane_net (n : Nat) (f : Lane → Lane) : (d.setLane n f).net = d.net := rfl
@[simp] theorem Dev.setLane_engs (n : Nat) (f : Lane → Lane) : (d.setLane n f).engs = d.engs := rfl
@[simp] theorem Dev.setLane_xq (n : Nat) (f : Lane → Lane) : (d.setLane n f).xq = d.xq := rfl
@[simp] theorem Dev.setLane_outQ (n : Nat) (f : Lane → Lane) : (d.setLane n f).outQ = d.outQ := rfl
@[simp] theorem Dev.setLane_sorts (n : Nat) (f : Lane → Lane) : (d.setLane n f).sorts = d.sorts := rfl
@[simp] theorem Dev.setLane_sils (n : Nat) (f : Lane → Lane) : (d.setLane n f).sils = d.sils := rfl
@[simp] theorem Dev.setLane_img (n : Nat) (f : Lane → Lane) : (d.setLane n f).img = d.img := rfl
@[simp] theorem Dev.setLane_fused (n : Nat) (f : Lane → Lane) : (d.setLane n f).fused = d.fused := rfl
@[simp] theorem Dev.setLane_fmCal (n : Nat) (f : Lane → Lane) : (d.setLane n f).fmCal = d.fmCal := rfl
@[simp] theorem Dev.setLane_adcs (n : Nat) (f : Lane → Lane) : (d.setLane n f).adcs = d.adcs := rfl
@[simp] theorem Dev.setLane_cmp (n : Nat) (f : Lane → Lane) : (d.setLane n f).cmp = d.cmp := rfl
@[simp] theorem Dev.setLane_tmon (n : Nat) (f : Lane → Lane) : (d.setLane n f).tmon = d.tmon := rfl
@[simp] theorem Dev.setLane_met (n : Nat) (f : Lane → Lane) : (d.setLane n f).met = d.met := rfl
@[simp] theorem Dev.setLane_sup (n : Nat) (f : Lane → Lane) : (d.setLane n f).sup = d.sup := rfl
@[simp] theorem Dev.setLane_per (n : Nat) (f : Lane → Lane) : (d.setLane n f).per = d.per := rfl
@[simp] theorem Dev.setLane_snap (n : Nat) (f : Lane → Lane) : (d.setLane n f).snap = d.snap := rfl
@[simp] theorem Dev.setLane_rd (n : Nat) (f : Lane → Lane) (r : Nat) : (d.setLane n f).rd r = d.rd r := rfl
@[simp] theorem Dev.setLane_fld (n : Nat) (f : Lane → Lane) (r lo w : Nat) : (d.setLane n f).fld r lo w = d.fld r lo w := rfl
@[simp] theorem Dev.setLane_bit (n : Nat) (f : Lane → Lane) (r j : Nat) : (d.setLane n f).bit r j = d.bit r j := rfl

/-! ### setPort -/

@[simp] theorem Dev.setPort_fm (n : Nat) (f : Port → Port) : (d.setPort n f).fm = d.fm := rfl
@[simp] theorem Dev.setPort_twinId (n : Nat) (f : Port → Port) : (d.setPort n f).twinId = d.twinId := rfl
@[simp] theorem Dev.setPort_regs (n : Nat) (f : Port → Port) : (d.setPort n f).regs = d.regs := rfl
@[simp] theorem Dev.setPort_mem (n : Nat) (f : Port → Port) : (d.setPort n f).mem = d.mem := rfl
@[simp] theorem Dev.setPort_ecc (n : Nat) (f : Port → Port) : (d.setPort n f).ecc = d.ecc := rfl
@[simp] theorem Dev.setPort_shadow (n : Nat) (f : Port → Port) : (d.setPort n f).shadow = d.shadow := rfl
@[simp] theorem Dev.setPort_scrubPos (n : Nat) (f : Port → Port) : (d.setPort n f).scrubPos = d.scrubPos := rfl
@[simp] theorem Dev.setPort_outbox (n : Nat) (f : Port → Port) : (d.setPort n f).outbox = d.outbox := rfl
@[simp] theorem Dev.setPort_busResp (n : Nat) (f : Port → Port) : (d.setPort n f).busResp = d.busResp := rfl
@[simp] theorem Dev.setPort_freeCtr (n : Nat) (f : Port → Port) : (d.setPort n f).freeCtr = d.freeCtr := rfl
@[simp] theorem Dev.setPort_tb (n : Nat) (f : Port → Port) : (d.setPort n f).tb = d.tb := rfl
@[simp] theorem Dev.setPort_pwr (n : Nat) (f : Port → Port) : (d.setPort n f).pwr = d.pwr := rfl
@[simp] theorem Dev.setPort_amb (n : Nat) (f : Port → Port) : (d.setPort n f).amb = d.amb := rfl
@[simp] theorem Dev.setPort_fc (n : Nat) (f : Port → Port) : (d.setPort n f).fc = d.fc := rfl
@[simp] theorem Dev.setPort_pdrvLow (n : Nat) (f : Port → Port) : (d.setPort n f).pdrvLow = d.pdrvLow := rfl
@[simp] theorem Dev.setPort_grdyBad (n : Nat) (f : Port → Port) : (d.setPort n f).grdyBad = d.grdyBad := rfl
@[simp] theorem Dev.setPort_gates (n : Nat) (f : Port → Port) : (d.setPort n f).gates = d.gates := rfl
@[simp] theorem Dev.setPort_rearmP (n : Nat) (f : Port → Port) : (d.setPort n f).rearmP = d.rearmP := rfl
@[simp] theorem Dev.setPort_atm (n : Nat) (f : Port → Port) : (d.setPort n f).atm = d.atm := rfl
@[simp] theorem Dev.setPort_lanes (n : Nat) (f : Port → Port) : (d.setPort n f).lanes = d.lanes := rfl
@[simp] theorem Dev.setPort_cells (n : Nat) (f : Port → Port) : (d.setPort n f).cells = d.cells := rfl
@[simp] theorem Dev.setPort_safe (n : Nat) (f : Port → Port) : (d.setPort n f).safe = d.safe := rfl
@[simp] theorem Dev.setPort_clk (n : Nat) (f : Port → Port) : (d.setPort n f).clk = d.clk := rfl
@[simp] theorem Dev.setPort_servos (n : Nat) (f : Port → Port) : (d.setPort n f).servos = d.servos := rfl
@[simp] theorem Dev.setPort_tsrv (n : Nat) (f : Port → Port) : (d.setPort n f).tsrv = d.tsrv := rfl
@[simp] theorem Dev.setPort_boot (n : Nat) (f : Port → Port) : (d.setPort n f).boot = d.boot := rfl
@[simp] theorem Dev.setPort_twin (n : Nat) (f : Port → Port) : (d.setPort n f).twin = d.twin := rfl
@[simp] theorem Dev.setPort_net (n : Nat) (f : Port → Port) : (d.setPort n f).net = d.net := rfl
@[simp] theorem Dev.setPort_engs (n : Nat) (f : Port → Port) : (d.setPort n f).engs = d.engs := rfl
@[simp] theorem Dev.setPort_xq (n : Nat) (f : Port → Port) : (d.setPort n f).xq = d.xq := rfl
@[simp] theorem Dev.setPort_outQ (n : Nat) (f : Port → Port) : (d.setPort n f).outQ = d.outQ := rfl
@[simp] theorem Dev.setPort_sorts (n : Nat) (f : Port → Port) : (d.setPort n f).sorts = d.sorts := rfl
@[simp] theorem Dev.setPort_sils (n : Nat) (f : Port → Port) : (d.setPort n f).sils = d.sils := rfl
@[simp] theorem Dev.setPort_img (n : Nat) (f : Port → Port) : (d.setPort n f).img = d.img := rfl
@[simp] theorem Dev.setPort_fused (n : Nat) (f : Port → Port) : (d.setPort n f).fused = d.fused := rfl
@[simp] theorem Dev.setPort_fmCal (n : Nat) (f : Port → Port) : (d.setPort n f).fmCal = d.fmCal := rfl
@[simp] theorem Dev.setPort_adcs (n : Nat) (f : Port → Port) : (d.setPort n f).adcs = d.adcs := rfl
@[simp] theorem Dev.setPort_cmp (n : Nat) (f : Port → Port) : (d.setPort n f).cmp = d.cmp := rfl
@[simp] theorem Dev.setPort_tmon (n : Nat) (f : Port → Port) : (d.setPort n f).tmon = d.tmon := rfl
@[simp] theorem Dev.setPort_met (n : Nat) (f : Port → Port) : (d.setPort n f).met = d.met := rfl
@[simp] theorem Dev.setPort_sup (n : Nat) (f : Port → Port) : (d.setPort n f).sup = d.sup := rfl
@[simp] theorem Dev.setPort_per (n : Nat) (f : Port → Port) : (d.setPort n f).per = d.per := rfl
@[simp] theorem Dev.setPort_snap (n : Nat) (f : Port → Port) : (d.setPort n f).snap = d.snap := rfl
@[simp] theorem Dev.setPort_rd (n : Nat) (f : Port → Port) (r : Nat) : (d.setPort n f).rd r = d.rd r := rfl
@[simp] theorem Dev.setPort_fld (n : Nat) (f : Port → Port) (r lo w : Nat) : (d.setPort n f).fld r lo w = d.fld r lo w := rfl
@[simp] theorem Dev.setPort_bit (n : Nat) (f : Port → Port) (r j : Nat) : (d.setPort n f).bit r j = d.bit r j := rfl

/-! ### setCell -/

@[simp] theorem Dev.setCell_fm (n : Nat) (f : Cell → Cell) : (d.setCell n f).fm = d.fm := rfl
@[simp] theorem Dev.setCell_twinId (n : Nat) (f : Cell → Cell) : (d.setCell n f).twinId = d.twinId := rfl
@[simp] theorem Dev.setCell_regs (n : Nat) (f : Cell → Cell) : (d.setCell n f).regs = d.regs := rfl
@[simp] theorem Dev.setCell_mem (n : Nat) (f : Cell → Cell) : (d.setCell n f).mem = d.mem := rfl
@[simp] theorem Dev.setCell_ecc (n : Nat) (f : Cell → Cell) : (d.setCell n f).ecc = d.ecc := rfl
@[simp] theorem Dev.setCell_shadow (n : Nat) (f : Cell → Cell) : (d.setCell n f).shadow = d.shadow := rfl
@[simp] theorem Dev.setCell_scrubPos (n : Nat) (f : Cell → Cell) : (d.setCell n f).scrubPos = d.scrubPos := rfl
@[simp] theorem Dev.setCell_outbox (n : Nat) (f : Cell → Cell) : (d.setCell n f).outbox = d.outbox := rfl
@[simp] theorem Dev.setCell_busResp (n : Nat) (f : Cell → Cell) : (d.setCell n f).busResp = d.busResp := rfl
@[simp] theorem Dev.setCell_freeCtr (n : Nat) (f : Cell → Cell) : (d.setCell n f).freeCtr = d.freeCtr := rfl
@[simp] theorem Dev.setCell_tb (n : Nat) (f : Cell → Cell) : (d.setCell n f).tb = d.tb := rfl
@[simp] theorem Dev.setCell_pwr (n : Nat) (f : Cell → Cell) : (d.setCell n f).pwr = d.pwr := rfl
@[simp] theorem Dev.setCell_amb (n : Nat) (f : Cell → Cell) : (d.setCell n f).amb = d.amb := rfl
@[simp] theorem Dev.setCell_fc (n : Nat) (f : Cell → Cell) : (d.setCell n f).fc = d.fc := rfl
@[simp] theorem Dev.setCell_pdrvLow (n : Nat) (f : Cell → Cell) : (d.setCell n f).pdrvLow = d.pdrvLow := rfl
@[simp] theorem Dev.setCell_grdyBad (n : Nat) (f : Cell → Cell) : (d.setCell n f).grdyBad = d.grdyBad := rfl
@[simp] theorem Dev.setCell_gates (n : Nat) (f : Cell → Cell) : (d.setCell n f).gates = d.gates := rfl
@[simp] theorem Dev.setCell_rearmP (n : Nat) (f : Cell → Cell) : (d.setCell n f).rearmP = d.rearmP := rfl
@[simp] theorem Dev.setCell_atm (n : Nat) (f : Cell → Cell) : (d.setCell n f).atm = d.atm := rfl
@[simp] theorem Dev.setCell_lanes (n : Nat) (f : Cell → Cell) : (d.setCell n f).lanes = d.lanes := rfl
@[simp] theorem Dev.setCell_ports (n : Nat) (f : Cell → Cell) : (d.setCell n f).ports = d.ports := rfl
@[simp] theorem Dev.setCell_safe (n : Nat) (f : Cell → Cell) : (d.setCell n f).safe = d.safe := rfl
@[simp] theorem Dev.setCell_clk (n : Nat) (f : Cell → Cell) : (d.setCell n f).clk = d.clk := rfl
@[simp] theorem Dev.setCell_servos (n : Nat) (f : Cell → Cell) : (d.setCell n f).servos = d.servos := rfl
@[simp] theorem Dev.setCell_tsrv (n : Nat) (f : Cell → Cell) : (d.setCell n f).tsrv = d.tsrv := rfl
@[simp] theorem Dev.setCell_boot (n : Nat) (f : Cell → Cell) : (d.setCell n f).boot = d.boot := rfl
@[simp] theorem Dev.setCell_twin (n : Nat) (f : Cell → Cell) : (d.setCell n f).twin = d.twin := rfl
@[simp] theorem Dev.setCell_net (n : Nat) (f : Cell → Cell) : (d.setCell n f).net = d.net := rfl
@[simp] theorem Dev.setCell_engs (n : Nat) (f : Cell → Cell) : (d.setCell n f).engs = d.engs := rfl
@[simp] theorem Dev.setCell_xq (n : Nat) (f : Cell → Cell) : (d.setCell n f).xq = d.xq := rfl
@[simp] theorem Dev.setCell_outQ (n : Nat) (f : Cell → Cell) : (d.setCell n f).outQ = d.outQ := rfl
@[simp] theorem Dev.setCell_sorts (n : Nat) (f : Cell → Cell) : (d.setCell n f).sorts = d.sorts := rfl
@[simp] theorem Dev.setCell_sils (n : Nat) (f : Cell → Cell) : (d.setCell n f).sils = d.sils := rfl
@[simp] theorem Dev.setCell_img (n : Nat) (f : Cell → Cell) : (d.setCell n f).img = d.img := rfl
@[simp] theorem Dev.setCell_fused (n : Nat) (f : Cell → Cell) : (d.setCell n f).fused = d.fused := rfl
@[simp] theorem Dev.setCell_fmCal (n : Nat) (f : Cell → Cell) : (d.setCell n f).fmCal = d.fmCal := rfl
@[simp] theorem Dev.setCell_adcs (n : Nat) (f : Cell → Cell) : (d.setCell n f).adcs = d.adcs := rfl
@[simp] theorem Dev.setCell_cmp (n : Nat) (f : Cell → Cell) : (d.setCell n f).cmp = d.cmp := rfl
@[simp] theorem Dev.setCell_tmon (n : Nat) (f : Cell → Cell) : (d.setCell n f).tmon = d.tmon := rfl
@[simp] theorem Dev.setCell_met (n : Nat) (f : Cell → Cell) : (d.setCell n f).met = d.met := rfl
@[simp] theorem Dev.setCell_sup (n : Nat) (f : Cell → Cell) : (d.setCell n f).sup = d.sup := rfl
@[simp] theorem Dev.setCell_per (n : Nat) (f : Cell → Cell) : (d.setCell n f).per = d.per := rfl
@[simp] theorem Dev.setCell_snap (n : Nat) (f : Cell → Cell) : (d.setCell n f).snap = d.snap := rfl
@[simp] theorem Dev.setCell_rd (n : Nat) (f : Cell → Cell) (r : Nat) : (d.setCell n f).rd r = d.rd r := rfl
@[simp] theorem Dev.setCell_fld (n : Nat) (f : Cell → Cell) (r lo w : Nat) : (d.setCell n f).fld r lo w = d.fld r lo w := rfl
@[simp] theorem Dev.setCell_bit (n : Nat) (f : Cell → Cell) (r j : Nat) : (d.setCell n f).bit r j = d.bit r j := rfl

/-! ### setGate -/

@[simp] theorem Dev.setGate_fm (n : Nat) (f : Gate → Gate) : (d.setGate n f).fm = d.fm := rfl
@[simp] theorem Dev.setGate_twinId (n : Nat) (f : Gate → Gate) : (d.setGate n f).twinId = d.twinId := rfl
@[simp] theorem Dev.setGate_regs (n : Nat) (f : Gate → Gate) : (d.setGate n f).regs = d.regs := rfl
@[simp] theorem Dev.setGate_mem (n : Nat) (f : Gate → Gate) : (d.setGate n f).mem = d.mem := rfl
@[simp] theorem Dev.setGate_ecc (n : Nat) (f : Gate → Gate) : (d.setGate n f).ecc = d.ecc := rfl
@[simp] theorem Dev.setGate_shadow (n : Nat) (f : Gate → Gate) : (d.setGate n f).shadow = d.shadow := rfl
@[simp] theorem Dev.setGate_scrubPos (n : Nat) (f : Gate → Gate) : (d.setGate n f).scrubPos = d.scrubPos := rfl
@[simp] theorem Dev.setGate_outbox (n : Nat) (f : Gate → Gate) : (d.setGate n f).outbox = d.outbox := rfl
@[simp] theorem Dev.setGate_busResp (n : Nat) (f : Gate → Gate) : (d.setGate n f).busResp = d.busResp := rfl
@[simp] theorem Dev.setGate_freeCtr (n : Nat) (f : Gate → Gate) : (d.setGate n f).freeCtr = d.freeCtr := rfl
@[simp] theorem Dev.setGate_tb (n : Nat) (f : Gate → Gate) : (d.setGate n f).tb = d.tb := rfl
@[simp] theorem Dev.setGate_pwr (n : Nat) (f : Gate → Gate) : (d.setGate n f).pwr = d.pwr := rfl
@[simp] theorem Dev.setGate_amb (n : Nat) (f : Gate → Gate) : (d.setGate n f).amb = d.amb := rfl
@[simp] theorem Dev.setGate_fc (n : Nat) (f : Gate → Gate) : (d.setGate n f).fc = d.fc := rfl
@[simp] theorem Dev.setGate_pdrvLow (n : Nat) (f : Gate → Gate) : (d.setGate n f).pdrvLow = d.pdrvLow := rfl
@[simp] theorem Dev.setGate_grdyBad (n : Nat) (f : Gate → Gate) : (d.setGate n f).grdyBad = d.grdyBad := rfl
@[simp] theorem Dev.setGate_rearmP (n : Nat) (f : Gate → Gate) : (d.setGate n f).rearmP = d.rearmP := rfl
@[simp] theorem Dev.setGate_atm (n : Nat) (f : Gate → Gate) : (d.setGate n f).atm = d.atm := rfl
@[simp] theorem Dev.setGate_lanes (n : Nat) (f : Gate → Gate) : (d.setGate n f).lanes = d.lanes := rfl
@[simp] theorem Dev.setGate_ports (n : Nat) (f : Gate → Gate) : (d.setGate n f).ports = d.ports := rfl
@[simp] theorem Dev.setGate_cells (n : Nat) (f : Gate → Gate) : (d.setGate n f).cells = d.cells := rfl
@[simp] theorem Dev.setGate_safe (n : Nat) (f : Gate → Gate) : (d.setGate n f).safe = d.safe := rfl
@[simp] theorem Dev.setGate_clk (n : Nat) (f : Gate → Gate) : (d.setGate n f).clk = d.clk := rfl
@[simp] theorem Dev.setGate_servos (n : Nat) (f : Gate → Gate) : (d.setGate n f).servos = d.servos := rfl
@[simp] theorem Dev.setGate_tsrv (n : Nat) (f : Gate → Gate) : (d.setGate n f).tsrv = d.tsrv := rfl
@[simp] theorem Dev.setGate_boot (n : Nat) (f : Gate → Gate) : (d.setGate n f).boot = d.boot := rfl
@[simp] theorem Dev.setGate_twin (n : Nat) (f : Gate → Gate) : (d.setGate n f).twin = d.twin := rfl
@[simp] theorem Dev.setGate_net (n : Nat) (f : Gate → Gate) : (d.setGate n f).net = d.net := rfl
@[simp] theorem Dev.setGate_engs (n : Nat) (f : Gate → Gate) : (d.setGate n f).engs = d.engs := rfl
@[simp] theorem Dev.setGate_xq (n : Nat) (f : Gate → Gate) : (d.setGate n f).xq = d.xq := rfl
@[simp] theorem Dev.setGate_outQ (n : Nat) (f : Gate → Gate) : (d.setGate n f).outQ = d.outQ := rfl
@[simp] theorem Dev.setGate_sorts (n : Nat) (f : Gate → Gate) : (d.setGate n f).sorts = d.sorts := rfl
@[simp] theorem Dev.setGate_sils (n : Nat) (f : Gate → Gate) : (d.setGate n f).sils = d.sils := rfl
@[simp] theorem Dev.setGate_img (n : Nat) (f : Gate → Gate) : (d.setGate n f).img = d.img := rfl
@[simp] theorem Dev.setGate_fused (n : Nat) (f : Gate → Gate) : (d.setGate n f).fused = d.fused := rfl
@[simp] theorem Dev.setGate_fmCal (n : Nat) (f : Gate → Gate) : (d.setGate n f).fmCal = d.fmCal := rfl
@[simp] theorem Dev.setGate_adcs (n : Nat) (f : Gate → Gate) : (d.setGate n f).adcs = d.adcs := rfl
@[simp] theorem Dev.setGate_cmp (n : Nat) (f : Gate → Gate) : (d.setGate n f).cmp = d.cmp := rfl
@[simp] theorem Dev.setGate_tmon (n : Nat) (f : Gate → Gate) : (d.setGate n f).tmon = d.tmon := rfl
@[simp] theorem Dev.setGate_met (n : Nat) (f : Gate → Gate) : (d.setGate n f).met = d.met := rfl
@[simp] theorem Dev.setGate_sup (n : Nat) (f : Gate → Gate) : (d.setGate n f).sup = d.sup := rfl
@[simp] theorem Dev.setGate_per (n : Nat) (f : Gate → Gate) : (d.setGate n f).per = d.per := rfl
@[simp] theorem Dev.setGate_snap (n : Nat) (f : Gate → Gate) : (d.setGate n f).snap = d.snap := rfl
@[simp] theorem Dev.setGate_rd (n : Nat) (f : Gate → Gate) (r : Nat) : (d.setGate n f).rd r = d.rd r := rfl
@[simp] theorem Dev.setGate_fld (n : Nat) (f : Gate → Gate) (r lo w : Nat) : (d.setGate n f).fld r lo w = d.fld r lo w := rfl
@[simp] theorem Dev.setGate_bit (n : Nat) (f : Gate → Gate) (r j : Nat) : (d.setGate n f).bit r j = d.bit r j := rfl

/-! ### setLeg -/

@[simp] theorem Dev.setLeg_fm (n : Nat) (f : Leg → Leg) : (d.setLeg n f).fm = d.fm := rfl
@[simp] theorem Dev.setLeg_twinId (n : Nat) (f : Leg → Leg) : (d.setLeg n f).twinId = d.twinId := rfl
@[simp] theorem Dev.setLeg_regs (n : Nat) (f : Leg → Leg) : (d.setLeg n f).regs = d.regs := rfl
@[simp] theorem Dev.setLeg_mem (n : Nat) (f : Leg → Leg) : (d.setLeg n f).mem = d.mem := rfl
@[simp] theorem Dev.setLeg_ecc (n : Nat) (f : Leg → Leg) : (d.setLeg n f).ecc = d.ecc := rfl
@[simp] theorem Dev.setLeg_shadow (n : Nat) (f : Leg → Leg) : (d.setLeg n f).shadow = d.shadow := rfl
@[simp] theorem Dev.setLeg_scrubPos (n : Nat) (f : Leg → Leg) : (d.setLeg n f).scrubPos = d.scrubPos := rfl
@[simp] theorem Dev.setLeg_outbox (n : Nat) (f : Leg → Leg) : (d.setLeg n f).outbox = d.outbox := rfl
@[simp] theorem Dev.setLeg_busResp (n : Nat) (f : Leg → Leg) : (d.setLeg n f).busResp = d.busResp := rfl
@[simp] theorem Dev.setLeg_freeCtr (n : Nat) (f : Leg → Leg) : (d.setLeg n f).freeCtr = d.freeCtr := rfl
@[simp] theorem Dev.setLeg_tb (n : Nat) (f : Leg → Leg) : (d.setLeg n f).tb = d.tb := rfl
@[simp] theorem Dev.setLeg_pwr (n : Nat) (f : Leg → Leg) : (d.setLeg n f).pwr = d.pwr := rfl
@[simp] theorem Dev.setLeg_amb (n : Nat) (f : Leg → Leg) : (d.setLeg n f).amb = d.amb := rfl
@[simp] theorem Dev.setLeg_fc (n : Nat) (f : Leg → Leg) : (d.setLeg n f).fc = d.fc := rfl
@[simp] theorem Dev.setLeg_pdrvLow (n : Nat) (f : Leg → Leg) : (d.setLeg n f).pdrvLow = d.pdrvLow := rfl
@[simp] theorem Dev.setLeg_grdyBad (n : Nat) (f : Leg → Leg) : (d.setLeg n f).grdyBad = d.grdyBad := rfl
@[simp] theorem Dev.setLeg_gates (n : Nat) (f : Leg → Leg) : (d.setLeg n f).gates = d.gates := rfl
@[simp] theorem Dev.setLeg_rearmP (n : Nat) (f : Leg → Leg) : (d.setLeg n f).rearmP = d.rearmP := rfl
@[simp] theorem Dev.setLeg_lanes (n : Nat) (f : Leg → Leg) : (d.setLeg n f).lanes = d.lanes := rfl
@[simp] theorem Dev.setLeg_ports (n : Nat) (f : Leg → Leg) : (d.setLeg n f).ports = d.ports := rfl
@[simp] theorem Dev.setLeg_cells (n : Nat) (f : Leg → Leg) : (d.setLeg n f).cells = d.cells := rfl
@[simp] theorem Dev.setLeg_safe (n : Nat) (f : Leg → Leg) : (d.setLeg n f).safe = d.safe := rfl
@[simp] theorem Dev.setLeg_clk (n : Nat) (f : Leg → Leg) : (d.setLeg n f).clk = d.clk := rfl
@[simp] theorem Dev.setLeg_servos (n : Nat) (f : Leg → Leg) : (d.setLeg n f).servos = d.servos := rfl
@[simp] theorem Dev.setLeg_tsrv (n : Nat) (f : Leg → Leg) : (d.setLeg n f).tsrv = d.tsrv := rfl
@[simp] theorem Dev.setLeg_boot (n : Nat) (f : Leg → Leg) : (d.setLeg n f).boot = d.boot := rfl
@[simp] theorem Dev.setLeg_twin (n : Nat) (f : Leg → Leg) : (d.setLeg n f).twin = d.twin := rfl
@[simp] theorem Dev.setLeg_net (n : Nat) (f : Leg → Leg) : (d.setLeg n f).net = d.net := rfl
@[simp] theorem Dev.setLeg_engs (n : Nat) (f : Leg → Leg) : (d.setLeg n f).engs = d.engs := rfl
@[simp] theorem Dev.setLeg_xq (n : Nat) (f : Leg → Leg) : (d.setLeg n f).xq = d.xq := rfl
@[simp] theorem Dev.setLeg_outQ (n : Nat) (f : Leg → Leg) : (d.setLeg n f).outQ = d.outQ := rfl
@[simp] theorem Dev.setLeg_sorts (n : Nat) (f : Leg → Leg) : (d.setLeg n f).sorts = d.sorts := rfl
@[simp] theorem Dev.setLeg_sils (n : Nat) (f : Leg → Leg) : (d.setLeg n f).sils = d.sils := rfl
@[simp] theorem Dev.setLeg_img (n : Nat) (f : Leg → Leg) : (d.setLeg n f).img = d.img := rfl
@[simp] theorem Dev.setLeg_fused (n : Nat) (f : Leg → Leg) : (d.setLeg n f).fused = d.fused := rfl
@[simp] theorem Dev.setLeg_fmCal (n : Nat) (f : Leg → Leg) : (d.setLeg n f).fmCal = d.fmCal := rfl
@[simp] theorem Dev.setLeg_adcs (n : Nat) (f : Leg → Leg) : (d.setLeg n f).adcs = d.adcs := rfl
@[simp] theorem Dev.setLeg_cmp (n : Nat) (f : Leg → Leg) : (d.setLeg n f).cmp = d.cmp := rfl
@[simp] theorem Dev.setLeg_tmon (n : Nat) (f : Leg → Leg) : (d.setLeg n f).tmon = d.tmon := rfl
@[simp] theorem Dev.setLeg_met (n : Nat) (f : Leg → Leg) : (d.setLeg n f).met = d.met := rfl
@[simp] theorem Dev.setLeg_sup (n : Nat) (f : Leg → Leg) : (d.setLeg n f).sup = d.sup := rfl
@[simp] theorem Dev.setLeg_per (n : Nat) (f : Leg → Leg) : (d.setLeg n f).per = d.per := rfl
@[simp] theorem Dev.setLeg_snap (n : Nat) (f : Leg → Leg) : (d.setLeg n f).snap = d.snap := rfl
@[simp] theorem Dev.setLeg_rd (n : Nat) (f : Leg → Leg) (r : Nat) : (d.setLeg n f).rd r = d.rd r := rfl
@[simp] theorem Dev.setLeg_fld (n : Nat) (f : Leg → Leg) (r lo w : Nat) : (d.setLeg n f).fld r lo w = d.fld r lo w := rfl
@[simp] theorem Dev.setLeg_bit (n : Nat) (f : Leg → Leg) (r j : Nat) : (d.setLeg n f).bit r j = d.bit r j := rfl

/-! ### setServo -/

@[simp] theorem Dev.setServo_fm (n : Nat) (f : Servo → Servo) : (d.setServo n f).fm = d.fm := rfl
@[simp] theorem Dev.setServo_twinId (n : Nat) (f : Servo → Servo) : (d.setServo n f).twinId = d.twinId := rfl
@[simp] theorem Dev.setServo_regs (n : Nat) (f : Servo → Servo) : (d.setServo n f).regs = d.regs := rfl
@[simp] theorem Dev.setServo_mem (n : Nat) (f : Servo → Servo) : (d.setServo n f).mem = d.mem := rfl
@[simp] theorem Dev.setServo_ecc (n : Nat) (f : Servo → Servo) : (d.setServo n f).ecc = d.ecc := rfl
@[simp] theorem Dev.setServo_shadow (n : Nat) (f : Servo → Servo) : (d.setServo n f).shadow = d.shadow := rfl
@[simp] theorem Dev.setServo_scrubPos (n : Nat) (f : Servo → Servo) : (d.setServo n f).scrubPos = d.scrubPos := rfl
@[simp] theorem Dev.setServo_outbox (n : Nat) (f : Servo → Servo) : (d.setServo n f).outbox = d.outbox := rfl
@[simp] theorem Dev.setServo_busResp (n : Nat) (f : Servo → Servo) : (d.setServo n f).busResp = d.busResp := rfl
@[simp] theorem Dev.setServo_freeCtr (n : Nat) (f : Servo → Servo) : (d.setServo n f).freeCtr = d.freeCtr := rfl
@[simp] theorem Dev.setServo_tb (n : Nat) (f : Servo → Servo) : (d.setServo n f).tb = d.tb := rfl
@[simp] theorem Dev.setServo_pwr (n : Nat) (f : Servo → Servo) : (d.setServo n f).pwr = d.pwr := rfl
@[simp] theorem Dev.setServo_amb (n : Nat) (f : Servo → Servo) : (d.setServo n f).amb = d.amb := rfl
@[simp] theorem Dev.setServo_fc (n : Nat) (f : Servo → Servo) : (d.setServo n f).fc = d.fc := rfl
@[simp] theorem Dev.setServo_pdrvLow (n : Nat) (f : Servo → Servo) : (d.setServo n f).pdrvLow = d.pdrvLow := rfl
@[simp] theorem Dev.setServo_grdyBad (n : Nat) (f : Servo → Servo) : (d.setServo n f).grdyBad = d.grdyBad := rfl
@[simp] theorem Dev.setServo_gates (n : Nat) (f : Servo → Servo) : (d.setServo n f).gates = d.gates := rfl
@[simp] theorem Dev.setServo_rearmP (n : Nat) (f : Servo → Servo) : (d.setServo n f).rearmP = d.rearmP := rfl
@[simp] theorem Dev.setServo_atm (n : Nat) (f : Servo → Servo) : (d.setServo n f).atm = d.atm := rfl
@[simp] theorem Dev.setServo_lanes (n : Nat) (f : Servo → Servo) : (d.setServo n f).lanes = d.lanes := rfl
@[simp] theorem Dev.setServo_ports (n : Nat) (f : Servo → Servo) : (d.setServo n f).ports = d.ports := rfl
@[simp] theorem Dev.setServo_cells (n : Nat) (f : Servo → Servo) : (d.setServo n f).cells = d.cells := rfl
@[simp] theorem Dev.setServo_safe (n : Nat) (f : Servo → Servo) : (d.setServo n f).safe = d.safe := rfl
@[simp] theorem Dev.setServo_clk (n : Nat) (f : Servo → Servo) : (d.setServo n f).clk = d.clk := rfl
@[simp] theorem Dev.setServo_tsrv (n : Nat) (f : Servo → Servo) : (d.setServo n f).tsrv = d.tsrv := rfl
@[simp] theorem Dev.setServo_boot (n : Nat) (f : Servo → Servo) : (d.setServo n f).boot = d.boot := rfl
@[simp] theorem Dev.setServo_twin (n : Nat) (f : Servo → Servo) : (d.setServo n f).twin = d.twin := rfl
@[simp] theorem Dev.setServo_net (n : Nat) (f : Servo → Servo) : (d.setServo n f).net = d.net := rfl
@[simp] theorem Dev.setServo_engs (n : Nat) (f : Servo → Servo) : (d.setServo n f).engs = d.engs := rfl
@[simp] theorem Dev.setServo_xq (n : Nat) (f : Servo → Servo) : (d.setServo n f).xq = d.xq := rfl
@[simp] theorem Dev.setServo_outQ (n : Nat) (f : Servo → Servo) : (d.setServo n f).outQ = d.outQ := rfl
@[simp] theorem Dev.setServo_sorts (n : Nat) (f : Servo → Servo) : (d.setServo n f).sorts = d.sorts := rfl
@[simp] theorem Dev.setServo_sils (n : Nat) (f : Servo → Servo) : (d.setServo n f).sils = d.sils := rfl
@[simp] theorem Dev.setServo_img (n : Nat) (f : Servo → Servo) : (d.setServo n f).img = d.img := rfl
@[simp] theorem Dev.setServo_fused (n : Nat) (f : Servo → Servo) : (d.setServo n f).fused = d.fused := rfl
@[simp] theorem Dev.setServo_fmCal (n : Nat) (f : Servo → Servo) : (d.setServo n f).fmCal = d.fmCal := rfl
@[simp] theorem Dev.setServo_adcs (n : Nat) (f : Servo → Servo) : (d.setServo n f).adcs = d.adcs := rfl
@[simp] theorem Dev.setServo_cmp (n : Nat) (f : Servo → Servo) : (d.setServo n f).cmp = d.cmp := rfl
@[simp] theorem Dev.setServo_tmon (n : Nat) (f : Servo → Servo) : (d.setServo n f).tmon = d.tmon := rfl
@[simp] theorem Dev.setServo_met (n : Nat) (f : Servo → Servo) : (d.setServo n f).met = d.met := rfl
@[simp] theorem Dev.setServo_sup (n : Nat) (f : Servo → Servo) : (d.setServo n f).sup = d.sup := rfl
@[simp] theorem Dev.setServo_per (n : Nat) (f : Servo → Servo) : (d.setServo n f).per = d.per := rfl
@[simp] theorem Dev.setServo_snap (n : Nat) (f : Servo → Servo) : (d.setServo n f).snap = d.snap := rfl
@[simp] theorem Dev.setServo_rd (n : Nat) (f : Servo → Servo) (r : Nat) : (d.setServo n f).rd r = d.rd r := rfl
@[simp] theorem Dev.setServo_fld (n : Nat) (f : Servo → Servo) (r lo w : Nat) : (d.setServo n f).fld r lo w = d.fld r lo w := rfl
@[simp] theorem Dev.setServo_bit (n : Nat) (f : Servo → Servo) (r j : Nat) : (d.setServo n f).bit r j = d.bit r j := rfl

/-! ### send -/

@[simp] theorem Dev.send_fm (o : Out) : (d.send o).fm = d.fm := rfl
@[simp] theorem Dev.send_twinId (o : Out) : (d.send o).twinId = d.twinId := rfl
@[simp] theorem Dev.send_regs (o : Out) : (d.send o).regs = d.regs := rfl
@[simp] theorem Dev.send_mem (o : Out) : (d.send o).mem = d.mem := rfl
@[simp] theorem Dev.send_ecc (o : Out) : (d.send o).ecc = d.ecc := rfl
@[simp] theorem Dev.send_shadow (o : Out) : (d.send o).shadow = d.shadow := rfl
@[simp] theorem Dev.send_scrubPos (o : Out) : (d.send o).scrubPos = d.scrubPos := rfl
@[simp] theorem Dev.send_busResp (o : Out) : (d.send o).busResp = d.busResp := rfl
@[simp] theorem Dev.send_freeCtr (o : Out) : (d.send o).freeCtr = d.freeCtr := rfl
@[simp] theorem Dev.send_tb (o : Out) : (d.send o).tb = d.tb := rfl
@[simp] theorem Dev.send_pwr (o : Out) : (d.send o).pwr = d.pwr := rfl
@[simp] theorem Dev.send_amb (o : Out) : (d.send o).amb = d.amb := rfl
@[simp] theorem Dev.send_fc (o : Out) : (d.send o).fc = d.fc := rfl
@[simp] theorem Dev.send_pdrvLow (o : Out) : (d.send o).pdrvLow = d.pdrvLow := rfl
@[simp] theorem Dev.send_grdyBad (o : Out) : (d.send o).grdyBad = d.grdyBad := rfl
@[simp] theorem Dev.send_gates (o : Out) : (d.send o).gates = d.gates := rfl
@[simp] theorem Dev.send_rearmP (o : Out) : (d.send o).rearmP = d.rearmP := rfl
@[simp] theorem Dev.send_atm (o : Out) : (d.send o).atm = d.atm := rfl
@[simp] theorem Dev.send_lanes (o : Out) : (d.send o).lanes = d.lanes := rfl
@[simp] theorem Dev.send_ports (o : Out) : (d.send o).ports = d.ports := rfl
@[simp] theorem Dev.send_cells (o : Out) : (d.send o).cells = d.cells := rfl
@[simp] theorem Dev.send_safe (o : Out) : (d.send o).safe = d.safe := rfl
@[simp] theorem Dev.send_clk (o : Out) : (d.send o).clk = d.clk := rfl
@[simp] theorem Dev.send_servos (o : Out) : (d.send o).servos = d.servos := rfl
@[simp] theorem Dev.send_tsrv (o : Out) : (d.send o).tsrv = d.tsrv := rfl
@[simp] theorem Dev.send_boot (o : Out) : (d.send o).boot = d.boot := rfl
@[simp] theorem Dev.send_twin (o : Out) : (d.send o).twin = d.twin := rfl
@[simp] theorem Dev.send_net (o : Out) : (d.send o).net = d.net := rfl
@[simp] theorem Dev.send_engs (o : Out) : (d.send o).engs = d.engs := rfl
@[simp] theorem Dev.send_xq (o : Out) : (d.send o).xq = d.xq := rfl
@[simp] theorem Dev.send_outQ (o : Out) : (d.send o).outQ = d.outQ := rfl
@[simp] theorem Dev.send_sorts (o : Out) : (d.send o).sorts = d.sorts := rfl
@[simp] theorem Dev.send_sils (o : Out) : (d.send o).sils = d.sils := rfl
@[simp] theorem Dev.send_img (o : Out) : (d.send o).img = d.img := rfl
@[simp] theorem Dev.send_fused (o : Out) : (d.send o).fused = d.fused := rfl
@[simp] theorem Dev.send_fmCal (o : Out) : (d.send o).fmCal = d.fmCal := rfl
@[simp] theorem Dev.send_adcs (o : Out) : (d.send o).adcs = d.adcs := rfl
@[simp] theorem Dev.send_cmp (o : Out) : (d.send o).cmp = d.cmp := rfl
@[simp] theorem Dev.send_tmon (o : Out) : (d.send o).tmon = d.tmon := rfl
@[simp] theorem Dev.send_met (o : Out) : (d.send o).met = d.met := rfl
@[simp] theorem Dev.send_sup (o : Out) : (d.send o).sup = d.sup := rfl
@[simp] theorem Dev.send_per (o : Out) : (d.send o).per = d.per := rfl
@[simp] theorem Dev.send_snap (o : Out) : (d.send o).snap = d.snap := rfl
@[simp] theorem Dev.send_rd (o : Out) (r : Nat) : (d.send o).rd r = d.rd r := rfl
@[simp] theorem Dev.send_fld (o : Out) (r lo w : Nat) : (d.send o).fld r lo w = d.fld r lo w := rfl
@[simp] theorem Dev.send_bit (o : Out) (r j : Nat) : (d.send o).bit r j = d.bit r j := rfl

/-! ### nextFree -/

@[simp] theorem Dev.nextFree_fm : (d.nextFree).fm = d.fm := rfl
@[simp] theorem Dev.nextFree_twinId : (d.nextFree).twinId = d.twinId := rfl
@[simp] theorem Dev.nextFree_regs : (d.nextFree).regs = d.regs := rfl
@[simp] theorem Dev.nextFree_mem : (d.nextFree).mem = d.mem := rfl
@[simp] theorem Dev.nextFree_ecc : (d.nextFree).ecc = d.ecc := rfl
@[simp] theorem Dev.nextFree_shadow : (d.nextFree).shadow = d.shadow := rfl
@[simp] theorem Dev.nextFree_scrubPos : (d.nextFree).scrubPos = d.scrubPos := rfl
@[simp] theorem Dev.nextFree_outbox : (d.nextFree).outbox = d.outbox := rfl
@[simp] theorem Dev.nextFree_busResp : (d.nextFree).busResp = d.busResp := rfl
@[simp] theorem Dev.nextFree_tb : (d.nextFree).tb = d.tb := rfl
@[simp] theorem Dev.nextFree_pwr : (d.nextFree).pwr = d.pwr := rfl
@[simp] theorem Dev.nextFree_amb : (d.nextFree).amb = d.amb := rfl
@[simp] theorem Dev.nextFree_fc : (d.nextFree).fc = d.fc := rfl
@[simp] theorem Dev.nextFree_pdrvLow : (d.nextFree).pdrvLow = d.pdrvLow := rfl
@[simp] theorem Dev.nextFree_grdyBad : (d.nextFree).grdyBad = d.grdyBad := rfl
@[simp] theorem Dev.nextFree_gates : (d.nextFree).gates = d.gates := rfl
@[simp] theorem Dev.nextFree_rearmP : (d.nextFree).rearmP = d.rearmP := rfl
@[simp] theorem Dev.nextFree_atm : (d.nextFree).atm = d.atm := rfl
@[simp] theorem Dev.nextFree_lanes : (d.nextFree).lanes = d.lanes := rfl
@[simp] theorem Dev.nextFree_ports : (d.nextFree).ports = d.ports := rfl
@[simp] theorem Dev.nextFree_cells : (d.nextFree).cells = d.cells := rfl
@[simp] theorem Dev.nextFree_safe : (d.nextFree).safe = d.safe := rfl
@[simp] theorem Dev.nextFree_clk : (d.nextFree).clk = d.clk := rfl
@[simp] theorem Dev.nextFree_servos : (d.nextFree).servos = d.servos := rfl
@[simp] theorem Dev.nextFree_tsrv : (d.nextFree).tsrv = d.tsrv := rfl
@[simp] theorem Dev.nextFree_boot : (d.nextFree).boot = d.boot := rfl
@[simp] theorem Dev.nextFree_twin : (d.nextFree).twin = d.twin := rfl
@[simp] theorem Dev.nextFree_net : (d.nextFree).net = d.net := rfl
@[simp] theorem Dev.nextFree_engs : (d.nextFree).engs = d.engs := rfl
@[simp] theorem Dev.nextFree_xq : (d.nextFree).xq = d.xq := rfl
@[simp] theorem Dev.nextFree_outQ : (d.nextFree).outQ = d.outQ := rfl
@[simp] theorem Dev.nextFree_sorts : (d.nextFree).sorts = d.sorts := rfl
@[simp] theorem Dev.nextFree_sils : (d.nextFree).sils = d.sils := rfl
@[simp] theorem Dev.nextFree_img : (d.nextFree).img = d.img := rfl
@[simp] theorem Dev.nextFree_fused : (d.nextFree).fused = d.fused := rfl
@[simp] theorem Dev.nextFree_fmCal : (d.nextFree).fmCal = d.fmCal := rfl
@[simp] theorem Dev.nextFree_adcs : (d.nextFree).adcs = d.adcs := rfl
@[simp] theorem Dev.nextFree_cmp : (d.nextFree).cmp = d.cmp := rfl
@[simp] theorem Dev.nextFree_tmon : (d.nextFree).tmon = d.tmon := rfl
@[simp] theorem Dev.nextFree_met : (d.nextFree).met = d.met := rfl
@[simp] theorem Dev.nextFree_sup : (d.nextFree).sup = d.sup := rfl
@[simp] theorem Dev.nextFree_per : (d.nextFree).per = d.per := rfl
@[simp] theorem Dev.nextFree_snap : (d.nextFree).snap = d.snap := rfl
@[simp] theorem Dev.nextFree_rd  (r : Nat) : (d.nextFree).rd r = d.rd r := rfl
@[simp] theorem Dev.nextFree_fld  (r lo w : Nat) : (d.nextFree).fld r lo w = d.fld r lo w := rfl
@[simp] theorem Dev.nextFree_bit  (r j : Nat) : (d.nextFree).bit r j = d.bit r j := rfl

/-! ### mwr -/

@[simp] theorem Dev.mwr_fm (a n v : Nat) : (d.mwr a n v).fm = d.fm := rfl
@[simp] theorem Dev.mwr_twinId (a n v : Nat) : (d.mwr a n v).twinId = d.twinId := rfl
@[simp] theorem Dev.mwr_regs (a n v : Nat) : (d.mwr a n v).regs = d.regs := rfl
@[simp] theorem Dev.mwr_shadow (a n v : Nat) : (d.mwr a n v).shadow = d.shadow := rfl
@[simp] theorem Dev.mwr_scrubPos (a n v : Nat) : (d.mwr a n v).scrubPos = d.scrubPos := rfl
@[simp] theorem Dev.mwr_outbox (a n v : Nat) : (d.mwr a n v).outbox = d.outbox := rfl
@[simp] theorem Dev.mwr_busResp (a n v : Nat) : (d.mwr a n v).busResp = d.busResp := rfl
@[simp] theorem Dev.mwr_freeCtr (a n v : Nat) : (d.mwr a n v).freeCtr = d.freeCtr := rfl
@[simp] theorem Dev.mwr_tb (a n v : Nat) : (d.mwr a n v).tb = d.tb := rfl
@[simp] theorem Dev.mwr_pwr (a n v : Nat) : (d.mwr a n v).pwr = d.pwr := rfl
@[simp] theorem Dev.mwr_amb (a n v : Nat) : (d.mwr a n v).amb = d.amb := rfl
@[simp] theorem Dev.mwr_fc (a n v : Nat) : (d.mwr a n v).fc = d.fc := rfl
@[simp] theorem Dev.mwr_pdrvLow (a n v : Nat) : (d.mwr a n v).pdrvLow = d.pdrvLow := rfl
@[simp] theorem Dev.mwr_grdyBad (a n v : Nat) : (d.mwr a n v).grdyBad = d.grdyBad := rfl
@[simp] theorem Dev.mwr_gates (a n v : Nat) : (d.mwr a n v).gates = d.gates := rfl
@[simp] theorem Dev.mwr_rearmP (a n v : Nat) : (d.mwr a n v).rearmP = d.rearmP := rfl
@[simp] theorem Dev.mwr_atm (a n v : Nat) : (d.mwr a n v).atm = d.atm := rfl
@[simp] theorem Dev.mwr_lanes (a n v : Nat) : (d.mwr a n v).lanes = d.lanes := rfl
@[simp] theorem Dev.mwr_ports (a n v : Nat) : (d.mwr a n v).ports = d.ports := rfl
@[simp] theorem Dev.mwr_cells (a n v : Nat) : (d.mwr a n v).cells = d.cells := rfl
@[simp] theorem Dev.mwr_safe (a n v : Nat) : (d.mwr a n v).safe = d.safe := rfl
@[simp] theorem Dev.mwr_clk (a n v : Nat) : (d.mwr a n v).clk = d.clk := rfl
@[simp] theorem Dev.mwr_servos (a n v : Nat) : (d.mwr a n v).servos = d.servos := rfl
@[simp] theorem Dev.mwr_tsrv (a n v : Nat) : (d.mwr a n v).tsrv = d.tsrv := rfl
@[simp] theorem Dev.mwr_boot (a n v : Nat) : (d.mwr a n v).boot = d.boot := rfl
@[simp] theorem Dev.mwr_twin (a n v : Nat) : (d.mwr a n v).twin = d.twin := rfl
@[simp] theorem Dev.mwr_net (a n v : Nat) : (d.mwr a n v).net = d.net := rfl
@[simp] theorem Dev.mwr_engs (a n v : Nat) : (d.mwr a n v).engs = d.engs := rfl
@[simp] theorem Dev.mwr_xq (a n v : Nat) : (d.mwr a n v).xq = d.xq := rfl
@[simp] theorem Dev.mwr_outQ (a n v : Nat) : (d.mwr a n v).outQ = d.outQ := rfl
@[simp] theorem Dev.mwr_sorts (a n v : Nat) : (d.mwr a n v).sorts = d.sorts := rfl
@[simp] theorem Dev.mwr_sils (a n v : Nat) : (d.mwr a n v).sils = d.sils := rfl
@[simp] theorem Dev.mwr_img (a n v : Nat) : (d.mwr a n v).img = d.img := rfl
@[simp] theorem Dev.mwr_fused (a n v : Nat) : (d.mwr a n v).fused = d.fused := rfl
@[simp] theorem Dev.mwr_fmCal (a n v : Nat) : (d.mwr a n v).fmCal = d.fmCal := rfl
@[simp] theorem Dev.mwr_adcs (a n v : Nat) : (d.mwr a n v).adcs = d.adcs := rfl
@[simp] theorem Dev.mwr_cmp (a n v : Nat) : (d.mwr a n v).cmp = d.cmp := rfl
@[simp] theorem Dev.mwr_tmon (a n v : Nat) : (d.mwr a n v).tmon = d.tmon := rfl
@[simp] theorem Dev.mwr_met (a n v : Nat) : (d.mwr a n v).met = d.met := rfl
@[simp] theorem Dev.mwr_sup (a n v : Nat) : (d.mwr a n v).sup = d.sup := rfl
@[simp] theorem Dev.mwr_per (a n v : Nat) : (d.mwr a n v).per = d.per := rfl
@[simp] theorem Dev.mwr_snap (a n v : Nat) : (d.mwr a n v).snap = d.snap := rfl
@[simp] theorem Dev.mwr_rd (a n v : Nat) (r : Nat) : (d.mwr a n v).rd r = d.rd r := rfl
@[simp] theorem Dev.mwr_fld (a n v : Nat) (r lo w : Nat) : (d.mwr a n v).fld r lo w = d.fld r lo w := rfl
@[simp] theorem Dev.mwr_bit (a n v : Nat) (r j : Nat) : (d.mwr a n v).bit r j = d.bit r j := rfl

/-! ### One component replaced -/

@[simp] theorem Dev.putFm_fm (v : Bool) : (d.putFm v).fm = v := rfl
@[simp] theorem Dev.putFm_rd (v : Bool) (r : Nat) : (d.putFm v).rd r = d.rd r := rfl
@[simp] theorem Dev.putFm_fld (v : Bool) (r lo w : Nat) : (d.putFm v).fld r lo w = d.fld r lo w := rfl
@[simp] theorem Dev.putFm_bit (v : Bool) (r j : Nat) : (d.putFm v).bit r j = d.bit r j := rfl
@[simp] theorem Dev.putFm_twinId (v : Bool) : (d.putFm v).twinId = d.twinId := rfl
@[simp] theorem Dev.putFm_regs (v : Bool) : (d.putFm v).regs = d.regs := rfl
@[simp] theorem Dev.putFm_mem (v : Bool) : (d.putFm v).mem = d.mem := rfl
@[simp] theorem Dev.putFm_ecc (v : Bool) : (d.putFm v).ecc = d.ecc := rfl
@[simp] theorem Dev.putFm_shadow (v : Bool) : (d.putFm v).shadow = d.shadow := rfl
@[simp] theorem Dev.putFm_scrubPos (v : Bool) : (d.putFm v).scrubPos = d.scrubPos := rfl
@[simp] theorem Dev.putFm_outbox (v : Bool) : (d.putFm v).outbox = d.outbox := rfl
@[simp] theorem Dev.putFm_busResp (v : Bool) : (d.putFm v).busResp = d.busResp := rfl
@[simp] theorem Dev.putFm_freeCtr (v : Bool) : (d.putFm v).freeCtr = d.freeCtr := rfl
@[simp] theorem Dev.putFm_tb (v : Bool) : (d.putFm v).tb = d.tb := rfl
@[simp] theorem Dev.putFm_pwr (v : Bool) : (d.putFm v).pwr = d.pwr := rfl
@[simp] theorem Dev.putFm_amb (v : Bool) : (d.putFm v).amb = d.amb := rfl
@[simp] theorem Dev.putFm_fc (v : Bool) : (d.putFm v).fc = d.fc := rfl
@[simp] theorem Dev.putFm_pdrvLow (v : Bool) : (d.putFm v).pdrvLow = d.pdrvLow := rfl
@[simp] theorem Dev.putFm_grdyBad (v : Bool) : (d.putFm v).grdyBad = d.grdyBad := rfl
@[simp] theorem Dev.putFm_gates (v : Bool) : (d.putFm v).gates = d.gates := rfl
@[simp] theorem Dev.putFm_rearmP (v : Bool) : (d.putFm v).rearmP = d.rearmP := rfl
@[simp] theorem Dev.putFm_atm (v : Bool) : (d.putFm v).atm = d.atm := rfl
@[simp] theorem Dev.putFm_lanes (v : Bool) : (d.putFm v).lanes = d.lanes := rfl
@[simp] theorem Dev.putFm_ports (v : Bool) : (d.putFm v).ports = d.ports := rfl
@[simp] theorem Dev.putFm_cells (v : Bool) : (d.putFm v).cells = d.cells := rfl
@[simp] theorem Dev.putFm_safe (v : Bool) : (d.putFm v).safe = d.safe := rfl
@[simp] theorem Dev.putFm_clk (v : Bool) : (d.putFm v).clk = d.clk := rfl
@[simp] theorem Dev.putFm_servos (v : Bool) : (d.putFm v).servos = d.servos := rfl
@[simp] theorem Dev.putFm_tsrv (v : Bool) : (d.putFm v).tsrv = d.tsrv := rfl
@[simp] theorem Dev.putFm_boot (v : Bool) : (d.putFm v).boot = d.boot := rfl
@[simp] theorem Dev.putFm_twin (v : Bool) : (d.putFm v).twin = d.twin := rfl
@[simp] theorem Dev.putFm_net (v : Bool) : (d.putFm v).net = d.net := rfl
@[simp] theorem Dev.putFm_engs (v : Bool) : (d.putFm v).engs = d.engs := rfl
@[simp] theorem Dev.putFm_xq (v : Bool) : (d.putFm v).xq = d.xq := rfl
@[simp] theorem Dev.putFm_outQ (v : Bool) : (d.putFm v).outQ = d.outQ := rfl
@[simp] theorem Dev.putFm_sorts (v : Bool) : (d.putFm v).sorts = d.sorts := rfl
@[simp] theorem Dev.putFm_sils (v : Bool) : (d.putFm v).sils = d.sils := rfl
@[simp] theorem Dev.putFm_img (v : Bool) : (d.putFm v).img = d.img := rfl
@[simp] theorem Dev.putFm_fused (v : Bool) : (d.putFm v).fused = d.fused := rfl
@[simp] theorem Dev.putFm_fmCal (v : Bool) : (d.putFm v).fmCal = d.fmCal := rfl
@[simp] theorem Dev.putFm_adcs (v : Bool) : (d.putFm v).adcs = d.adcs := rfl
@[simp] theorem Dev.putFm_cmp (v : Bool) : (d.putFm v).cmp = d.cmp := rfl
@[simp] theorem Dev.putFm_tmon (v : Bool) : (d.putFm v).tmon = d.tmon := rfl
@[simp] theorem Dev.putFm_met (v : Bool) : (d.putFm v).met = d.met := rfl
@[simp] theorem Dev.putFm_sup (v : Bool) : (d.putFm v).sup = d.sup := rfl
@[simp] theorem Dev.putFm_per (v : Bool) : (d.putFm v).per = d.per := rfl
@[simp] theorem Dev.putFm_snap (v : Bool) : (d.putFm v).snap = d.snap := rfl
@[simp] theorem Dev.putTwinId_twinId (v : Bool) : (d.putTwinId v).twinId = v := rfl
@[simp] theorem Dev.putTwinId_rd (v : Bool) (r : Nat) : (d.putTwinId v).rd r = d.rd r := rfl
@[simp] theorem Dev.putTwinId_fld (v : Bool) (r lo w : Nat) : (d.putTwinId v).fld r lo w = d.fld r lo w := rfl
@[simp] theorem Dev.putTwinId_bit (v : Bool) (r j : Nat) : (d.putTwinId v).bit r j = d.bit r j := rfl
@[simp] theorem Dev.putTwinId_fm (v : Bool) : (d.putTwinId v).fm = d.fm := rfl
@[simp] theorem Dev.putTwinId_regs (v : Bool) : (d.putTwinId v).regs = d.regs := rfl
@[simp] theorem Dev.putTwinId_mem (v : Bool) : (d.putTwinId v).mem = d.mem := rfl
@[simp] theorem Dev.putTwinId_ecc (v : Bool) : (d.putTwinId v).ecc = d.ecc := rfl
@[simp] theorem Dev.putTwinId_shadow (v : Bool) : (d.putTwinId v).shadow = d.shadow := rfl
@[simp] theorem Dev.putTwinId_scrubPos (v : Bool) : (d.putTwinId v).scrubPos = d.scrubPos := rfl
@[simp] theorem Dev.putTwinId_outbox (v : Bool) : (d.putTwinId v).outbox = d.outbox := rfl
@[simp] theorem Dev.putTwinId_busResp (v : Bool) : (d.putTwinId v).busResp = d.busResp := rfl
@[simp] theorem Dev.putTwinId_freeCtr (v : Bool) : (d.putTwinId v).freeCtr = d.freeCtr := rfl
@[simp] theorem Dev.putTwinId_tb (v : Bool) : (d.putTwinId v).tb = d.tb := rfl
@[simp] theorem Dev.putTwinId_pwr (v : Bool) : (d.putTwinId v).pwr = d.pwr := rfl
@[simp] theorem Dev.putTwinId_amb (v : Bool) : (d.putTwinId v).amb = d.amb := rfl
@[simp] theorem Dev.putTwinId_fc (v : Bool) : (d.putTwinId v).fc = d.fc := rfl
@[simp] theorem Dev.putTwinId_pdrvLow (v : Bool) : (d.putTwinId v).pdrvLow = d.pdrvLow := rfl
@[simp] theorem Dev.putTwinId_grdyBad (v : Bool) : (d.putTwinId v).grdyBad = d.grdyBad := rfl
@[simp] theorem Dev.putTwinId_gates (v : Bool) : (d.putTwinId v).gates = d.gates := rfl
@[simp] theorem Dev.putTwinId_rearmP (v : Bool) : (d.putTwinId v).rearmP = d.rearmP := rfl
@[simp] theorem Dev.putTwinId_atm (v : Bool) : (d.putTwinId v).atm = d.atm := rfl
@[simp] theorem Dev.putTwinId_lanes (v : Bool) : (d.putTwinId v).lanes = d.lanes := rfl
@[simp] theorem Dev.putTwinId_ports (v : Bool) : (d.putTwinId v).ports = d.ports := rfl
@[simp] theorem Dev.putTwinId_cells (v : Bool) : (d.putTwinId v).cells = d.cells := rfl
@[simp] theorem Dev.putTwinId_safe (v : Bool) : (d.putTwinId v).safe = d.safe := rfl
@[simp] theorem Dev.putTwinId_clk (v : Bool) : (d.putTwinId v).clk = d.clk := rfl
@[simp] theorem Dev.putTwinId_servos (v : Bool) : (d.putTwinId v).servos = d.servos := rfl
@[simp] theorem Dev.putTwinId_tsrv (v : Bool) : (d.putTwinId v).tsrv = d.tsrv := rfl
@[simp] theorem Dev.putTwinId_boot (v : Bool) : (d.putTwinId v).boot = d.boot := rfl
@[simp] theorem Dev.putTwinId_twin (v : Bool) : (d.putTwinId v).twin = d.twin := rfl
@[simp] theorem Dev.putTwinId_net (v : Bool) : (d.putTwinId v).net = d.net := rfl
@[simp] theorem Dev.putTwinId_engs (v : Bool) : (d.putTwinId v).engs = d.engs := rfl
@[simp] theorem Dev.putTwinId_xq (v : Bool) : (d.putTwinId v).xq = d.xq := rfl
@[simp] theorem Dev.putTwinId_outQ (v : Bool) : (d.putTwinId v).outQ = d.outQ := rfl
@[simp] theorem Dev.putTwinId_sorts (v : Bool) : (d.putTwinId v).sorts = d.sorts := rfl
@[simp] theorem Dev.putTwinId_sils (v : Bool) : (d.putTwinId v).sils = d.sils := rfl
@[simp] theorem Dev.putTwinId_img (v : Bool) : (d.putTwinId v).img = d.img := rfl
@[simp] theorem Dev.putTwinId_fused (v : Bool) : (d.putTwinId v).fused = d.fused := rfl
@[simp] theorem Dev.putTwinId_fmCal (v : Bool) : (d.putTwinId v).fmCal = d.fmCal := rfl
@[simp] theorem Dev.putTwinId_adcs (v : Bool) : (d.putTwinId v).adcs = d.adcs := rfl
@[simp] theorem Dev.putTwinId_cmp (v : Bool) : (d.putTwinId v).cmp = d.cmp := rfl
@[simp] theorem Dev.putTwinId_tmon (v : Bool) : (d.putTwinId v).tmon = d.tmon := rfl
@[simp] theorem Dev.putTwinId_met (v : Bool) : (d.putTwinId v).met = d.met := rfl
@[simp] theorem Dev.putTwinId_sup (v : Bool) : (d.putTwinId v).sup = d.sup := rfl
@[simp] theorem Dev.putTwinId_per (v : Bool) : (d.putTwinId v).per = d.per := rfl
@[simp] theorem Dev.putTwinId_snap (v : Bool) : (d.putTwinId v).snap = d.snap := rfl
@[simp] theorem Dev.putRegs_regs (v : SMap Word) : (d.putRegs v).regs = v := rfl
@[simp] theorem Dev.putRegs_fm (v : SMap Word) : (d.putRegs v).fm = d.fm := rfl
@[simp] theorem Dev.putRegs_twinId (v : SMap Word) : (d.putRegs v).twinId = d.twinId := rfl
@[simp] theorem Dev.putRegs_mem (v : SMap Word) : (d.putRegs v).mem = d.mem := rfl
@[simp] theorem Dev.putRegs_ecc (v : SMap Word) : (d.putRegs v).ecc = d.ecc := rfl
@[simp] theorem Dev.putRegs_shadow (v : SMap Word) : (d.putRegs v).shadow = d.shadow := rfl
@[simp] theorem Dev.putRegs_scrubPos (v : SMap Word) : (d.putRegs v).scrubPos = d.scrubPos := rfl
@[simp] theorem Dev.putRegs_outbox (v : SMap Word) : (d.putRegs v).outbox = d.outbox := rfl
@[simp] theorem Dev.putRegs_busResp (v : SMap Word) : (d.putRegs v).busResp = d.busResp := rfl
@[simp] theorem Dev.putRegs_freeCtr (v : SMap Word) : (d.putRegs v).freeCtr = d.freeCtr := rfl
@[simp] theorem Dev.putRegs_tb (v : SMap Word) : (d.putRegs v).tb = d.tb := rfl
@[simp] theorem Dev.putRegs_pwr (v : SMap Word) : (d.putRegs v).pwr = d.pwr := rfl
@[simp] theorem Dev.putRegs_amb (v : SMap Word) : (d.putRegs v).amb = d.amb := rfl
@[simp] theorem Dev.putRegs_fc (v : SMap Word) : (d.putRegs v).fc = d.fc := rfl
@[simp] theorem Dev.putRegs_pdrvLow (v : SMap Word) : (d.putRegs v).pdrvLow = d.pdrvLow := rfl
@[simp] theorem Dev.putRegs_grdyBad (v : SMap Word) : (d.putRegs v).grdyBad = d.grdyBad := rfl
@[simp] theorem Dev.putRegs_gates (v : SMap Word) : (d.putRegs v).gates = d.gates := rfl
@[simp] theorem Dev.putRegs_rearmP (v : SMap Word) : (d.putRegs v).rearmP = d.rearmP := rfl
@[simp] theorem Dev.putRegs_atm (v : SMap Word) : (d.putRegs v).atm = d.atm := rfl
@[simp] theorem Dev.putRegs_lanes (v : SMap Word) : (d.putRegs v).lanes = d.lanes := rfl
@[simp] theorem Dev.putRegs_ports (v : SMap Word) : (d.putRegs v).ports = d.ports := rfl
@[simp] theorem Dev.putRegs_cells (v : SMap Word) : (d.putRegs v).cells = d.cells := rfl
@[simp] theorem Dev.putRegs_safe (v : SMap Word) : (d.putRegs v).safe = d.safe := rfl
@[simp] theorem Dev.putRegs_clk (v : SMap Word) : (d.putRegs v).clk = d.clk := rfl
@[simp] theorem Dev.putRegs_servos (v : SMap Word) : (d.putRegs v).servos = d.servos := rfl
@[simp] theorem Dev.putRegs_tsrv (v : SMap Word) : (d.putRegs v).tsrv = d.tsrv := rfl
@[simp] theorem Dev.putRegs_boot (v : SMap Word) : (d.putRegs v).boot = d.boot := rfl
@[simp] theorem Dev.putRegs_twin (v : SMap Word) : (d.putRegs v).twin = d.twin := rfl
@[simp] theorem Dev.putRegs_net (v : SMap Word) : (d.putRegs v).net = d.net := rfl
@[simp] theorem Dev.putRegs_engs (v : SMap Word) : (d.putRegs v).engs = d.engs := rfl
@[simp] theorem Dev.putRegs_xq (v : SMap Word) : (d.putRegs v).xq = d.xq := rfl
@[simp] theorem Dev.putRegs_outQ (v : SMap Word) : (d.putRegs v).outQ = d.outQ := rfl
@[simp] theorem Dev.putRegs_sorts (v : SMap Word) : (d.putRegs v).sorts = d.sorts := rfl
@[simp] theorem Dev.putRegs_sils (v : SMap Word) : (d.putRegs v).sils = d.sils := rfl
@[simp] theorem Dev.putRegs_img (v : SMap Word) : (d.putRegs v).img = d.img := rfl
@[simp] theorem Dev.putRegs_fused (v : SMap Word) : (d.putRegs v).fused = d.fused := rfl
@[simp] theorem Dev.putRegs_fmCal (v : SMap Word) : (d.putRegs v).fmCal = d.fmCal := rfl
@[simp] theorem Dev.putRegs_adcs (v : SMap Word) : (d.putRegs v).adcs = d.adcs := rfl
@[simp] theorem Dev.putRegs_cmp (v : SMap Word) : (d.putRegs v).cmp = d.cmp := rfl
@[simp] theorem Dev.putRegs_tmon (v : SMap Word) : (d.putRegs v).tmon = d.tmon := rfl
@[simp] theorem Dev.putRegs_met (v : SMap Word) : (d.putRegs v).met = d.met := rfl
@[simp] theorem Dev.putRegs_sup (v : SMap Word) : (d.putRegs v).sup = d.sup := rfl
@[simp] theorem Dev.putRegs_per (v : SMap Word) : (d.putRegs v).per = d.per := rfl
@[simp] theorem Dev.putRegs_snap (v : SMap Word) : (d.putRegs v).snap = d.snap := rfl
@[simp] theorem Dev.putMem_mem (v : List Host.Cell) : (d.putMem v).mem = v := rfl
@[simp] theorem Dev.putMem_rd (v : List Host.Cell) (r : Nat) : (d.putMem v).rd r = d.rd r := rfl
@[simp] theorem Dev.putMem_fld (v : List Host.Cell) (r lo w : Nat) : (d.putMem v).fld r lo w = d.fld r lo w := rfl
@[simp] theorem Dev.putMem_bit (v : List Host.Cell) (r j : Nat) : (d.putMem v).bit r j = d.bit r j := rfl
@[simp] theorem Dev.putMem_fm (v : List Host.Cell) : (d.putMem v).fm = d.fm := rfl
@[simp] theorem Dev.putMem_twinId (v : List Host.Cell) : (d.putMem v).twinId = d.twinId := rfl
@[simp] theorem Dev.putMem_regs (v : List Host.Cell) : (d.putMem v).regs = d.regs := rfl
@[simp] theorem Dev.putMem_ecc (v : List Host.Cell) : (d.putMem v).ecc = d.ecc := rfl
@[simp] theorem Dev.putMem_shadow (v : List Host.Cell) : (d.putMem v).shadow = d.shadow := rfl
@[simp] theorem Dev.putMem_scrubPos (v : List Host.Cell) : (d.putMem v).scrubPos = d.scrubPos := rfl
@[simp] theorem Dev.putMem_outbox (v : List Host.Cell) : (d.putMem v).outbox = d.outbox := rfl
@[simp] theorem Dev.putMem_busResp (v : List Host.Cell) : (d.putMem v).busResp = d.busResp := rfl
@[simp] theorem Dev.putMem_freeCtr (v : List Host.Cell) : (d.putMem v).freeCtr = d.freeCtr := rfl
@[simp] theorem Dev.putMem_tb (v : List Host.Cell) : (d.putMem v).tb = d.tb := rfl
@[simp] theorem Dev.putMem_pwr (v : List Host.Cell) : (d.putMem v).pwr = d.pwr := rfl
@[simp] theorem Dev.putMem_amb (v : List Host.Cell) : (d.putMem v).amb = d.amb := rfl
@[simp] theorem Dev.putMem_fc (v : List Host.Cell) : (d.putMem v).fc = d.fc := rfl
@[simp] theorem Dev.putMem_pdrvLow (v : List Host.Cell) : (d.putMem v).pdrvLow = d.pdrvLow := rfl
@[simp] theorem Dev.putMem_grdyBad (v : List Host.Cell) : (d.putMem v).grdyBad = d.grdyBad := rfl
@[simp] theorem Dev.putMem_gates (v : List Host.Cell) : (d.putMem v).gates = d.gates := rfl
@[simp] theorem Dev.putMem_rearmP (v : List Host.Cell) : (d.putMem v).rearmP = d.rearmP := rfl
@[simp] theorem Dev.putMem_atm (v : List Host.Cell) : (d.putMem v).atm = d.atm := rfl
@[simp] theorem Dev.putMem_lanes (v : List Host.Cell) : (d.putMem v).lanes = d.lanes := rfl
@[simp] theorem Dev.putMem_ports (v : List Host.Cell) : (d.putMem v).ports = d.ports := rfl
@[simp] theorem Dev.putMem_cells (v : List Host.Cell) : (d.putMem v).cells = d.cells := rfl
@[simp] theorem Dev.putMem_safe (v : List Host.Cell) : (d.putMem v).safe = d.safe := rfl
@[simp] theorem Dev.putMem_clk (v : List Host.Cell) : (d.putMem v).clk = d.clk := rfl
@[simp] theorem Dev.putMem_servos (v : List Host.Cell) : (d.putMem v).servos = d.servos := rfl
@[simp] theorem Dev.putMem_tsrv (v : List Host.Cell) : (d.putMem v).tsrv = d.tsrv := rfl
@[simp] theorem Dev.putMem_boot (v : List Host.Cell) : (d.putMem v).boot = d.boot := rfl
@[simp] theorem Dev.putMem_twin (v : List Host.Cell) : (d.putMem v).twin = d.twin := rfl
@[simp] theorem Dev.putMem_net (v : List Host.Cell) : (d.putMem v).net = d.net := rfl
@[simp] theorem Dev.putMem_engs (v : List Host.Cell) : (d.putMem v).engs = d.engs := rfl
@[simp] theorem Dev.putMem_xq (v : List Host.Cell) : (d.putMem v).xq = d.xq := rfl
@[simp] theorem Dev.putMem_outQ (v : List Host.Cell) : (d.putMem v).outQ = d.outQ := rfl
@[simp] theorem Dev.putMem_sorts (v : List Host.Cell) : (d.putMem v).sorts = d.sorts := rfl
@[simp] theorem Dev.putMem_sils (v : List Host.Cell) : (d.putMem v).sils = d.sils := rfl
@[simp] theorem Dev.putMem_img (v : List Host.Cell) : (d.putMem v).img = d.img := rfl
@[simp] theorem Dev.putMem_fused (v : List Host.Cell) : (d.putMem v).fused = d.fused := rfl
@[simp] theorem Dev.putMem_fmCal (v : List Host.Cell) : (d.putMem v).fmCal = d.fmCal := rfl
@[simp] theorem Dev.putMem_adcs (v : List Host.Cell) : (d.putMem v).adcs = d.adcs := rfl
@[simp] theorem Dev.putMem_cmp (v : List Host.Cell) : (d.putMem v).cmp = d.cmp := rfl
@[simp] theorem Dev.putMem_tmon (v : List Host.Cell) : (d.putMem v).tmon = d.tmon := rfl
@[simp] theorem Dev.putMem_met (v : List Host.Cell) : (d.putMem v).met = d.met := rfl
@[simp] theorem Dev.putMem_sup (v : List Host.Cell) : (d.putMem v).sup = d.sup := rfl
@[simp] theorem Dev.putMem_per (v : List Host.Cell) : (d.putMem v).per = d.per := rfl
@[simp] theorem Dev.putMem_snap (v : List Host.Cell) : (d.putMem v).snap = d.snap := rfl
@[simp] theorem Dev.putEcc_ecc (v : SMap Nat) : (d.putEcc v).ecc = v := rfl
@[simp] theorem Dev.putEcc_rd (v : SMap Nat) (r : Nat) : (d.putEcc v).rd r = d.rd r := rfl
@[simp] theorem Dev.putEcc_fld (v : SMap Nat) (r lo w : Nat) : (d.putEcc v).fld r lo w = d.fld r lo w := rfl
@[simp] theorem Dev.putEcc_bit (v : SMap Nat) (r j : Nat) : (d.putEcc v).bit r j = d.bit r j := rfl
@[simp] theorem Dev.putEcc_fm (v : SMap Nat) : (d.putEcc v).fm = d.fm := rfl
@[simp] theorem Dev.putEcc_twinId (v : SMap Nat) : (d.putEcc v).twinId = d.twinId := rfl
@[simp] theorem Dev.putEcc_regs (v : SMap Nat) : (d.putEcc v).regs = d.regs := rfl
@[simp] theorem Dev.putEcc_mem (v : SMap Nat) : (d.putEcc v).mem = d.mem := rfl
@[simp] theorem Dev.putEcc_shadow (v : SMap Nat) : (d.putEcc v).shadow = d.shadow := rfl
@[simp] theorem Dev.putEcc_scrubPos (v : SMap Nat) : (d.putEcc v).scrubPos = d.scrubPos := rfl
@[simp] theorem Dev.putEcc_outbox (v : SMap Nat) : (d.putEcc v).outbox = d.outbox := rfl
@[simp] theorem Dev.putEcc_busResp (v : SMap Nat) : (d.putEcc v).busResp = d.busResp := rfl
@[simp] theorem Dev.putEcc_freeCtr (v : SMap Nat) : (d.putEcc v).freeCtr = d.freeCtr := rfl
@[simp] theorem Dev.putEcc_tb (v : SMap Nat) : (d.putEcc v).tb = d.tb := rfl
@[simp] theorem Dev.putEcc_pwr (v : SMap Nat) : (d.putEcc v).pwr = d.pwr := rfl
@[simp] theorem Dev.putEcc_amb (v : SMap Nat) : (d.putEcc v).amb = d.amb := rfl
@[simp] theorem Dev.putEcc_fc (v : SMap Nat) : (d.putEcc v).fc = d.fc := rfl
@[simp] theorem Dev.putEcc_pdrvLow (v : SMap Nat) : (d.putEcc v).pdrvLow = d.pdrvLow := rfl
@[simp] theorem Dev.putEcc_grdyBad (v : SMap Nat) : (d.putEcc v).grdyBad = d.grdyBad := rfl
@[simp] theorem Dev.putEcc_gates (v : SMap Nat) : (d.putEcc v).gates = d.gates := rfl
@[simp] theorem Dev.putEcc_rearmP (v : SMap Nat) : (d.putEcc v).rearmP = d.rearmP := rfl
@[simp] theorem Dev.putEcc_atm (v : SMap Nat) : (d.putEcc v).atm = d.atm := rfl
@[simp] theorem Dev.putEcc_lanes (v : SMap Nat) : (d.putEcc v).lanes = d.lanes := rfl
@[simp] theorem Dev.putEcc_ports (v : SMap Nat) : (d.putEcc v).ports = d.ports := rfl
@[simp] theorem Dev.putEcc_cells (v : SMap Nat) : (d.putEcc v).cells = d.cells := rfl
@[simp] theorem Dev.putEcc_safe (v : SMap Nat) : (d.putEcc v).safe = d.safe := rfl
@[simp] theorem Dev.putEcc_clk (v : SMap Nat) : (d.putEcc v).clk = d.clk := rfl
@[simp] theorem Dev.putEcc_servos (v : SMap Nat) : (d.putEcc v).servos = d.servos := rfl
@[simp] theorem Dev.putEcc_tsrv (v : SMap Nat) : (d.putEcc v).tsrv = d.tsrv := rfl
@[simp] theorem Dev.putEcc_boot (v : SMap Nat) : (d.putEcc v).boot = d.boot := rfl
@[simp] theorem Dev.putEcc_twin (v : SMap Nat) : (d.putEcc v).twin = d.twin := rfl
@[simp] theorem Dev.putEcc_net (v : SMap Nat) : (d.putEcc v).net = d.net := rfl
@[simp] theorem Dev.putEcc_engs (v : SMap Nat) : (d.putEcc v).engs = d.engs := rfl
@[simp] theorem Dev.putEcc_xq (v : SMap Nat) : (d.putEcc v).xq = d.xq := rfl
@[simp] theorem Dev.putEcc_outQ (v : SMap Nat) : (d.putEcc v).outQ = d.outQ := rfl
@[simp] theorem Dev.putEcc_sorts (v : SMap Nat) : (d.putEcc v).sorts = d.sorts := rfl
@[simp] theorem Dev.putEcc_sils (v : SMap Nat) : (d.putEcc v).sils = d.sils := rfl
@[simp] theorem Dev.putEcc_img (v : SMap Nat) : (d.putEcc v).img = d.img := rfl
@[simp] theorem Dev.putEcc_fused (v : SMap Nat) : (d.putEcc v).fused = d.fused := rfl
@[simp] theorem Dev.putEcc_fmCal (v : SMap Nat) : (d.putEcc v).fmCal = d.fmCal := rfl
@[simp] theorem Dev.putEcc_adcs (v : SMap Nat) : (d.putEcc v).adcs = d.adcs := rfl
@[simp] theorem Dev.putEcc_cmp (v : SMap Nat) : (d.putEcc v).cmp = d.cmp := rfl
@[simp] theorem Dev.putEcc_tmon (v : SMap Nat) : (d.putEcc v).tmon = d.tmon := rfl
@[simp] theorem Dev.putEcc_met (v : SMap Nat) : (d.putEcc v).met = d.met := rfl
@[simp] theorem Dev.putEcc_sup (v : SMap Nat) : (d.putEcc v).sup = d.sup := rfl
@[simp] theorem Dev.putEcc_per (v : SMap Nat) : (d.putEcc v).per = d.per := rfl
@[simp] theorem Dev.putEcc_snap (v : SMap Nat) : (d.putEcc v).snap = d.snap := rfl
@[simp] theorem Dev.putShadow_shadow (v : SMap Nat) : (d.putShadow v).shadow = v := rfl
@[simp] theorem Dev.putShadow_rd (v : SMap Nat) (r : Nat) : (d.putShadow v).rd r = d.rd r := rfl
@[simp] theorem Dev.putShadow_fld (v : SMap Nat) (r lo w : Nat) : (d.putShadow v).fld r lo w = d.fld r lo w := rfl
@[simp] theorem Dev.putShadow_bit (v : SMap Nat) (r j : Nat) : (d.putShadow v).bit r j = d.bit r j := rfl
@[simp] theorem Dev.putShadow_fm (v : SMap Nat) : (d.putShadow v).fm = d.fm := rfl
@[simp] theorem Dev.putShadow_twinId (v : SMap Nat) : (d.putShadow v).twinId = d.twinId := rfl
@[simp] theorem Dev.putShadow_regs (v : SMap Nat) : (d.putShadow v).regs = d.regs := rfl
@[simp] theorem Dev.putShadow_mem (v : SMap Nat) : (d.putShadow v).mem = d.mem := rfl
@[simp] theorem Dev.putShadow_ecc (v : SMap Nat) : (d.putShadow v).ecc = d.ecc := rfl
@[simp] theorem Dev.putShadow_scrubPos (v : SMap Nat) : (d.putShadow v).scrubPos = d.scrubPos := rfl
@[simp] theorem Dev.putShadow_outbox (v : SMap Nat) : (d.putShadow v).outbox = d.outbox := rfl
@[simp] theorem Dev.putShadow_busResp (v : SMap Nat) : (d.putShadow v).busResp = d.busResp := rfl
@[simp] theorem Dev.putShadow_freeCtr (v : SMap Nat) : (d.putShadow v).freeCtr = d.freeCtr := rfl
@[simp] theorem Dev.putShadow_tb (v : SMap Nat) : (d.putShadow v).tb = d.tb := rfl
@[simp] theorem Dev.putShadow_pwr (v : SMap Nat) : (d.putShadow v).pwr = d.pwr := rfl
@[simp] theorem Dev.putShadow_amb (v : SMap Nat) : (d.putShadow v).amb = d.amb := rfl
@[simp] theorem Dev.putShadow_fc (v : SMap Nat) : (d.putShadow v).fc = d.fc := rfl
@[simp] theorem Dev.putShadow_pdrvLow (v : SMap Nat) : (d.putShadow v).pdrvLow = d.pdrvLow := rfl
@[simp] theorem Dev.putShadow_grdyBad (v : SMap Nat) : (d.putShadow v).grdyBad = d.grdyBad := rfl
@[simp] theorem Dev.putShadow_gates (v : SMap Nat) : (d.putShadow v).gates = d.gates := rfl
@[simp] theorem Dev.putShadow_rearmP (v : SMap Nat) : (d.putShadow v).rearmP = d.rearmP := rfl
@[simp] theorem Dev.putShadow_atm (v : SMap Nat) : (d.putShadow v).atm = d.atm := rfl
@[simp] theorem Dev.putShadow_lanes (v : SMap Nat) : (d.putShadow v).lanes = d.lanes := rfl
@[simp] theorem Dev.putShadow_ports (v : SMap Nat) : (d.putShadow v).ports = d.ports := rfl
@[simp] theorem Dev.putShadow_cells (v : SMap Nat) : (d.putShadow v).cells = d.cells := rfl
@[simp] theorem Dev.putShadow_safe (v : SMap Nat) : (d.putShadow v).safe = d.safe := rfl
@[simp] theorem Dev.putShadow_clk (v : SMap Nat) : (d.putShadow v).clk = d.clk := rfl
@[simp] theorem Dev.putShadow_servos (v : SMap Nat) : (d.putShadow v).servos = d.servos := rfl
@[simp] theorem Dev.putShadow_tsrv (v : SMap Nat) : (d.putShadow v).tsrv = d.tsrv := rfl
@[simp] theorem Dev.putShadow_boot (v : SMap Nat) : (d.putShadow v).boot = d.boot := rfl
@[simp] theorem Dev.putShadow_twin (v : SMap Nat) : (d.putShadow v).twin = d.twin := rfl
@[simp] theorem Dev.putShadow_net (v : SMap Nat) : (d.putShadow v).net = d.net := rfl
@[simp] theorem Dev.putShadow_engs (v : SMap Nat) : (d.putShadow v).engs = d.engs := rfl
@[simp] theorem Dev.putShadow_xq (v : SMap Nat) : (d.putShadow v).xq = d.xq := rfl
@[simp] theorem Dev.putShadow_outQ (v : SMap Nat) : (d.putShadow v).outQ = d.outQ := rfl
@[simp] theorem Dev.putShadow_sorts (v : SMap Nat) : (d.putShadow v).sorts = d.sorts := rfl
@[simp] theorem Dev.putShadow_sils (v : SMap Nat) : (d.putShadow v).sils = d.sils := rfl
@[simp] theorem Dev.putShadow_img (v : SMap Nat) : (d.putShadow v).img = d.img := rfl
@[simp] theorem Dev.putShadow_fused (v : SMap Nat) : (d.putShadow v).fused = d.fused := rfl
@[simp] theorem Dev.putShadow_fmCal (v : SMap Nat) : (d.putShadow v).fmCal = d.fmCal := rfl
@[simp] theorem Dev.putShadow_adcs (v : SMap Nat) : (d.putShadow v).adcs = d.adcs := rfl
@[simp] theorem Dev.putShadow_cmp (v : SMap Nat) : (d.putShadow v).cmp = d.cmp := rfl
@[simp] theorem Dev.putShadow_tmon (v : SMap Nat) : (d.putShadow v).tmon = d.tmon := rfl
@[simp] theorem Dev.putShadow_met (v : SMap Nat) : (d.putShadow v).met = d.met := rfl
@[simp] theorem Dev.putShadow_sup (v : SMap Nat) : (d.putShadow v).sup = d.sup := rfl
@[simp] theorem Dev.putShadow_per (v : SMap Nat) : (d.putShadow v).per = d.per := rfl
@[simp] theorem Dev.putShadow_snap (v : SMap Nat) : (d.putShadow v).snap = d.snap := rfl
@[simp] theorem Dev.putScrubPos_scrubPos (v : SMap Nat) : (d.putScrubPos v).scrubPos = v := rfl
@[simp] theorem Dev.putScrubPos_rd (v : SMap Nat) (r : Nat) : (d.putScrubPos v).rd r = d.rd r := rfl
@[simp] theorem Dev.putScrubPos_fld (v : SMap Nat) (r lo w : Nat) : (d.putScrubPos v).fld r lo w = d.fld r lo w := rfl
@[simp] theorem Dev.putScrubPos_bit (v : SMap Nat) (r j : Nat) : (d.putScrubPos v).bit r j = d.bit r j := rfl
@[simp] theorem Dev.putScrubPos_fm (v : SMap Nat) : (d.putScrubPos v).fm = d.fm := rfl
@[simp] theorem Dev.putScrubPos_twinId (v : SMap Nat) : (d.putScrubPos v).twinId = d.twinId := rfl
@[simp] theorem Dev.putScrubPos_regs (v : SMap Nat) : (d.putScrubPos v).regs = d.regs := rfl
@[simp] theorem Dev.putScrubPos_mem (v : SMap Nat) : (d.putScrubPos v).mem = d.mem := rfl
@[simp] theorem Dev.putScrubPos_ecc (v : SMap Nat) : (d.putScrubPos v).ecc = d.ecc := rfl
@[simp] theorem Dev.putScrubPos_shadow (v : SMap Nat) : (d.putScrubPos v).shadow = d.shadow := rfl
@[simp] theorem Dev.putScrubPos_outbox (v : SMap Nat) : (d.putScrubPos v).outbox = d.outbox := rfl
@[simp] theorem Dev.putScrubPos_busResp (v : SMap Nat) : (d.putScrubPos v).busResp = d.busResp := rfl
@[simp] theorem Dev.putScrubPos_freeCtr (v : SMap Nat) : (d.putScrubPos v).freeCtr = d.freeCtr := rfl
@[simp] theorem Dev.putScrubPos_tb (v : SMap Nat) : (d.putScrubPos v).tb = d.tb := rfl
@[simp] theorem Dev.putScrubPos_pwr (v : SMap Nat) : (d.putScrubPos v).pwr = d.pwr := rfl
@[simp] theorem Dev.putScrubPos_amb (v : SMap Nat) : (d.putScrubPos v).amb = d.amb := rfl
@[simp] theorem Dev.putScrubPos_fc (v : SMap Nat) : (d.putScrubPos v).fc = d.fc := rfl
@[simp] theorem Dev.putScrubPos_pdrvLow (v : SMap Nat) : (d.putScrubPos v).pdrvLow = d.pdrvLow := rfl
@[simp] theorem Dev.putScrubPos_grdyBad (v : SMap Nat) : (d.putScrubPos v).grdyBad = d.grdyBad := rfl
@[simp] theorem Dev.putScrubPos_gates (v : SMap Nat) : (d.putScrubPos v).gates = d.gates := rfl
@[simp] theorem Dev.putScrubPos_rearmP (v : SMap Nat) : (d.putScrubPos v).rearmP = d.rearmP := rfl
@[simp] theorem Dev.putScrubPos_atm (v : SMap Nat) : (d.putScrubPos v).atm = d.atm := rfl
@[simp] theorem Dev.putScrubPos_lanes (v : SMap Nat) : (d.putScrubPos v).lanes = d.lanes := rfl
@[simp] theorem Dev.putScrubPos_ports (v : SMap Nat) : (d.putScrubPos v).ports = d.ports := rfl
@[simp] theorem Dev.putScrubPos_cells (v : SMap Nat) : (d.putScrubPos v).cells = d.cells := rfl
@[simp] theorem Dev.putScrubPos_safe (v : SMap Nat) : (d.putScrubPos v).safe = d.safe := rfl
@[simp] theorem Dev.putScrubPos_clk (v : SMap Nat) : (d.putScrubPos v).clk = d.clk := rfl
@[simp] theorem Dev.putScrubPos_servos (v : SMap Nat) : (d.putScrubPos v).servos = d.servos := rfl
@[simp] theorem Dev.putScrubPos_tsrv (v : SMap Nat) : (d.putScrubPos v).tsrv = d.tsrv := rfl
@[simp] theorem Dev.putScrubPos_boot (v : SMap Nat) : (d.putScrubPos v).boot = d.boot := rfl
@[simp] theorem Dev.putScrubPos_twin (v : SMap Nat) : (d.putScrubPos v).twin = d.twin := rfl
@[simp] theorem Dev.putScrubPos_net (v : SMap Nat) : (d.putScrubPos v).net = d.net := rfl
@[simp] theorem Dev.putScrubPos_engs (v : SMap Nat) : (d.putScrubPos v).engs = d.engs := rfl
@[simp] theorem Dev.putScrubPos_xq (v : SMap Nat) : (d.putScrubPos v).xq = d.xq := rfl
@[simp] theorem Dev.putScrubPos_outQ (v : SMap Nat) : (d.putScrubPos v).outQ = d.outQ := rfl
@[simp] theorem Dev.putScrubPos_sorts (v : SMap Nat) : (d.putScrubPos v).sorts = d.sorts := rfl
@[simp] theorem Dev.putScrubPos_sils (v : SMap Nat) : (d.putScrubPos v).sils = d.sils := rfl
@[simp] theorem Dev.putScrubPos_img (v : SMap Nat) : (d.putScrubPos v).img = d.img := rfl
@[simp] theorem Dev.putScrubPos_fused (v : SMap Nat) : (d.putScrubPos v).fused = d.fused := rfl
@[simp] theorem Dev.putScrubPos_fmCal (v : SMap Nat) : (d.putScrubPos v).fmCal = d.fmCal := rfl
@[simp] theorem Dev.putScrubPos_adcs (v : SMap Nat) : (d.putScrubPos v).adcs = d.adcs := rfl
@[simp] theorem Dev.putScrubPos_cmp (v : SMap Nat) : (d.putScrubPos v).cmp = d.cmp := rfl
@[simp] theorem Dev.putScrubPos_tmon (v : SMap Nat) : (d.putScrubPos v).tmon = d.tmon := rfl
@[simp] theorem Dev.putScrubPos_met (v : SMap Nat) : (d.putScrubPos v).met = d.met := rfl
@[simp] theorem Dev.putScrubPos_sup (v : SMap Nat) : (d.putScrubPos v).sup = d.sup := rfl
@[simp] theorem Dev.putScrubPos_per (v : SMap Nat) : (d.putScrubPos v).per = d.per := rfl
@[simp] theorem Dev.putScrubPos_snap (v : SMap Nat) : (d.putScrubPos v).snap = d.snap := rfl
@[simp] theorem Dev.putOutbox_outbox (v : List Out) : (d.putOutbox v).outbox = v := rfl
@[simp] theorem Dev.putOutbox_rd (v : List Out) (r : Nat) : (d.putOutbox v).rd r = d.rd r := rfl
@[simp] theorem Dev.putOutbox_fld (v : List Out) (r lo w : Nat) : (d.putOutbox v).fld r lo w = d.fld r lo w := rfl
@[simp] theorem Dev.putOutbox_bit (v : List Out) (r j : Nat) : (d.putOutbox v).bit r j = d.bit r j := rfl
@[simp] theorem Dev.putOutbox_fm (v : List Out) : (d.putOutbox v).fm = d.fm := rfl
@[simp] theorem Dev.putOutbox_twinId (v : List Out) : (d.putOutbox v).twinId = d.twinId := rfl
@[simp] theorem Dev.putOutbox_regs (v : List Out) : (d.putOutbox v).regs = d.regs := rfl
@[simp] theorem Dev.putOutbox_mem (v : List Out) : (d.putOutbox v).mem = d.mem := rfl
@[simp] theorem Dev.putOutbox_ecc (v : List Out) : (d.putOutbox v).ecc = d.ecc := rfl
@[simp] theorem Dev.putOutbox_shadow (v : List Out) : (d.putOutbox v).shadow = d.shadow := rfl
@[simp] theorem Dev.putOutbox_scrubPos (v : List Out) : (d.putOutbox v).scrubPos = d.scrubPos := rfl
@[simp] theorem Dev.putOutbox_busResp (v : List Out) : (d.putOutbox v).busResp = d.busResp := rfl
@[simp] theorem Dev.putOutbox_freeCtr (v : List Out) : (d.putOutbox v).freeCtr = d.freeCtr := rfl
@[simp] theorem Dev.putOutbox_tb (v : List Out) : (d.putOutbox v).tb = d.tb := rfl
@[simp] theorem Dev.putOutbox_pwr (v : List Out) : (d.putOutbox v).pwr = d.pwr := rfl
@[simp] theorem Dev.putOutbox_amb (v : List Out) : (d.putOutbox v).amb = d.amb := rfl
@[simp] theorem Dev.putOutbox_fc (v : List Out) : (d.putOutbox v).fc = d.fc := rfl
@[simp] theorem Dev.putOutbox_pdrvLow (v : List Out) : (d.putOutbox v).pdrvLow = d.pdrvLow := rfl
@[simp] theorem Dev.putOutbox_grdyBad (v : List Out) : (d.putOutbox v).grdyBad = d.grdyBad := rfl
@[simp] theorem Dev.putOutbox_gates (v : List Out) : (d.putOutbox v).gates = d.gates := rfl
@[simp] theorem Dev.putOutbox_rearmP (v : List Out) : (d.putOutbox v).rearmP = d.rearmP := rfl
@[simp] theorem Dev.putOutbox_atm (v : List Out) : (d.putOutbox v).atm = d.atm := rfl
@[simp] theorem Dev.putOutbox_lanes (v : List Out) : (d.putOutbox v).lanes = d.lanes := rfl
@[simp] theorem Dev.putOutbox_ports (v : List Out) : (d.putOutbox v).ports = d.ports := rfl
@[simp] theorem Dev.putOutbox_cells (v : List Out) : (d.putOutbox v).cells = d.cells := rfl
@[simp] theorem Dev.putOutbox_safe (v : List Out) : (d.putOutbox v).safe = d.safe := rfl
@[simp] theorem Dev.putOutbox_clk (v : List Out) : (d.putOutbox v).clk = d.clk := rfl
@[simp] theorem Dev.putOutbox_servos (v : List Out) : (d.putOutbox v).servos = d.servos := rfl
@[simp] theorem Dev.putOutbox_tsrv (v : List Out) : (d.putOutbox v).tsrv = d.tsrv := rfl
@[simp] theorem Dev.putOutbox_boot (v : List Out) : (d.putOutbox v).boot = d.boot := rfl
@[simp] theorem Dev.putOutbox_twin (v : List Out) : (d.putOutbox v).twin = d.twin := rfl
@[simp] theorem Dev.putOutbox_net (v : List Out) : (d.putOutbox v).net = d.net := rfl
@[simp] theorem Dev.putOutbox_engs (v : List Out) : (d.putOutbox v).engs = d.engs := rfl
@[simp] theorem Dev.putOutbox_xq (v : List Out) : (d.putOutbox v).xq = d.xq := rfl
@[simp] theorem Dev.putOutbox_outQ (v : List Out) : (d.putOutbox v).outQ = d.outQ := rfl
@[simp] theorem Dev.putOutbox_sorts (v : List Out) : (d.putOutbox v).sorts = d.sorts := rfl
@[simp] theorem Dev.putOutbox_sils (v : List Out) : (d.putOutbox v).sils = d.sils := rfl
@[simp] theorem Dev.putOutbox_img (v : List Out) : (d.putOutbox v).img = d.img := rfl
@[simp] theorem Dev.putOutbox_fused (v : List Out) : (d.putOutbox v).fused = d.fused := rfl
@[simp] theorem Dev.putOutbox_fmCal (v : List Out) : (d.putOutbox v).fmCal = d.fmCal := rfl
@[simp] theorem Dev.putOutbox_adcs (v : List Out) : (d.putOutbox v).adcs = d.adcs := rfl
@[simp] theorem Dev.putOutbox_cmp (v : List Out) : (d.putOutbox v).cmp = d.cmp := rfl
@[simp] theorem Dev.putOutbox_tmon (v : List Out) : (d.putOutbox v).tmon = d.tmon := rfl
@[simp] theorem Dev.putOutbox_met (v : List Out) : (d.putOutbox v).met = d.met := rfl
@[simp] theorem Dev.putOutbox_sup (v : List Out) : (d.putOutbox v).sup = d.sup := rfl
@[simp] theorem Dev.putOutbox_per (v : List Out) : (d.putOutbox v).per = d.per := rfl
@[simp] theorem Dev.putOutbox_snap (v : List Out) : (d.putOutbox v).snap = d.snap := rfl
@[simp] theorem Dev.putBusResp_busResp (v : BusResp) : (d.putBusResp v).busResp = v := rfl
@[simp] theorem Dev.putBusResp_rd (v : BusResp) (r : Nat) : (d.putBusResp v).rd r = d.rd r := rfl
@[simp] theorem Dev.putBusResp_fld (v : BusResp) (r lo w : Nat) : (d.putBusResp v).fld r lo w = d.fld r lo w := rfl
@[simp] theorem Dev.putBusResp_bit (v : BusResp) (r j : Nat) : (d.putBusResp v).bit r j = d.bit r j := rfl
@[simp] theorem Dev.putBusResp_fm (v : BusResp) : (d.putBusResp v).fm = d.fm := rfl
@[simp] theorem Dev.putBusResp_twinId (v : BusResp) : (d.putBusResp v).twinId = d.twinId := rfl
@[simp] theorem Dev.putBusResp_regs (v : BusResp) : (d.putBusResp v).regs = d.regs := rfl
@[simp] theorem Dev.putBusResp_mem (v : BusResp) : (d.putBusResp v).mem = d.mem := rfl
@[simp] theorem Dev.putBusResp_ecc (v : BusResp) : (d.putBusResp v).ecc = d.ecc := rfl
@[simp] theorem Dev.putBusResp_shadow (v : BusResp) : (d.putBusResp v).shadow = d.shadow := rfl
@[simp] theorem Dev.putBusResp_scrubPos (v : BusResp) : (d.putBusResp v).scrubPos = d.scrubPos := rfl
@[simp] theorem Dev.putBusResp_outbox (v : BusResp) : (d.putBusResp v).outbox = d.outbox := rfl
@[simp] theorem Dev.putBusResp_freeCtr (v : BusResp) : (d.putBusResp v).freeCtr = d.freeCtr := rfl
@[simp] theorem Dev.putBusResp_tb (v : BusResp) : (d.putBusResp v).tb = d.tb := rfl
@[simp] theorem Dev.putBusResp_pwr (v : BusResp) : (d.putBusResp v).pwr = d.pwr := rfl
@[simp] theorem Dev.putBusResp_amb (v : BusResp) : (d.putBusResp v).amb = d.amb := rfl
@[simp] theorem Dev.putBusResp_fc (v : BusResp) : (d.putBusResp v).fc = d.fc := rfl
@[simp] theorem Dev.putBusResp_pdrvLow (v : BusResp) : (d.putBusResp v).pdrvLow = d.pdrvLow := rfl
@[simp] theorem Dev.putBusResp_grdyBad (v : BusResp) : (d.putBusResp v).grdyBad = d.grdyBad := rfl
@[simp] theorem Dev.putBusResp_gates (v : BusResp) : (d.putBusResp v).gates = d.gates := rfl
@[simp] theorem Dev.putBusResp_rearmP (v : BusResp) : (d.putBusResp v).rearmP = d.rearmP := rfl
@[simp] theorem Dev.putBusResp_atm (v : BusResp) : (d.putBusResp v).atm = d.atm := rfl
@[simp] theorem Dev.putBusResp_lanes (v : BusResp) : (d.putBusResp v).lanes = d.lanes := rfl
@[simp] theorem Dev.putBusResp_ports (v : BusResp) : (d.putBusResp v).ports = d.ports := rfl
@[simp] theorem Dev.putBusResp_cells (v : BusResp) : (d.putBusResp v).cells = d.cells := rfl
@[simp] theorem Dev.putBusResp_safe (v : BusResp) : (d.putBusResp v).safe = d.safe := rfl
@[simp] theorem Dev.putBusResp_clk (v : BusResp) : (d.putBusResp v).clk = d.clk := rfl
@[simp] theorem Dev.putBusResp_servos (v : BusResp) : (d.putBusResp v).servos = d.servos := rfl
@[simp] theorem Dev.putBusResp_tsrv (v : BusResp) : (d.putBusResp v).tsrv = d.tsrv := rfl
@[simp] theorem Dev.putBusResp_boot (v : BusResp) : (d.putBusResp v).boot = d.boot := rfl
@[simp] theorem Dev.putBusResp_twin (v : BusResp) : (d.putBusResp v).twin = d.twin := rfl
@[simp] theorem Dev.putBusResp_net (v : BusResp) : (d.putBusResp v).net = d.net := rfl
@[simp] theorem Dev.putBusResp_engs (v : BusResp) : (d.putBusResp v).engs = d.engs := rfl
@[simp] theorem Dev.putBusResp_xq (v : BusResp) : (d.putBusResp v).xq = d.xq := rfl
@[simp] theorem Dev.putBusResp_outQ (v : BusResp) : (d.putBusResp v).outQ = d.outQ := rfl
@[simp] theorem Dev.putBusResp_sorts (v : BusResp) : (d.putBusResp v).sorts = d.sorts := rfl
@[simp] theorem Dev.putBusResp_sils (v : BusResp) : (d.putBusResp v).sils = d.sils := rfl
@[simp] theorem Dev.putBusResp_img (v : BusResp) : (d.putBusResp v).img = d.img := rfl
@[simp] theorem Dev.putBusResp_fused (v : BusResp) : (d.putBusResp v).fused = d.fused := rfl
@[simp] theorem Dev.putBusResp_fmCal (v : BusResp) : (d.putBusResp v).fmCal = d.fmCal := rfl
@[simp] theorem Dev.putBusResp_adcs (v : BusResp) : (d.putBusResp v).adcs = d.adcs := rfl
@[simp] theorem Dev.putBusResp_cmp (v : BusResp) : (d.putBusResp v).cmp = d.cmp := rfl
@[simp] theorem Dev.putBusResp_tmon (v : BusResp) : (d.putBusResp v).tmon = d.tmon := rfl
@[simp] theorem Dev.putBusResp_met (v : BusResp) : (d.putBusResp v).met = d.met := rfl
@[simp] theorem Dev.putBusResp_sup (v : BusResp) : (d.putBusResp v).sup = d.sup := rfl
@[simp] theorem Dev.putBusResp_per (v : BusResp) : (d.putBusResp v).per = d.per := rfl
@[simp] theorem Dev.putBusResp_snap (v : BusResp) : (d.putBusResp v).snap = d.snap := rfl
@[simp] theorem Dev.putFreeCtr_freeCtr (v : Nat) : (d.putFreeCtr v).freeCtr = v := rfl
@[simp] theorem Dev.putFreeCtr_rd (v : Nat) (r : Nat) : (d.putFreeCtr v).rd r = d.rd r := rfl
@[simp] theorem Dev.putFreeCtr_fld (v : Nat) (r lo w : Nat) : (d.putFreeCtr v).fld r lo w = d.fld r lo w := rfl
@[simp] theorem Dev.putFreeCtr_bit (v : Nat) (r j : Nat) : (d.putFreeCtr v).bit r j = d.bit r j := rfl
@[simp] theorem Dev.putFreeCtr_fm (v : Nat) : (d.putFreeCtr v).fm = d.fm := rfl
@[simp] theorem Dev.putFreeCtr_twinId (v : Nat) : (d.putFreeCtr v).twinId = d.twinId := rfl
@[simp] theorem Dev.putFreeCtr_regs (v : Nat) : (d.putFreeCtr v).regs = d.regs := rfl
@[simp] theorem Dev.putFreeCtr_mem (v : Nat) : (d.putFreeCtr v).mem = d.mem := rfl
@[simp] theorem Dev.putFreeCtr_ecc (v : Nat) : (d.putFreeCtr v).ecc = d.ecc := rfl
@[simp] theorem Dev.putFreeCtr_shadow (v : Nat) : (d.putFreeCtr v).shadow = d.shadow := rfl
@[simp] theorem Dev.putFreeCtr_scrubPos (v : Nat) : (d.putFreeCtr v).scrubPos = d.scrubPos := rfl
@[simp] theorem Dev.putFreeCtr_outbox (v : Nat) : (d.putFreeCtr v).outbox = d.outbox := rfl
@[simp] theorem Dev.putFreeCtr_busResp (v : Nat) : (d.putFreeCtr v).busResp = d.busResp := rfl
@[simp] theorem Dev.putFreeCtr_tb (v : Nat) : (d.putFreeCtr v).tb = d.tb := rfl
@[simp] theorem Dev.putFreeCtr_pwr (v : Nat) : (d.putFreeCtr v).pwr = d.pwr := rfl
@[simp] theorem Dev.putFreeCtr_amb (v : Nat) : (d.putFreeCtr v).amb = d.amb := rfl
@[simp] theorem Dev.putFreeCtr_fc (v : Nat) : (d.putFreeCtr v).fc = d.fc := rfl
@[simp] theorem Dev.putFreeCtr_pdrvLow (v : Nat) : (d.putFreeCtr v).pdrvLow = d.pdrvLow := rfl
@[simp] theorem Dev.putFreeCtr_grdyBad (v : Nat) : (d.putFreeCtr v).grdyBad = d.grdyBad := rfl
@[simp] theorem Dev.putFreeCtr_gates (v : Nat) : (d.putFreeCtr v).gates = d.gates := rfl
@[simp] theorem Dev.putFreeCtr_rearmP (v : Nat) : (d.putFreeCtr v).rearmP = d.rearmP := rfl
@[simp] theorem Dev.putFreeCtr_atm (v : Nat) : (d.putFreeCtr v).atm = d.atm := rfl
@[simp] theorem Dev.putFreeCtr_lanes (v : Nat) : (d.putFreeCtr v).lanes = d.lanes := rfl
@[simp] theorem Dev.putFreeCtr_ports (v : Nat) : (d.putFreeCtr v).ports = d.ports := rfl
@[simp] theorem Dev.putFreeCtr_cells (v : Nat) : (d.putFreeCtr v).cells = d.cells := rfl
@[simp] theorem Dev.putFreeCtr_safe (v : Nat) : (d.putFreeCtr v).safe = d.safe := rfl
@[simp] theorem Dev.putFreeCtr_clk (v : Nat) : (d.putFreeCtr v).clk = d.clk := rfl
@[simp] theorem Dev.putFreeCtr_servos (v : Nat) : (d.putFreeCtr v).servos = d.servos := rfl
@[simp] theorem Dev.putFreeCtr_tsrv (v : Nat) : (d.putFreeCtr v).tsrv = d.tsrv := rfl
@[simp] theorem Dev.putFreeCtr_boot (v : Nat) : (d.putFreeCtr v).boot = d.boot := rfl
@[simp] theorem Dev.putFreeCtr_twin (v : Nat) : (d.putFreeCtr v).twin = d.twin := rfl
@[simp] theorem Dev.putFreeCtr_net (v : Nat) : (d.putFreeCtr v).net = d.net := rfl
@[simp] theorem Dev.putFreeCtr_engs (v : Nat) : (d.putFreeCtr v).engs = d.engs := rfl
@[simp] theorem Dev.putFreeCtr_xq (v : Nat) : (d.putFreeCtr v).xq = d.xq := rfl
@[simp] theorem Dev.putFreeCtr_outQ (v : Nat) : (d.putFreeCtr v).outQ = d.outQ := rfl
@[simp] theorem Dev.putFreeCtr_sorts (v : Nat) : (d.putFreeCtr v).sorts = d.sorts := rfl
@[simp] theorem Dev.putFreeCtr_sils (v : Nat) : (d.putFreeCtr v).sils = d.sils := rfl
@[simp] theorem Dev.putFreeCtr_img (v : Nat) : (d.putFreeCtr v).img = d.img := rfl
@[simp] theorem Dev.putFreeCtr_fused (v : Nat) : (d.putFreeCtr v).fused = d.fused := rfl
@[simp] theorem Dev.putFreeCtr_fmCal (v : Nat) : (d.putFreeCtr v).fmCal = d.fmCal := rfl
@[simp] theorem Dev.putFreeCtr_adcs (v : Nat) : (d.putFreeCtr v).adcs = d.adcs := rfl
@[simp] theorem Dev.putFreeCtr_cmp (v : Nat) : (d.putFreeCtr v).cmp = d.cmp := rfl
@[simp] theorem Dev.putFreeCtr_tmon (v : Nat) : (d.putFreeCtr v).tmon = d.tmon := rfl
@[simp] theorem Dev.putFreeCtr_met (v : Nat) : (d.putFreeCtr v).met = d.met := rfl
@[simp] theorem Dev.putFreeCtr_sup (v : Nat) : (d.putFreeCtr v).sup = d.sup := rfl
@[simp] theorem Dev.putFreeCtr_per (v : Nat) : (d.putFreeCtr v).per = d.per := rfl
@[simp] theorem Dev.putFreeCtr_snap (v : Nat) : (d.putFreeCtr v).snap = d.snap := rfl
@[simp] theorem Dev.putTb_tb (v : TimeBase) : (d.putTb v).tb = v := rfl
@[simp] theorem Dev.putTb_rd (v : TimeBase) (r : Nat) : (d.putTb v).rd r = d.rd r := rfl
@[simp] theorem Dev.putTb_fld (v : TimeBase) (r lo w : Nat) : (d.putTb v).fld r lo w = d.fld r lo w := rfl
@[simp] theorem Dev.putTb_bit (v : TimeBase) (r j : Nat) : (d.putTb v).bit r j = d.bit r j := rfl
@[simp] theorem Dev.putTb_fm (v : TimeBase) : (d.putTb v).fm = d.fm := rfl
@[simp] theorem Dev.putTb_twinId (v : TimeBase) : (d.putTb v).twinId = d.twinId := rfl
@[simp] theorem Dev.putTb_regs (v : TimeBase) : (d.putTb v).regs = d.regs := rfl
@[simp] theorem Dev.putTb_mem (v : TimeBase) : (d.putTb v).mem = d.mem := rfl
@[simp] theorem Dev.putTb_ecc (v : TimeBase) : (d.putTb v).ecc = d.ecc := rfl
@[simp] theorem Dev.putTb_shadow (v : TimeBase) : (d.putTb v).shadow = d.shadow := rfl
@[simp] theorem Dev.putTb_scrubPos (v : TimeBase) : (d.putTb v).scrubPos = d.scrubPos := rfl
@[simp] theorem Dev.putTb_outbox (v : TimeBase) : (d.putTb v).outbox = d.outbox := rfl
@[simp] theorem Dev.putTb_busResp (v : TimeBase) : (d.putTb v).busResp = d.busResp := rfl
@[simp] theorem Dev.putTb_freeCtr (v : TimeBase) : (d.putTb v).freeCtr = d.freeCtr := rfl
@[simp] theorem Dev.putTb_pwr (v : TimeBase) : (d.putTb v).pwr = d.pwr := rfl
@[simp] theorem Dev.putTb_amb (v : TimeBase) : (d.putTb v).amb = d.amb := rfl
@[simp] theorem Dev.putTb_fc (v : TimeBase) : (d.putTb v).fc = d.fc := rfl
@[simp] theorem Dev.putTb_pdrvLow (v : TimeBase) : (d.putTb v).pdrvLow = d.pdrvLow := rfl
@[simp] theorem Dev.putTb_grdyBad (v : TimeBase) : (d.putTb v).grdyBad = d.grdyBad := rfl
@[simp] theorem Dev.putTb_gates (v : TimeBase) : (d.putTb v).gates = d.gates := rfl
@[simp] theorem Dev.putTb_rearmP (v : TimeBase) : (d.putTb v).rearmP = d.rearmP := rfl
@[simp] theorem Dev.putTb_atm (v : TimeBase) : (d.putTb v).atm = d.atm := rfl
@[simp] theorem Dev.putTb_lanes (v : TimeBase) : (d.putTb v).lanes = d.lanes := rfl
@[simp] theorem Dev.putTb_ports (v : TimeBase) : (d.putTb v).ports = d.ports := rfl
@[simp] theorem Dev.putTb_cells (v : TimeBase) : (d.putTb v).cells = d.cells := rfl
@[simp] theorem Dev.putTb_safe (v : TimeBase) : (d.putTb v).safe = d.safe := rfl
@[simp] theorem Dev.putTb_clk (v : TimeBase) : (d.putTb v).clk = d.clk := rfl
@[simp] theorem Dev.putTb_servos (v : TimeBase) : (d.putTb v).servos = d.servos := rfl
@[simp] theorem Dev.putTb_tsrv (v : TimeBase) : (d.putTb v).tsrv = d.tsrv := rfl
@[simp] theorem Dev.putTb_boot (v : TimeBase) : (d.putTb v).boot = d.boot := rfl
@[simp] theorem Dev.putTb_twin (v : TimeBase) : (d.putTb v).twin = d.twin := rfl
@[simp] theorem Dev.putTb_net (v : TimeBase) : (d.putTb v).net = d.net := rfl
@[simp] theorem Dev.putTb_engs (v : TimeBase) : (d.putTb v).engs = d.engs := rfl
@[simp] theorem Dev.putTb_xq (v : TimeBase) : (d.putTb v).xq = d.xq := rfl
@[simp] theorem Dev.putTb_outQ (v : TimeBase) : (d.putTb v).outQ = d.outQ := rfl
@[simp] theorem Dev.putTb_sorts (v : TimeBase) : (d.putTb v).sorts = d.sorts := rfl
@[simp] theorem Dev.putTb_sils (v : TimeBase) : (d.putTb v).sils = d.sils := rfl
@[simp] theorem Dev.putTb_img (v : TimeBase) : (d.putTb v).img = d.img := rfl
@[simp] theorem Dev.putTb_fused (v : TimeBase) : (d.putTb v).fused = d.fused := rfl
@[simp] theorem Dev.putTb_fmCal (v : TimeBase) : (d.putTb v).fmCal = d.fmCal := rfl
@[simp] theorem Dev.putTb_adcs (v : TimeBase) : (d.putTb v).adcs = d.adcs := rfl
@[simp] theorem Dev.putTb_cmp (v : TimeBase) : (d.putTb v).cmp = d.cmp := rfl
@[simp] theorem Dev.putTb_tmon (v : TimeBase) : (d.putTb v).tmon = d.tmon := rfl
@[simp] theorem Dev.putTb_met (v : TimeBase) : (d.putTb v).met = d.met := rfl
@[simp] theorem Dev.putTb_sup (v : TimeBase) : (d.putTb v).sup = d.sup := rfl
@[simp] theorem Dev.putTb_per (v : TimeBase) : (d.putTb v).per = d.per := rfl
@[simp] theorem Dev.putTb_snap (v : TimeBase) : (d.putTb v).snap = d.snap := rfl
@[simp] theorem Dev.putPwr_pwr (v : Power) : (d.putPwr v).pwr = v := rfl
@[simp] theorem Dev.putPwr_rd (v : Power) (r : Nat) : (d.putPwr v).rd r = d.rd r := rfl
@[simp] theorem Dev.putPwr_fld (v : Power) (r lo w : Nat) : (d.putPwr v).fld r lo w = d.fld r lo w := rfl
@[simp] theorem Dev.putPwr_bit (v : Power) (r j : Nat) : (d.putPwr v).bit r j = d.bit r j := rfl
@[simp] theorem Dev.putPwr_fm (v : Power) : (d.putPwr v).fm = d.fm := rfl
@[simp] theorem Dev.putPwr_twinId (v : Power) : (d.putPwr v).twinId = d.twinId := rfl
@[simp] theorem Dev.putPwr_regs (v : Power) : (d.putPwr v).regs = d.regs := rfl
@[simp] theorem Dev.putPwr_mem (v : Power) : (d.putPwr v).mem = d.mem := rfl
@[simp] theorem Dev.putPwr_ecc (v : Power) : (d.putPwr v).ecc = d.ecc := rfl
@[simp] theorem Dev.putPwr_shadow (v : Power) : (d.putPwr v).shadow = d.shadow := rfl
@[simp] theorem Dev.putPwr_scrubPos (v : Power) : (d.putPwr v).scrubPos = d.scrubPos := rfl
@[simp] theorem Dev.putPwr_outbox (v : Power) : (d.putPwr v).outbox = d.outbox := rfl
@[simp] theorem Dev.putPwr_busResp (v : Power) : (d.putPwr v).busResp = d.busResp := rfl
@[simp] theorem Dev.putPwr_freeCtr (v : Power) : (d.putPwr v).freeCtr = d.freeCtr := rfl
@[simp] theorem Dev.putPwr_tb (v : Power) : (d.putPwr v).tb = d.tb := rfl
@[simp] theorem Dev.putPwr_amb (v : Power) : (d.putPwr v).amb = d.amb := rfl
@[simp] theorem Dev.putPwr_fc (v : Power) : (d.putPwr v).fc = d.fc := rfl
@[simp] theorem Dev.putPwr_pdrvLow (v : Power) : (d.putPwr v).pdrvLow = d.pdrvLow := rfl
@[simp] theorem Dev.putPwr_grdyBad (v : Power) : (d.putPwr v).grdyBad = d.grdyBad := rfl
@[simp] theorem Dev.putPwr_gates (v : Power) : (d.putPwr v).gates = d.gates := rfl
@[simp] theorem Dev.putPwr_rearmP (v : Power) : (d.putPwr v).rearmP = d.rearmP := rfl
@[simp] theorem Dev.putPwr_atm (v : Power) : (d.putPwr v).atm = d.atm := rfl
@[simp] theorem Dev.putPwr_lanes (v : Power) : (d.putPwr v).lanes = d.lanes := rfl
@[simp] theorem Dev.putPwr_ports (v : Power) : (d.putPwr v).ports = d.ports := rfl
@[simp] theorem Dev.putPwr_cells (v : Power) : (d.putPwr v).cells = d.cells := rfl
@[simp] theorem Dev.putPwr_safe (v : Power) : (d.putPwr v).safe = d.safe := rfl
@[simp] theorem Dev.putPwr_clk (v : Power) : (d.putPwr v).clk = d.clk := rfl
@[simp] theorem Dev.putPwr_servos (v : Power) : (d.putPwr v).servos = d.servos := rfl
@[simp] theorem Dev.putPwr_tsrv (v : Power) : (d.putPwr v).tsrv = d.tsrv := rfl
@[simp] theorem Dev.putPwr_boot (v : Power) : (d.putPwr v).boot = d.boot := rfl
@[simp] theorem Dev.putPwr_twin (v : Power) : (d.putPwr v).twin = d.twin := rfl
@[simp] theorem Dev.putPwr_net (v : Power) : (d.putPwr v).net = d.net := rfl
@[simp] theorem Dev.putPwr_engs (v : Power) : (d.putPwr v).engs = d.engs := rfl
@[simp] theorem Dev.putPwr_xq (v : Power) : (d.putPwr v).xq = d.xq := rfl
@[simp] theorem Dev.putPwr_outQ (v : Power) : (d.putPwr v).outQ = d.outQ := rfl
@[simp] theorem Dev.putPwr_sorts (v : Power) : (d.putPwr v).sorts = d.sorts := rfl
@[simp] theorem Dev.putPwr_sils (v : Power) : (d.putPwr v).sils = d.sils := rfl
@[simp] theorem Dev.putPwr_img (v : Power) : (d.putPwr v).img = d.img := rfl
@[simp] theorem Dev.putPwr_fused (v : Power) : (d.putPwr v).fused = d.fused := rfl
@[simp] theorem Dev.putPwr_fmCal (v : Power) : (d.putPwr v).fmCal = d.fmCal := rfl
@[simp] theorem Dev.putPwr_adcs (v : Power) : (d.putPwr v).adcs = d.adcs := rfl
@[simp] theorem Dev.putPwr_cmp (v : Power) : (d.putPwr v).cmp = d.cmp := rfl
@[simp] theorem Dev.putPwr_tmon (v : Power) : (d.putPwr v).tmon = d.tmon := rfl
@[simp] theorem Dev.putPwr_met (v : Power) : (d.putPwr v).met = d.met := rfl
@[simp] theorem Dev.putPwr_sup (v : Power) : (d.putPwr v).sup = d.sup := rfl
@[simp] theorem Dev.putPwr_per (v : Power) : (d.putPwr v).per = d.per := rfl
@[simp] theorem Dev.putPwr_snap (v : Power) : (d.putPwr v).snap = d.snap := rfl
@[simp] theorem Dev.putAmb_amb (v : Amber) : (d.putAmb v).amb = v := rfl
@[simp] theorem Dev.putAmb_rd (v : Amber) (r : Nat) : (d.putAmb v).rd r = d.rd r := rfl
@[simp] theorem Dev.putAmb_fld (v : Amber) (r lo w : Nat) : (d.putAmb v).fld r lo w = d.fld r lo w := rfl
@[simp] theorem Dev.putAmb_bit (v : Amber) (r j : Nat) : (d.putAmb v).bit r j = d.bit r j := rfl
@[simp] theorem Dev.putAmb_fm (v : Amber) : (d.putAmb v).fm = d.fm := rfl
@[simp] theorem Dev.putAmb_twinId (v : Amber) : (d.putAmb v).twinId = d.twinId := rfl
@[simp] theorem Dev.putAmb_regs (v : Amber) : (d.putAmb v).regs = d.regs := rfl
@[simp] theorem Dev.putAmb_mem (v : Amber) : (d.putAmb v).mem = d.mem := rfl
@[simp] theorem Dev.putAmb_ecc (v : Amber) : (d.putAmb v).ecc = d.ecc := rfl
@[simp] theorem Dev.putAmb_shadow (v : Amber) : (d.putAmb v).shadow = d.shadow := rfl
@[simp] theorem Dev.putAmb_scrubPos (v : Amber) : (d.putAmb v).scrubPos = d.scrubPos := rfl
@[simp] theorem Dev.putAmb_outbox (v : Amber) : (d.putAmb v).outbox = d.outbox := rfl
@[simp] theorem Dev.putAmb_busResp (v : Amber) : (d.putAmb v).busResp = d.busResp := rfl
@[simp] theorem Dev.putAmb_freeCtr (v : Amber) : (d.putAmb v).freeCtr = d.freeCtr := rfl
@[simp] theorem Dev.putAmb_tb (v : Amber) : (d.putAmb v).tb = d.tb := rfl
@[simp] theorem Dev.putAmb_pwr (v : Amber) : (d.putAmb v).pwr = d.pwr := rfl
@[simp] theorem Dev.putAmb_fc (v : Amber) : (d.putAmb v).fc = d.fc := rfl
@[simp] theorem Dev.putAmb_pdrvLow (v : Amber) : (d.putAmb v).pdrvLow = d.pdrvLow := rfl
@[simp] theorem Dev.putAmb_grdyBad (v : Amber) : (d.putAmb v).grdyBad = d.grdyBad := rfl
@[simp] theorem Dev.putAmb_gates (v : Amber) : (d.putAmb v).gates = d.gates := rfl
@[simp] theorem Dev.putAmb_rearmP (v : Amber) : (d.putAmb v).rearmP = d.rearmP := rfl
@[simp] theorem Dev.putAmb_atm (v : Amber) : (d.putAmb v).atm = d.atm := rfl
@[simp] theorem Dev.putAmb_lanes (v : Amber) : (d.putAmb v).lanes = d.lanes := rfl
@[simp] theorem Dev.putAmb_ports (v : Amber) : (d.putAmb v).ports = d.ports := rfl
@[simp] theorem Dev.putAmb_cells (v : Amber) : (d.putAmb v).cells = d.cells := rfl
@[simp] theorem Dev.putAmb_safe (v : Amber) : (d.putAmb v).safe = d.safe := rfl
@[simp] theorem Dev.putAmb_clk (v : Amber) : (d.putAmb v).clk = d.clk := rfl
@[simp] theorem Dev.putAmb_servos (v : Amber) : (d.putAmb v).servos = d.servos := rfl
@[simp] theorem Dev.putAmb_tsrv (v : Amber) : (d.putAmb v).tsrv = d.tsrv := rfl
@[simp] theorem Dev.putAmb_boot (v : Amber) : (d.putAmb v).boot = d.boot := rfl
@[simp] theorem Dev.putAmb_twin (v : Amber) : (d.putAmb v).twin = d.twin := rfl
@[simp] theorem Dev.putAmb_net (v : Amber) : (d.putAmb v).net = d.net := rfl
@[simp] theorem Dev.putAmb_engs (v : Amber) : (d.putAmb v).engs = d.engs := rfl
@[simp] theorem Dev.putAmb_xq (v : Amber) : (d.putAmb v).xq = d.xq := rfl
@[simp] theorem Dev.putAmb_outQ (v : Amber) : (d.putAmb v).outQ = d.outQ := rfl
@[simp] theorem Dev.putAmb_sorts (v : Amber) : (d.putAmb v).sorts = d.sorts := rfl
@[simp] theorem Dev.putAmb_sils (v : Amber) : (d.putAmb v).sils = d.sils := rfl
@[simp] theorem Dev.putAmb_img (v : Amber) : (d.putAmb v).img = d.img := rfl
@[simp] theorem Dev.putAmb_fused (v : Amber) : (d.putAmb v).fused = d.fused := rfl
@[simp] theorem Dev.putAmb_fmCal (v : Amber) : (d.putAmb v).fmCal = d.fmCal := rfl
@[simp] theorem Dev.putAmb_adcs (v : Amber) : (d.putAmb v).adcs = d.adcs := rfl
@[simp] theorem Dev.putAmb_cmp (v : Amber) : (d.putAmb v).cmp = d.cmp := rfl
@[simp] theorem Dev.putAmb_tmon (v : Amber) : (d.putAmb v).tmon = d.tmon := rfl
@[simp] theorem Dev.putAmb_met (v : Amber) : (d.putAmb v).met = d.met := rfl
@[simp] theorem Dev.putAmb_sup (v : Amber) : (d.putAmb v).sup = d.sup := rfl
@[simp] theorem Dev.putAmb_per (v : Amber) : (d.putAmb v).per = d.per := rfl
@[simp] theorem Dev.putAmb_snap (v : Amber) : (d.putAmb v).snap = d.snap := rfl
@[simp] theorem Dev.putFc_fc (v : FaultCol) : (d.putFc v).fc = v := rfl
@[simp] theorem Dev.putFc_rd (v : FaultCol) (r : Nat) : (d.putFc v).rd r = d.rd r := rfl
@[simp] theorem Dev.putFc_fld (v : FaultCol) (r lo w : Nat) : (d.putFc v).fld r lo w = d.fld r lo w := rfl
@[simp] theorem Dev.putFc_bit (v : FaultCol) (r j : Nat) : (d.putFc v).bit r j = d.bit r j := rfl
@[simp] theorem Dev.putFc_fm (v : FaultCol) : (d.putFc v).fm = d.fm := rfl
@[simp] theorem Dev.putFc_twinId (v : FaultCol) : (d.putFc v).twinId = d.twinId := rfl
@[simp] theorem Dev.putFc_regs (v : FaultCol) : (d.putFc v).regs = d.regs := rfl
@[simp] theorem Dev.putFc_mem (v : FaultCol) : (d.putFc v).mem = d.mem := rfl
@[simp] theorem Dev.putFc_ecc (v : FaultCol) : (d.putFc v).ecc = d.ecc := rfl
@[simp] theorem Dev.putFc_shadow (v : FaultCol) : (d.putFc v).shadow = d.shadow := rfl
@[simp] theorem Dev.putFc_scrubPos (v : FaultCol) : (d.putFc v).scrubPos = d.scrubPos := rfl
@[simp] theorem Dev.putFc_outbox (v : FaultCol) : (d.putFc v).outbox = d.outbox := rfl
@[simp] theorem Dev.putFc_busResp (v : FaultCol) : (d.putFc v).busResp = d.busResp := rfl
@[simp] theorem Dev.putFc_freeCtr (v : FaultCol) : (d.putFc v).freeCtr = d.freeCtr := rfl
@[simp] theorem Dev.putFc_tb (v : FaultCol) : (d.putFc v).tb = d.tb := rfl
@[simp] theorem Dev.putFc_pwr (v : FaultCol) : (d.putFc v).pwr = d.pwr := rfl
@[simp] theorem Dev.putFc_amb (v : FaultCol) : (d.putFc v).amb = d.amb := rfl
@[simp] theorem Dev.putFc_pdrvLow (v : FaultCol) : (d.putFc v).pdrvLow = d.pdrvLow := rfl
@[simp] theorem Dev.putFc_grdyBad (v : FaultCol) : (d.putFc v).grdyBad = d.grdyBad := rfl
@[simp] theorem Dev.putFc_gates (v : FaultCol) : (d.putFc v).gates = d.gates := rfl
@[simp] theorem Dev.putFc_rearmP (v : FaultCol) : (d.putFc v).rearmP = d.rearmP := rfl
@[simp] theorem Dev.putFc_atm (v : FaultCol) : (d.putFc v).atm = d.atm := rfl
@[simp] theorem Dev.putFc_lanes (v : FaultCol) : (d.putFc v).lanes = d.lanes := rfl
@[simp] theorem Dev.putFc_ports (v : FaultCol) : (d.putFc v).ports = d.ports := rfl
@[simp] theorem Dev.putFc_cells (v : FaultCol) : (d.putFc v).cells = d.cells := rfl
@[simp] theorem Dev.putFc_safe (v : FaultCol) : (d.putFc v).safe = d.safe := rfl
@[simp] theorem Dev.putFc_clk (v : FaultCol) : (d.putFc v).clk = d.clk := rfl
@[simp] theorem Dev.putFc_servos (v : FaultCol) : (d.putFc v).servos = d.servos := rfl
@[simp] theorem Dev.putFc_tsrv (v : FaultCol) : (d.putFc v).tsrv = d.tsrv := rfl
@[simp] theorem Dev.putFc_boot (v : FaultCol) : (d.putFc v).boot = d.boot := rfl
@[simp] theorem Dev.putFc_twin (v : FaultCol) : (d.putFc v).twin = d.twin := rfl
@[simp] theorem Dev.putFc_net (v : FaultCol) : (d.putFc v).net = d.net := rfl
@[simp] theorem Dev.putFc_engs (v : FaultCol) : (d.putFc v).engs = d.engs := rfl
@[simp] theorem Dev.putFc_xq (v : FaultCol) : (d.putFc v).xq = d.xq := rfl
@[simp] theorem Dev.putFc_outQ (v : FaultCol) : (d.putFc v).outQ = d.outQ := rfl
@[simp] theorem Dev.putFc_sorts (v : FaultCol) : (d.putFc v).sorts = d.sorts := rfl
@[simp] theorem Dev.putFc_sils (v : FaultCol) : (d.putFc v).sils = d.sils := rfl
@[simp] theorem Dev.putFc_img (v : FaultCol) : (d.putFc v).img = d.img := rfl
@[simp] theorem Dev.putFc_fused (v : FaultCol) : (d.putFc v).fused = d.fused := rfl
@[simp] theorem Dev.putFc_fmCal (v : FaultCol) : (d.putFc v).fmCal = d.fmCal := rfl
@[simp] theorem Dev.putFc_adcs (v : FaultCol) : (d.putFc v).adcs = d.adcs := rfl
@[simp] theorem Dev.putFc_cmp (v : FaultCol) : (d.putFc v).cmp = d.cmp := rfl
@[simp] theorem Dev.putFc_tmon (v : FaultCol) : (d.putFc v).tmon = d.tmon := rfl
@[simp] theorem Dev.putFc_met (v : FaultCol) : (d.putFc v).met = d.met := rfl
@[simp] theorem Dev.putFc_sup (v : FaultCol) : (d.putFc v).sup = d.sup := rfl
@[simp] theorem Dev.putFc_per (v : FaultCol) : (d.putFc v).per = d.per := rfl
@[simp] theorem Dev.putFc_snap (v : FaultCol) : (d.putFc v).snap = d.snap := rfl
@[simp] theorem Dev.putPdrvLow_pdrvLow (v : Bool) : (d.putPdrvLow v).pdrvLow = v := rfl
@[simp] theorem Dev.putPdrvLow_rd (v : Bool) (r : Nat) : (d.putPdrvLow v).rd r = d.rd r := rfl
@[simp] theorem Dev.putPdrvLow_fld (v : Bool) (r lo w : Nat) : (d.putPdrvLow v).fld r lo w = d.fld r lo w := rfl
@[simp] theorem Dev.putPdrvLow_bit (v : Bool) (r j : Nat) : (d.putPdrvLow v).bit r j = d.bit r j := rfl
@[simp] theorem Dev.putPdrvLow_fm (v : Bool) : (d.putPdrvLow v).fm = d.fm := rfl
@[simp] theorem Dev.putPdrvLow_twinId (v : Bool) : (d.putPdrvLow v).twinId = d.twinId := rfl
@[simp] theorem Dev.putPdrvLow_regs (v : Bool) : (d.putPdrvLow v).regs = d.regs := rfl
@[simp] theorem Dev.putPdrvLow_mem (v : Bool) : (d.putPdrvLow v).mem = d.mem := rfl
@[simp] theorem Dev.putPdrvLow_ecc (v : Bool) : (d.putPdrvLow v).ecc = d.ecc := rfl
@[simp] theorem Dev.putPdrvLow_shadow (v : Bool) : (d.putPdrvLow v).shadow = d.shadow := rfl
@[simp] theorem Dev.putPdrvLow_scrubPos (v : Bool) : (d.putPdrvLow v).scrubPos = d.scrubPos := rfl
@[simp] theorem Dev.putPdrvLow_outbox (v : Bool) : (d.putPdrvLow v).outbox = d.outbox := rfl
@[simp] theorem Dev.putPdrvLow_busResp (v : Bool) : (d.putPdrvLow v).busResp = d.busResp := rfl
@[simp] theorem Dev.putPdrvLow_freeCtr (v : Bool) : (d.putPdrvLow v).freeCtr = d.freeCtr := rfl
@[simp] theorem Dev.putPdrvLow_tb (v : Bool) : (d.putPdrvLow v).tb = d.tb := rfl
@[simp] theorem Dev.putPdrvLow_pwr (v : Bool) : (d.putPdrvLow v).pwr = d.pwr := rfl
@[simp] theorem Dev.putPdrvLow_amb (v : Bool) : (d.putPdrvLow v).amb = d.amb := rfl
@[simp] theorem Dev.putPdrvLow_fc (v : Bool) : (d.putPdrvLow v).fc = d.fc := rfl
@[simp] theorem Dev.putPdrvLow_grdyBad (v : Bool) : (d.putPdrvLow v).grdyBad = d.grdyBad := rfl
@[simp] theorem Dev.putPdrvLow_gates (v : Bool) : (d.putPdrvLow v).gates = d.gates := rfl
@[simp] theorem Dev.putPdrvLow_rearmP (v : Bool) : (d.putPdrvLow v).rearmP = d.rearmP := rfl
@[simp] theorem Dev.putPdrvLow_atm (v : Bool) : (d.putPdrvLow v).atm = d.atm := rfl
@[simp] theorem Dev.putPdrvLow_lanes (v : Bool) : (d.putPdrvLow v).lanes = d.lanes := rfl
@[simp] theorem Dev.putPdrvLow_ports (v : Bool) : (d.putPdrvLow v).ports = d.ports := rfl
@[simp] theorem Dev.putPdrvLow_cells (v : Bool) : (d.putPdrvLow v).cells = d.cells := rfl
@[simp] theorem Dev.putPdrvLow_safe (v : Bool) : (d.putPdrvLow v).safe = d.safe := rfl
@[simp] theorem Dev.putPdrvLow_clk (v : Bool) : (d.putPdrvLow v).clk = d.clk := rfl
@[simp] theorem Dev.putPdrvLow_servos (v : Bool) : (d.putPdrvLow v).servos = d.servos := rfl
@[simp] theorem Dev.putPdrvLow_tsrv (v : Bool) : (d.putPdrvLow v).tsrv = d.tsrv := rfl
@[simp] theorem Dev.putPdrvLow_boot (v : Bool) : (d.putPdrvLow v).boot = d.boot := rfl
@[simp] theorem Dev.putPdrvLow_twin (v : Bool) : (d.putPdrvLow v).twin = d.twin := rfl
@[simp] theorem Dev.putPdrvLow_net (v : Bool) : (d.putPdrvLow v).net = d.net := rfl
@[simp] theorem Dev.putPdrvLow_engs (v : Bool) : (d.putPdrvLow v).engs = d.engs := rfl
@[simp] theorem Dev.putPdrvLow_xq (v : Bool) : (d.putPdrvLow v).xq = d.xq := rfl
@[simp] theorem Dev.putPdrvLow_outQ (v : Bool) : (d.putPdrvLow v).outQ = d.outQ := rfl
@[simp] theorem Dev.putPdrvLow_sorts (v : Bool) : (d.putPdrvLow v).sorts = d.sorts := rfl
@[simp] theorem Dev.putPdrvLow_sils (v : Bool) : (d.putPdrvLow v).sils = d.sils := rfl
@[simp] theorem Dev.putPdrvLow_img (v : Bool) : (d.putPdrvLow v).img = d.img := rfl
@[simp] theorem Dev.putPdrvLow_fused (v : Bool) : (d.putPdrvLow v).fused = d.fused := rfl
@[simp] theorem Dev.putPdrvLow_fmCal (v : Bool) : (d.putPdrvLow v).fmCal = d.fmCal := rfl
@[simp] theorem Dev.putPdrvLow_adcs (v : Bool) : (d.putPdrvLow v).adcs = d.adcs := rfl
@[simp] theorem Dev.putPdrvLow_cmp (v : Bool) : (d.putPdrvLow v).cmp = d.cmp := rfl
@[simp] theorem Dev.putPdrvLow_tmon (v : Bool) : (d.putPdrvLow v).tmon = d.tmon := rfl
@[simp] theorem Dev.putPdrvLow_met (v : Bool) : (d.putPdrvLow v).met = d.met := rfl
@[simp] theorem Dev.putPdrvLow_sup (v : Bool) : (d.putPdrvLow v).sup = d.sup := rfl
@[simp] theorem Dev.putPdrvLow_per (v : Bool) : (d.putPdrvLow v).per = d.per := rfl
@[simp] theorem Dev.putPdrvLow_snap (v : Bool) : (d.putPdrvLow v).snap = d.snap := rfl
@[simp] theorem Dev.putGrdyBad_grdyBad (v : BitVec 16) : (d.putGrdyBad v).grdyBad = v := rfl
@[simp] theorem Dev.putGrdyBad_rd (v : BitVec 16) (r : Nat) : (d.putGrdyBad v).rd r = d.rd r := rfl
@[simp] theorem Dev.putGrdyBad_fld (v : BitVec 16) (r lo w : Nat) : (d.putGrdyBad v).fld r lo w = d.fld r lo w := rfl
@[simp] theorem Dev.putGrdyBad_bit (v : BitVec 16) (r j : Nat) : (d.putGrdyBad v).bit r j = d.bit r j := rfl
@[simp] theorem Dev.putGrdyBad_fm (v : BitVec 16) : (d.putGrdyBad v).fm = d.fm := rfl
@[simp] theorem Dev.putGrdyBad_twinId (v : BitVec 16) : (d.putGrdyBad v).twinId = d.twinId := rfl
@[simp] theorem Dev.putGrdyBad_regs (v : BitVec 16) : (d.putGrdyBad v).regs = d.regs := rfl
@[simp] theorem Dev.putGrdyBad_mem (v : BitVec 16) : (d.putGrdyBad v).mem = d.mem := rfl
@[simp] theorem Dev.putGrdyBad_ecc (v : BitVec 16) : (d.putGrdyBad v).ecc = d.ecc := rfl
@[simp] theorem Dev.putGrdyBad_shadow (v : BitVec 16) : (d.putGrdyBad v).shadow = d.shadow := rfl
@[simp] theorem Dev.putGrdyBad_scrubPos (v : BitVec 16) : (d.putGrdyBad v).scrubPos = d.scrubPos := rfl
@[simp] theorem Dev.putGrdyBad_outbox (v : BitVec 16) : (d.putGrdyBad v).outbox = d.outbox := rfl
@[simp] theorem Dev.putGrdyBad_busResp (v : BitVec 16) : (d.putGrdyBad v).busResp = d.busResp := rfl
@[simp] theorem Dev.putGrdyBad_freeCtr (v : BitVec 16) : (d.putGrdyBad v).freeCtr = d.freeCtr := rfl
@[simp] theorem Dev.putGrdyBad_tb (v : BitVec 16) : (d.putGrdyBad v).tb = d.tb := rfl
@[simp] theorem Dev.putGrdyBad_pwr (v : BitVec 16) : (d.putGrdyBad v).pwr = d.pwr := rfl
@[simp] theorem Dev.putGrdyBad_amb (v : BitVec 16) : (d.putGrdyBad v).amb = d.amb := rfl
@[simp] theorem Dev.putGrdyBad_fc (v : BitVec 16) : (d.putGrdyBad v).fc = d.fc := rfl
@[simp] theorem Dev.putGrdyBad_pdrvLow (v : BitVec 16) : (d.putGrdyBad v).pdrvLow = d.pdrvLow := rfl
@[simp] theorem Dev.putGrdyBad_gates (v : BitVec 16) : (d.putGrdyBad v).gates = d.gates := rfl
@[simp] theorem Dev.putGrdyBad_rearmP (v : BitVec 16) : (d.putGrdyBad v).rearmP = d.rearmP := rfl
@[simp] theorem Dev.putGrdyBad_atm (v : BitVec 16) : (d.putGrdyBad v).atm = d.atm := rfl
@[simp] theorem Dev.putGrdyBad_lanes (v : BitVec 16) : (d.putGrdyBad v).lanes = d.lanes := rfl
@[simp] theorem Dev.putGrdyBad_ports (v : BitVec 16) : (d.putGrdyBad v).ports = d.ports := rfl
@[simp] theorem Dev.putGrdyBad_cells (v : BitVec 16) : (d.putGrdyBad v).cells = d.cells := rfl
@[simp] theorem Dev.putGrdyBad_safe (v : BitVec 16) : (d.putGrdyBad v).safe = d.safe := rfl
@[simp] theorem Dev.putGrdyBad_clk (v : BitVec 16) : (d.putGrdyBad v).clk = d.clk := rfl
@[simp] theorem Dev.putGrdyBad_servos (v : BitVec 16) : (d.putGrdyBad v).servos = d.servos := rfl
@[simp] theorem Dev.putGrdyBad_tsrv (v : BitVec 16) : (d.putGrdyBad v).tsrv = d.tsrv := rfl
@[simp] theorem Dev.putGrdyBad_boot (v : BitVec 16) : (d.putGrdyBad v).boot = d.boot := rfl
@[simp] theorem Dev.putGrdyBad_twin (v : BitVec 16) : (d.putGrdyBad v).twin = d.twin := rfl
@[simp] theorem Dev.putGrdyBad_net (v : BitVec 16) : (d.putGrdyBad v).net = d.net := rfl
@[simp] theorem Dev.putGrdyBad_engs (v : BitVec 16) : (d.putGrdyBad v).engs = d.engs := rfl
@[simp] theorem Dev.putGrdyBad_xq (v : BitVec 16) : (d.putGrdyBad v).xq = d.xq := rfl
@[simp] theorem Dev.putGrdyBad_outQ (v : BitVec 16) : (d.putGrdyBad v).outQ = d.outQ := rfl
@[simp] theorem Dev.putGrdyBad_sorts (v : BitVec 16) : (d.putGrdyBad v).sorts = d.sorts := rfl
@[simp] theorem Dev.putGrdyBad_sils (v : BitVec 16) : (d.putGrdyBad v).sils = d.sils := rfl
@[simp] theorem Dev.putGrdyBad_img (v : BitVec 16) : (d.putGrdyBad v).img = d.img := rfl
@[simp] theorem Dev.putGrdyBad_fused (v : BitVec 16) : (d.putGrdyBad v).fused = d.fused := rfl
@[simp] theorem Dev.putGrdyBad_fmCal (v : BitVec 16) : (d.putGrdyBad v).fmCal = d.fmCal := rfl
@[simp] theorem Dev.putGrdyBad_adcs (v : BitVec 16) : (d.putGrdyBad v).adcs = d.adcs := rfl
@[simp] theorem Dev.putGrdyBad_cmp (v : BitVec 16) : (d.putGrdyBad v).cmp = d.cmp := rfl
@[simp] theorem Dev.putGrdyBad_tmon (v : BitVec 16) : (d.putGrdyBad v).tmon = d.tmon := rfl
@[simp] theorem Dev.putGrdyBad_met (v : BitVec 16) : (d.putGrdyBad v).met = d.met := rfl
@[simp] theorem Dev.putGrdyBad_sup (v : BitVec 16) : (d.putGrdyBad v).sup = d.sup := rfl
@[simp] theorem Dev.putGrdyBad_per (v : BitVec 16) : (d.putGrdyBad v).per = d.per := rfl
@[simp] theorem Dev.putGrdyBad_snap (v : BitVec 16) : (d.putGrdyBad v).snap = d.snap := rfl
@[simp] theorem Dev.putGates_gates (v : SMap Gate) : (d.putGates v).gates = v := rfl
@[simp] theorem Dev.putGates_rd (v : SMap Gate) (r : Nat) : (d.putGates v).rd r = d.rd r := rfl
@[simp] theorem Dev.putGates_fld (v : SMap Gate) (r lo w : Nat) : (d.putGates v).fld r lo w = d.fld r lo w := rfl
@[simp] theorem Dev.putGates_bit (v : SMap Gate) (r j : Nat) : (d.putGates v).bit r j = d.bit r j := rfl
@[simp] theorem Dev.putGates_fm (v : SMap Gate) : (d.putGates v).fm = d.fm := rfl
@[simp] theorem Dev.putGates_twinId (v : SMap Gate) : (d.putGates v).twinId = d.twinId := rfl
@[simp] theorem Dev.putGates_regs (v : SMap Gate) : (d.putGates v).regs = d.regs := rfl
@[simp] theorem Dev.putGates_mem (v : SMap Gate) : (d.putGates v).mem = d.mem := rfl
@[simp] theorem Dev.putGates_ecc (v : SMap Gate) : (d.putGates v).ecc = d.ecc := rfl
@[simp] theorem Dev.putGates_shadow (v : SMap Gate) : (d.putGates v).shadow = d.shadow := rfl
@[simp] theorem Dev.putGates_scrubPos (v : SMap Gate) : (d.putGates v).scrubPos = d.scrubPos := rfl
@[simp] theorem Dev.putGates_outbox (v : SMap Gate) : (d.putGates v).outbox = d.outbox := rfl
@[simp] theorem Dev.putGates_busResp (v : SMap Gate) : (d.putGates v).busResp = d.busResp := rfl
@[simp] theorem Dev.putGates_freeCtr (v : SMap Gate) : (d.putGates v).freeCtr = d.freeCtr := rfl
@[simp] theorem Dev.putGates_tb (v : SMap Gate) : (d.putGates v).tb = d.tb := rfl
@[simp] theorem Dev.putGates_pwr (v : SMap Gate) : (d.putGates v).pwr = d.pwr := rfl
@[simp] theorem Dev.putGates_amb (v : SMap Gate) : (d.putGates v).amb = d.amb := rfl
@[simp] theorem Dev.putGates_fc (v : SMap Gate) : (d.putGates v).fc = d.fc := rfl
@[simp] theorem Dev.putGates_pdrvLow (v : SMap Gate) : (d.putGates v).pdrvLow = d.pdrvLow := rfl
@[simp] theorem Dev.putGates_grdyBad (v : SMap Gate) : (d.putGates v).grdyBad = d.grdyBad := rfl
@[simp] theorem Dev.putGates_rearmP (v : SMap Gate) : (d.putGates v).rearmP = d.rearmP := rfl
@[simp] theorem Dev.putGates_atm (v : SMap Gate) : (d.putGates v).atm = d.atm := rfl
@[simp] theorem Dev.putGates_lanes (v : SMap Gate) : (d.putGates v).lanes = d.lanes := rfl
@[simp] theorem Dev.putGates_ports (v : SMap Gate) : (d.putGates v).ports = d.ports := rfl
@[simp] theorem Dev.putGates_cells (v : SMap Gate) : (d.putGates v).cells = d.cells := rfl
@[simp] theorem Dev.putGates_safe (v : SMap Gate) : (d.putGates v).safe = d.safe := rfl
@[simp] theorem Dev.putGates_clk (v : SMap Gate) : (d.putGates v).clk = d.clk := rfl
@[simp] theorem Dev.putGates_servos (v : SMap Gate) : (d.putGates v).servos = d.servos := rfl
@[simp] theorem Dev.putGates_tsrv (v : SMap Gate) : (d.putGates v).tsrv = d.tsrv := rfl
@[simp] theorem Dev.putGates_boot (v : SMap Gate) : (d.putGates v).boot = d.boot := rfl
@[simp] theorem Dev.putGates_twin (v : SMap Gate) : (d.putGates v).twin = d.twin := rfl
@[simp] theorem Dev.putGates_net (v : SMap Gate) : (d.putGates v).net = d.net := rfl
@[simp] theorem Dev.putGates_engs (v : SMap Gate) : (d.putGates v).engs = d.engs := rfl
@[simp] theorem Dev.putGates_xq (v : SMap Gate) : (d.putGates v).xq = d.xq := rfl
@[simp] theorem Dev.putGates_outQ (v : SMap Gate) : (d.putGates v).outQ = d.outQ := rfl
@[simp] theorem Dev.putGates_sorts (v : SMap Gate) : (d.putGates v).sorts = d.sorts := rfl
@[simp] theorem Dev.putGates_sils (v : SMap Gate) : (d.putGates v).sils = d.sils := rfl
@[simp] theorem Dev.putGates_img (v : SMap Gate) : (d.putGates v).img = d.img := rfl
@[simp] theorem Dev.putGates_fused (v : SMap Gate) : (d.putGates v).fused = d.fused := rfl
@[simp] theorem Dev.putGates_fmCal (v : SMap Gate) : (d.putGates v).fmCal = d.fmCal := rfl
@[simp] theorem Dev.putGates_adcs (v : SMap Gate) : (d.putGates v).adcs = d.adcs := rfl
@[simp] theorem Dev.putGates_cmp (v : SMap Gate) : (d.putGates v).cmp = d.cmp := rfl
@[simp] theorem Dev.putGates_tmon (v : SMap Gate) : (d.putGates v).tmon = d.tmon := rfl
@[simp] theorem Dev.putGates_met (v : SMap Gate) : (d.putGates v).met = d.met := rfl
@[simp] theorem Dev.putGates_sup (v : SMap Gate) : (d.putGates v).sup = d.sup := rfl
@[simp] theorem Dev.putGates_per (v : SMap Gate) : (d.putGates v).per = d.per := rfl
@[simp] theorem Dev.putGates_snap (v : SMap Gate) : (d.putGates v).snap = d.snap := rfl
@[simp] theorem Dev.putRearmP_rearmP (v : Bool) : (d.putRearmP v).rearmP = v := rfl
@[simp] theorem Dev.putRearmP_rd (v : Bool) (r : Nat) : (d.putRearmP v).rd r = d.rd r := rfl
@[simp] theorem Dev.putRearmP_fld (v : Bool) (r lo w : Nat) : (d.putRearmP v).fld r lo w = d.fld r lo w := rfl
@[simp] theorem Dev.putRearmP_bit (v : Bool) (r j : Nat) : (d.putRearmP v).bit r j = d.bit r j := rfl
@[simp] theorem Dev.putRearmP_fm (v : Bool) : (d.putRearmP v).fm = d.fm := rfl
@[simp] theorem Dev.putRearmP_twinId (v : Bool) : (d.putRearmP v).twinId = d.twinId := rfl
@[simp] theorem Dev.putRearmP_regs (v : Bool) : (d.putRearmP v).regs = d.regs := rfl
@[simp] theorem Dev.putRearmP_mem (v : Bool) : (d.putRearmP v).mem = d.mem := rfl
@[simp] theorem Dev.putRearmP_ecc (v : Bool) : (d.putRearmP v).ecc = d.ecc := rfl
@[simp] theorem Dev.putRearmP_shadow (v : Bool) : (d.putRearmP v).shadow = d.shadow := rfl
@[simp] theorem Dev.putRearmP_scrubPos (v : Bool) : (d.putRearmP v).scrubPos = d.scrubPos := rfl
@[simp] theorem Dev.putRearmP_outbox (v : Bool) : (d.putRearmP v).outbox = d.outbox := rfl
@[simp] theorem Dev.putRearmP_busResp (v : Bool) : (d.putRearmP v).busResp = d.busResp := rfl
@[simp] theorem Dev.putRearmP_freeCtr (v : Bool) : (d.putRearmP v).freeCtr = d.freeCtr := rfl
@[simp] theorem Dev.putRearmP_tb (v : Bool) : (d.putRearmP v).tb = d.tb := rfl
@[simp] theorem Dev.putRearmP_pwr (v : Bool) : (d.putRearmP v).pwr = d.pwr := rfl
@[simp] theorem Dev.putRearmP_amb (v : Bool) : (d.putRearmP v).amb = d.amb := rfl
@[simp] theorem Dev.putRearmP_fc (v : Bool) : (d.putRearmP v).fc = d.fc := rfl
@[simp] theorem Dev.putRearmP_pdrvLow (v : Bool) : (d.putRearmP v).pdrvLow = d.pdrvLow := rfl
@[simp] theorem Dev.putRearmP_grdyBad (v : Bool) : (d.putRearmP v).grdyBad = d.grdyBad := rfl
@[simp] theorem Dev.putRearmP_gates (v : Bool) : (d.putRearmP v).gates = d.gates := rfl
@[simp] theorem Dev.putRearmP_atm (v : Bool) : (d.putRearmP v).atm = d.atm := rfl
@[simp] theorem Dev.putRearmP_lanes (v : Bool) : (d.putRearmP v).lanes = d.lanes := rfl
@[simp] theorem Dev.putRearmP_ports (v : Bool) : (d.putRearmP v).ports = d.ports := rfl
@[simp] theorem Dev.putRearmP_cells (v : Bool) : (d.putRearmP v).cells = d.cells := rfl
@[simp] theorem Dev.putRearmP_safe (v : Bool) : (d.putRearmP v).safe = d.safe := rfl
@[simp] theorem Dev.putRearmP_clk (v : Bool) : (d.putRearmP v).clk = d.clk := rfl
@[simp] theorem Dev.putRearmP_servos (v : Bool) : (d.putRearmP v).servos = d.servos := rfl
@[simp] theorem Dev.putRearmP_tsrv (v : Bool) : (d.putRearmP v).tsrv = d.tsrv := rfl
@[simp] theorem Dev.putRearmP_boot (v : Bool) : (d.putRearmP v).boot = d.boot := rfl
@[simp] theorem Dev.putRearmP_twin (v : Bool) : (d.putRearmP v).twin = d.twin := rfl
@[simp] theorem Dev.putRearmP_net (v : Bool) : (d.putRearmP v).net = d.net := rfl
@[simp] theorem Dev.putRearmP_engs (v : Bool) : (d.putRearmP v).engs = d.engs := rfl
@[simp] theorem Dev.putRearmP_xq (v : Bool) : (d.putRearmP v).xq = d.xq := rfl
@[simp] theorem Dev.putRearmP_outQ (v : Bool) : (d.putRearmP v).outQ = d.outQ := rfl
@[simp] theorem Dev.putRearmP_sorts (v : Bool) : (d.putRearmP v).sorts = d.sorts := rfl
@[simp] theorem Dev.putRearmP_sils (v : Bool) : (d.putRearmP v).sils = d.sils := rfl
@[simp] theorem Dev.putRearmP_img (v : Bool) : (d.putRearmP v).img = d.img := rfl
@[simp] theorem Dev.putRearmP_fused (v : Bool) : (d.putRearmP v).fused = d.fused := rfl
@[simp] theorem Dev.putRearmP_fmCal (v : Bool) : (d.putRearmP v).fmCal = d.fmCal := rfl
@[simp] theorem Dev.putRearmP_adcs (v : Bool) : (d.putRearmP v).adcs = d.adcs := rfl
@[simp] theorem Dev.putRearmP_cmp (v : Bool) : (d.putRearmP v).cmp = d.cmp := rfl
@[simp] theorem Dev.putRearmP_tmon (v : Bool) : (d.putRearmP v).tmon = d.tmon := rfl
@[simp] theorem Dev.putRearmP_met (v : Bool) : (d.putRearmP v).met = d.met := rfl
@[simp] theorem Dev.putRearmP_sup (v : Bool) : (d.putRearmP v).sup = d.sup := rfl
@[simp] theorem Dev.putRearmP_per (v : Bool) : (d.putRearmP v).per = d.per := rfl
@[simp] theorem Dev.putRearmP_snap (v : Bool) : (d.putRearmP v).snap = d.snap := rfl
@[simp] theorem Dev.putAtm_atm (v : Atm) : (d.putAtm v).atm = v := rfl
@[simp] theorem Dev.putAtm_rd (v : Atm) (r : Nat) : (d.putAtm v).rd r = d.rd r := rfl
@[simp] theorem Dev.putAtm_fld (v : Atm) (r lo w : Nat) : (d.putAtm v).fld r lo w = d.fld r lo w := rfl
@[simp] theorem Dev.putAtm_bit (v : Atm) (r j : Nat) : (d.putAtm v).bit r j = d.bit r j := rfl
@[simp] theorem Dev.putAtm_fm (v : Atm) : (d.putAtm v).fm = d.fm := rfl
@[simp] theorem Dev.putAtm_twinId (v : Atm) : (d.putAtm v).twinId = d.twinId := rfl
@[simp] theorem Dev.putAtm_regs (v : Atm) : (d.putAtm v).regs = d.regs := rfl
@[simp] theorem Dev.putAtm_mem (v : Atm) : (d.putAtm v).mem = d.mem := rfl
@[simp] theorem Dev.putAtm_ecc (v : Atm) : (d.putAtm v).ecc = d.ecc := rfl
@[simp] theorem Dev.putAtm_shadow (v : Atm) : (d.putAtm v).shadow = d.shadow := rfl
@[simp] theorem Dev.putAtm_scrubPos (v : Atm) : (d.putAtm v).scrubPos = d.scrubPos := rfl
@[simp] theorem Dev.putAtm_outbox (v : Atm) : (d.putAtm v).outbox = d.outbox := rfl
@[simp] theorem Dev.putAtm_busResp (v : Atm) : (d.putAtm v).busResp = d.busResp := rfl
@[simp] theorem Dev.putAtm_freeCtr (v : Atm) : (d.putAtm v).freeCtr = d.freeCtr := rfl
@[simp] theorem Dev.putAtm_tb (v : Atm) : (d.putAtm v).tb = d.tb := rfl
@[simp] theorem Dev.putAtm_pwr (v : Atm) : (d.putAtm v).pwr = d.pwr := rfl
@[simp] theorem Dev.putAtm_amb (v : Atm) : (d.putAtm v).amb = d.amb := rfl
@[simp] theorem Dev.putAtm_fc (v : Atm) : (d.putAtm v).fc = d.fc := rfl
@[simp] theorem Dev.putAtm_pdrvLow (v : Atm) : (d.putAtm v).pdrvLow = d.pdrvLow := rfl
@[simp] theorem Dev.putAtm_grdyBad (v : Atm) : (d.putAtm v).grdyBad = d.grdyBad := rfl
@[simp] theorem Dev.putAtm_gates (v : Atm) : (d.putAtm v).gates = d.gates := rfl
@[simp] theorem Dev.putAtm_rearmP (v : Atm) : (d.putAtm v).rearmP = d.rearmP := rfl
@[simp] theorem Dev.putAtm_lanes (v : Atm) : (d.putAtm v).lanes = d.lanes := rfl
@[simp] theorem Dev.putAtm_ports (v : Atm) : (d.putAtm v).ports = d.ports := rfl
@[simp] theorem Dev.putAtm_cells (v : Atm) : (d.putAtm v).cells = d.cells := rfl
@[simp] theorem Dev.putAtm_safe (v : Atm) : (d.putAtm v).safe = d.safe := rfl
@[simp] theorem Dev.putAtm_clk (v : Atm) : (d.putAtm v).clk = d.clk := rfl
@[simp] theorem Dev.putAtm_servos (v : Atm) : (d.putAtm v).servos = d.servos := rfl
@[simp] theorem Dev.putAtm_tsrv (v : Atm) : (d.putAtm v).tsrv = d.tsrv := rfl
@[simp] theorem Dev.putAtm_boot (v : Atm) : (d.putAtm v).boot = d.boot := rfl
@[simp] theorem Dev.putAtm_twin (v : Atm) : (d.putAtm v).twin = d.twin := rfl
@[simp] theorem Dev.putAtm_net (v : Atm) : (d.putAtm v).net = d.net := rfl
@[simp] theorem Dev.putAtm_engs (v : Atm) : (d.putAtm v).engs = d.engs := rfl
@[simp] theorem Dev.putAtm_xq (v : Atm) : (d.putAtm v).xq = d.xq := rfl
@[simp] theorem Dev.putAtm_outQ (v : Atm) : (d.putAtm v).outQ = d.outQ := rfl
@[simp] theorem Dev.putAtm_sorts (v : Atm) : (d.putAtm v).sorts = d.sorts := rfl
@[simp] theorem Dev.putAtm_sils (v : Atm) : (d.putAtm v).sils = d.sils := rfl
@[simp] theorem Dev.putAtm_img (v : Atm) : (d.putAtm v).img = d.img := rfl
@[simp] theorem Dev.putAtm_fused (v : Atm) : (d.putAtm v).fused = d.fused := rfl
@[simp] theorem Dev.putAtm_fmCal (v : Atm) : (d.putAtm v).fmCal = d.fmCal := rfl
@[simp] theorem Dev.putAtm_adcs (v : Atm) : (d.putAtm v).adcs = d.adcs := rfl
@[simp] theorem Dev.putAtm_cmp (v : Atm) : (d.putAtm v).cmp = d.cmp := rfl
@[simp] theorem Dev.putAtm_tmon (v : Atm) : (d.putAtm v).tmon = d.tmon := rfl
@[simp] theorem Dev.putAtm_met (v : Atm) : (d.putAtm v).met = d.met := rfl
@[simp] theorem Dev.putAtm_sup (v : Atm) : (d.putAtm v).sup = d.sup := rfl
@[simp] theorem Dev.putAtm_per (v : Atm) : (d.putAtm v).per = d.per := rfl
@[simp] theorem Dev.putAtm_snap (v : Atm) : (d.putAtm v).snap = d.snap := rfl
@[simp] theorem Dev.putLanes_lanes (v : SMap Lane) : (d.putLanes v).lanes = v := rfl
@[simp] theorem Dev.putLanes_rd (v : SMap Lane) (r : Nat) : (d.putLanes v).rd r = d.rd r := rfl
@[simp] theorem Dev.putLanes_fld (v : SMap Lane) (r lo w : Nat) : (d.putLanes v).fld r lo w = d.fld r lo w := rfl
@[simp] theorem Dev.putLanes_bit (v : SMap Lane) (r j : Nat) : (d.putLanes v).bit r j = d.bit r j := rfl
@[simp] theorem Dev.putLanes_fm (v : SMap Lane) : (d.putLanes v).fm = d.fm := rfl
@[simp] theorem Dev.putLanes_twinId (v : SMap Lane) : (d.putLanes v).twinId = d.twinId := rfl
@[simp] theorem Dev.putLanes_regs (v : SMap Lane) : (d.putLanes v).regs = d.regs := rfl
@[simp] theorem Dev.putLanes_mem (v : SMap Lane) : (d.putLanes v).mem = d.mem := rfl
@[simp] theorem Dev.putLanes_ecc (v : SMap Lane) : (d.putLanes v).ecc = d.ecc := rfl
@[simp] theorem Dev.putLanes_shadow (v : SMap Lane) : (d.putLanes v).shadow = d.shadow := rfl
@[simp] theorem Dev.putLanes_scrubPos (v : SMap Lane) : (d.putLanes v).scrubPos = d.scrubPos := rfl
@[simp] theorem Dev.putLanes_outbox (v : SMap Lane) : (d.putLanes v).outbox = d.outbox := rfl
@[simp] theorem Dev.putLanes_busResp (v : SMap Lane) : (d.putLanes v).busResp = d.busResp := rfl
@[simp] theorem Dev.putLanes_freeCtr (v : SMap Lane) : (d.putLanes v).freeCtr = d.freeCtr := rfl
@[simp] theorem Dev.putLanes_tb (v : SMap Lane) : (d.putLanes v).tb = d.tb := rfl
@[simp] theorem Dev.putLanes_pwr (v : SMap Lane) : (d.putLanes v).pwr = d.pwr := rfl
@[simp] theorem Dev.putLanes_amb (v : SMap Lane) : (d.putLanes v).amb = d.amb := rfl
@[simp] theorem Dev.putLanes_fc (v : SMap Lane) : (d.putLanes v).fc = d.fc := rfl
@[simp] theorem Dev.putLanes_pdrvLow (v : SMap Lane) : (d.putLanes v).pdrvLow = d.pdrvLow := rfl
@[simp] theorem Dev.putLanes_grdyBad (v : SMap Lane) : (d.putLanes v).grdyBad = d.grdyBad := rfl
@[simp] theorem Dev.putLanes_gates (v : SMap Lane) : (d.putLanes v).gates = d.gates := rfl
@[simp] theorem Dev.putLanes_rearmP (v : SMap Lane) : (d.putLanes v).rearmP = d.rearmP := rfl
@[simp] theorem Dev.putLanes_atm (v : SMap Lane) : (d.putLanes v).atm = d.atm := rfl
@[simp] theorem Dev.putLanes_ports (v : SMap Lane) : (d.putLanes v).ports = d.ports := rfl
@[simp] theorem Dev.putLanes_cells (v : SMap Lane) : (d.putLanes v).cells = d.cells := rfl
@[simp] theorem Dev.putLanes_safe (v : SMap Lane) : (d.putLanes v).safe = d.safe := rfl
@[simp] theorem Dev.putLanes_clk (v : SMap Lane) : (d.putLanes v).clk = d.clk := rfl
@[simp] theorem Dev.putLanes_servos (v : SMap Lane) : (d.putLanes v).servos = d.servos := rfl
@[simp] theorem Dev.putLanes_tsrv (v : SMap Lane) : (d.putLanes v).tsrv = d.tsrv := rfl
@[simp] theorem Dev.putLanes_boot (v : SMap Lane) : (d.putLanes v).boot = d.boot := rfl
@[simp] theorem Dev.putLanes_twin (v : SMap Lane) : (d.putLanes v).twin = d.twin := rfl
@[simp] theorem Dev.putLanes_net (v : SMap Lane) : (d.putLanes v).net = d.net := rfl
@[simp] theorem Dev.putLanes_engs (v : SMap Lane) : (d.putLanes v).engs = d.engs := rfl
@[simp] theorem Dev.putLanes_xq (v : SMap Lane) : (d.putLanes v).xq = d.xq := rfl
@[simp] theorem Dev.putLanes_outQ (v : SMap Lane) : (d.putLanes v).outQ = d.outQ := rfl
@[simp] theorem Dev.putLanes_sorts (v : SMap Lane) : (d.putLanes v).sorts = d.sorts := rfl
@[simp] theorem Dev.putLanes_sils (v : SMap Lane) : (d.putLanes v).sils = d.sils := rfl
@[simp] theorem Dev.putLanes_img (v : SMap Lane) : (d.putLanes v).img = d.img := rfl
@[simp] theorem Dev.putLanes_fused (v : SMap Lane) : (d.putLanes v).fused = d.fused := rfl
@[simp] theorem Dev.putLanes_fmCal (v : SMap Lane) : (d.putLanes v).fmCal = d.fmCal := rfl
@[simp] theorem Dev.putLanes_adcs (v : SMap Lane) : (d.putLanes v).adcs = d.adcs := rfl
@[simp] theorem Dev.putLanes_cmp (v : SMap Lane) : (d.putLanes v).cmp = d.cmp := rfl
@[simp] theorem Dev.putLanes_tmon (v : SMap Lane) : (d.putLanes v).tmon = d.tmon := rfl
@[simp] theorem Dev.putLanes_met (v : SMap Lane) : (d.putLanes v).met = d.met := rfl
@[simp] theorem Dev.putLanes_sup (v : SMap Lane) : (d.putLanes v).sup = d.sup := rfl
@[simp] theorem Dev.putLanes_per (v : SMap Lane) : (d.putLanes v).per = d.per := rfl
@[simp] theorem Dev.putLanes_snap (v : SMap Lane) : (d.putLanes v).snap = d.snap := rfl
@[simp] theorem Dev.putPorts_ports (v : SMap Port) : (d.putPorts v).ports = v := rfl
@[simp] theorem Dev.putPorts_rd (v : SMap Port) (r : Nat) : (d.putPorts v).rd r = d.rd r := rfl
@[simp] theorem Dev.putPorts_fld (v : SMap Port) (r lo w : Nat) : (d.putPorts v).fld r lo w = d.fld r lo w := rfl
@[simp] theorem Dev.putPorts_bit (v : SMap Port) (r j : Nat) : (d.putPorts v).bit r j = d.bit r j := rfl
@[simp] theorem Dev.putPorts_fm (v : SMap Port) : (d.putPorts v).fm = d.fm := rfl
@[simp] theorem Dev.putPorts_twinId (v : SMap Port) : (d.putPorts v).twinId = d.twinId := rfl
@[simp] theorem Dev.putPorts_regs (v : SMap Port) : (d.putPorts v).regs = d.regs := rfl
@[simp] theorem Dev.putPorts_mem (v : SMap Port) : (d.putPorts v).mem = d.mem := rfl
@[simp] theorem Dev.putPorts_ecc (v : SMap Port) : (d.putPorts v).ecc = d.ecc := rfl
@[simp] theorem Dev.putPorts_shadow (v : SMap Port) : (d.putPorts v).shadow = d.shadow := rfl
@[simp] theorem Dev.putPorts_scrubPos (v : SMap Port) : (d.putPorts v).scrubPos = d.scrubPos := rfl
@[simp] theorem Dev.putPorts_outbox (v : SMap Port) : (d.putPorts v).outbox = d.outbox := rfl
@[simp] theorem Dev.putPorts_busResp (v : SMap Port) : (d.putPorts v).busResp = d.busResp := rfl
@[simp] theorem Dev.putPorts_freeCtr (v : SMap Port) : (d.putPorts v).freeCtr = d.freeCtr := rfl
@[simp] theorem Dev.putPorts_tb (v : SMap Port) : (d.putPorts v).tb = d.tb := rfl
@[simp] theorem Dev.putPorts_pwr (v : SMap Port) : (d.putPorts v).pwr = d.pwr := rfl
@[simp] theorem Dev.putPorts_amb (v : SMap Port) : (d.putPorts v).amb = d.amb := rfl
@[simp] theorem Dev.putPorts_fc (v : SMap Port) : (d.putPorts v).fc = d.fc := rfl
@[simp] theorem Dev.putPorts_pdrvLow (v : SMap Port) : (d.putPorts v).pdrvLow = d.pdrvLow := rfl
@[simp] theorem Dev.putPorts_grdyBad (v : SMap Port) : (d.putPorts v).grdyBad = d.grdyBad := rfl
@[simp] theorem Dev.putPorts_gates (v : SMap Port) : (d.putPorts v).gates = d.gates := rfl
@[simp] theorem Dev.putPorts_rearmP (v : SMap Port) : (d.putPorts v).rearmP = d.rearmP := rfl
@[simp] theorem Dev.putPorts_atm (v : SMap Port) : (d.putPorts v).atm = d.atm := rfl
@[simp] theorem Dev.putPorts_lanes (v : SMap Port) : (d.putPorts v).lanes = d.lanes := rfl
@[simp] theorem Dev.putPorts_cells (v : SMap Port) : (d.putPorts v).cells = d.cells := rfl
@[simp] theorem Dev.putPorts_safe (v : SMap Port) : (d.putPorts v).safe = d.safe := rfl
@[simp] theorem Dev.putPorts_clk (v : SMap Port) : (d.putPorts v).clk = d.clk := rfl
@[simp] theorem Dev.putPorts_servos (v : SMap Port) : (d.putPorts v).servos = d.servos := rfl
@[simp] theorem Dev.putPorts_tsrv (v : SMap Port) : (d.putPorts v).tsrv = d.tsrv := rfl
@[simp] theorem Dev.putPorts_boot (v : SMap Port) : (d.putPorts v).boot = d.boot := rfl
@[simp] theorem Dev.putPorts_twin (v : SMap Port) : (d.putPorts v).twin = d.twin := rfl
@[simp] theorem Dev.putPorts_net (v : SMap Port) : (d.putPorts v).net = d.net := rfl
@[simp] theorem Dev.putPorts_engs (v : SMap Port) : (d.putPorts v).engs = d.engs := rfl
@[simp] theorem Dev.putPorts_xq (v : SMap Port) : (d.putPorts v).xq = d.xq := rfl
@[simp] theorem Dev.putPorts_outQ (v : SMap Port) : (d.putPorts v).outQ = d.outQ := rfl
@[simp] theorem Dev.putPorts_sorts (v : SMap Port) : (d.putPorts v).sorts = d.sorts := rfl
@[simp] theorem Dev.putPorts_sils (v : SMap Port) : (d.putPorts v).sils = d.sils := rfl
@[simp] theorem Dev.putPorts_img (v : SMap Port) : (d.putPorts v).img = d.img := rfl
@[simp] theorem Dev.putPorts_fused (v : SMap Port) : (d.putPorts v).fused = d.fused := rfl
@[simp] theorem Dev.putPorts_fmCal (v : SMap Port) : (d.putPorts v).fmCal = d.fmCal := rfl
@[simp] theorem Dev.putPorts_adcs (v : SMap Port) : (d.putPorts v).adcs = d.adcs := rfl
@[simp] theorem Dev.putPorts_cmp (v : SMap Port) : (d.putPorts v).cmp = d.cmp := rfl
@[simp] theorem Dev.putPorts_tmon (v : SMap Port) : (d.putPorts v).tmon = d.tmon := rfl
@[simp] theorem Dev.putPorts_met (v : SMap Port) : (d.putPorts v).met = d.met := rfl
@[simp] theorem Dev.putPorts_sup (v : SMap Port) : (d.putPorts v).sup = d.sup := rfl
@[simp] theorem Dev.putPorts_per (v : SMap Port) : (d.putPorts v).per = d.per := rfl
@[simp] theorem Dev.putPorts_snap (v : SMap Port) : (d.putPorts v).snap = d.snap := rfl
@[simp] theorem Dev.putCells_cells (v : SMap Cell) : (d.putCells v).cells = v := rfl
@[simp] theorem Dev.putCells_rd (v : SMap Cell) (r : Nat) : (d.putCells v).rd r = d.rd r := rfl
@[simp] theorem Dev.putCells_fld (v : SMap Cell) (r lo w : Nat) : (d.putCells v).fld r lo w = d.fld r lo w := rfl
@[simp] theorem Dev.putCells_bit (v : SMap Cell) (r j : Nat) : (d.putCells v).bit r j = d.bit r j := rfl
@[simp] theorem Dev.putCells_fm (v : SMap Cell) : (d.putCells v).fm = d.fm := rfl
@[simp] theorem Dev.putCells_twinId (v : SMap Cell) : (d.putCells v).twinId = d.twinId := rfl
@[simp] theorem Dev.putCells_regs (v : SMap Cell) : (d.putCells v).regs = d.regs := rfl
@[simp] theorem Dev.putCells_mem (v : SMap Cell) : (d.putCells v).mem = d.mem := rfl
@[simp] theorem Dev.putCells_ecc (v : SMap Cell) : (d.putCells v).ecc = d.ecc := rfl
@[simp] theorem Dev.putCells_shadow (v : SMap Cell) : (d.putCells v).shadow = d.shadow := rfl
@[simp] theorem Dev.putCells_scrubPos (v : SMap Cell) : (d.putCells v).scrubPos = d.scrubPos := rfl
@[simp] theorem Dev.putCells_outbox (v : SMap Cell) : (d.putCells v).outbox = d.outbox := rfl
@[simp] theorem Dev.putCells_busResp (v : SMap Cell) : (d.putCells v).busResp = d.busResp := rfl
@[simp] theorem Dev.putCells_freeCtr (v : SMap Cell) : (d.putCells v).freeCtr = d.freeCtr := rfl
@[simp] theorem Dev.putCells_tb (v : SMap Cell) : (d.putCells v).tb = d.tb := rfl
@[simp] theorem Dev.putCells_pwr (v : SMap Cell) : (d.putCells v).pwr = d.pwr := rfl
@[simp] theorem Dev.putCells_amb (v : SMap Cell) : (d.putCells v).amb = d.amb := rfl
@[simp] theorem Dev.putCells_fc (v : SMap Cell) : (d.putCells v).fc = d.fc := rfl
@[simp] theorem Dev.putCells_pdrvLow (v : SMap Cell) : (d.putCells v).pdrvLow = d.pdrvLow := rfl
@[simp] theorem Dev.putCells_grdyBad (v : SMap Cell) : (d.putCells v).grdyBad = d.grdyBad := rfl
@[simp] theorem Dev.putCells_gates (v : SMap Cell) : (d.putCells v).gates = d.gates := rfl
@[simp] theorem Dev.putCells_rearmP (v : SMap Cell) : (d.putCells v).rearmP = d.rearmP := rfl
@[simp] theorem Dev.putCells_atm (v : SMap Cell) : (d.putCells v).atm = d.atm := rfl
@[simp] theorem Dev.putCells_lanes (v : SMap Cell) : (d.putCells v).lanes = d.lanes := rfl
@[simp] theorem Dev.putCells_ports (v : SMap Cell) : (d.putCells v).ports = d.ports := rfl
@[simp] theorem Dev.putCells_safe (v : SMap Cell) : (d.putCells v).safe = d.safe := rfl
@[simp] theorem Dev.putCells_clk (v : SMap Cell) : (d.putCells v).clk = d.clk := rfl
@[simp] theorem Dev.putCells_servos (v : SMap Cell) : (d.putCells v).servos = d.servos := rfl
@[simp] theorem Dev.putCells_tsrv (v : SMap Cell) : (d.putCells v).tsrv = d.tsrv := rfl
@[simp] theorem Dev.putCells_boot (v : SMap Cell) : (d.putCells v).boot = d.boot := rfl
@[simp] theorem Dev.putCells_twin (v : SMap Cell) : (d.putCells v).twin = d.twin := rfl
@[simp] theorem Dev.putCells_net (v : SMap Cell) : (d.putCells v).net = d.net := rfl
@[simp] theorem Dev.putCells_engs (v : SMap Cell) : (d.putCells v).engs = d.engs := rfl
@[simp] theorem Dev.putCells_xq (v : SMap Cell) : (d.putCells v).xq = d.xq := rfl
@[simp] theorem Dev.putCells_outQ (v : SMap Cell) : (d.putCells v).outQ = d.outQ := rfl
@[simp] theorem Dev.putCells_sorts (v : SMap Cell) : (d.putCells v).sorts = d.sorts := rfl
@[simp] theorem Dev.putCells_sils (v : SMap Cell) : (d.putCells v).sils = d.sils := rfl
@[simp] theorem Dev.putCells_img (v : SMap Cell) : (d.putCells v).img = d.img := rfl
@[simp] theorem Dev.putCells_fused (v : SMap Cell) : (d.putCells v).fused = d.fused := rfl
@[simp] theorem Dev.putCells_fmCal (v : SMap Cell) : (d.putCells v).fmCal = d.fmCal := rfl
@[simp] theorem Dev.putCells_adcs (v : SMap Cell) : (d.putCells v).adcs = d.adcs := rfl
@[simp] theorem Dev.putCells_cmp (v : SMap Cell) : (d.putCells v).cmp = d.cmp := rfl
@[simp] theorem Dev.putCells_tmon (v : SMap Cell) : (d.putCells v).tmon = d.tmon := rfl
@[simp] theorem Dev.putCells_met (v : SMap Cell) : (d.putCells v).met = d.met := rfl
@[simp] theorem Dev.putCells_sup (v : SMap Cell) : (d.putCells v).sup = d.sup := rfl
@[simp] theorem Dev.putCells_per (v : SMap Cell) : (d.putCells v).per = d.per := rfl
@[simp] theorem Dev.putCells_snap (v : SMap Cell) : (d.putCells v).snap = d.snap := rfl
@[simp] theorem Dev.putSafe_safe (v : Safe) : (d.putSafe v).safe = v := rfl
@[simp] theorem Dev.putSafe_rd (v : Safe) (r : Nat) : (d.putSafe v).rd r = d.rd r := rfl
@[simp] theorem Dev.putSafe_fld (v : Safe) (r lo w : Nat) : (d.putSafe v).fld r lo w = d.fld r lo w := rfl
@[simp] theorem Dev.putSafe_bit (v : Safe) (r j : Nat) : (d.putSafe v).bit r j = d.bit r j := rfl
@[simp] theorem Dev.putSafe_fm (v : Safe) : (d.putSafe v).fm = d.fm := rfl
@[simp] theorem Dev.putSafe_twinId (v : Safe) : (d.putSafe v).twinId = d.twinId := rfl
@[simp] theorem Dev.putSafe_regs (v : Safe) : (d.putSafe v).regs = d.regs := rfl
@[simp] theorem Dev.putSafe_mem (v : Safe) : (d.putSafe v).mem = d.mem := rfl
@[simp] theorem Dev.putSafe_ecc (v : Safe) : (d.putSafe v).ecc = d.ecc := rfl
@[simp] theorem Dev.putSafe_shadow (v : Safe) : (d.putSafe v).shadow = d.shadow := rfl
@[simp] theorem Dev.putSafe_scrubPos (v : Safe) : (d.putSafe v).scrubPos = d.scrubPos := rfl
@[simp] theorem Dev.putSafe_outbox (v : Safe) : (d.putSafe v).outbox = d.outbox := rfl
@[simp] theorem Dev.putSafe_busResp (v : Safe) : (d.putSafe v).busResp = d.busResp := rfl
@[simp] theorem Dev.putSafe_freeCtr (v : Safe) : (d.putSafe v).freeCtr = d.freeCtr := rfl
@[simp] theorem Dev.putSafe_tb (v : Safe) : (d.putSafe v).tb = d.tb := rfl
@[simp] theorem Dev.putSafe_pwr (v : Safe) : (d.putSafe v).pwr = d.pwr := rfl
@[simp] theorem Dev.putSafe_amb (v : Safe) : (d.putSafe v).amb = d.amb := rfl
@[simp] theorem Dev.putSafe_fc (v : Safe) : (d.putSafe v).fc = d.fc := rfl
@[simp] theorem Dev.putSafe_pdrvLow (v : Safe) : (d.putSafe v).pdrvLow = d.pdrvLow := rfl
@[simp] theorem Dev.putSafe_grdyBad (v : Safe) : (d.putSafe v).grdyBad = d.grdyBad := rfl
@[simp] theorem Dev.putSafe_gates (v : Safe) : (d.putSafe v).gates = d.gates := rfl
@[simp] theorem Dev.putSafe_rearmP (v : Safe) : (d.putSafe v).rearmP = d.rearmP := rfl
@[simp] theorem Dev.putSafe_atm (v : Safe) : (d.putSafe v).atm = d.atm := rfl
@[simp] theorem Dev.putSafe_lanes (v : Safe) : (d.putSafe v).lanes = d.lanes := rfl
@[simp] theorem Dev.putSafe_ports (v : Safe) : (d.putSafe v).ports = d.ports := rfl
@[simp] theorem Dev.putSafe_cells (v : Safe) : (d.putSafe v).cells = d.cells := rfl
@[simp] theorem Dev.putSafe_clk (v : Safe) : (d.putSafe v).clk = d.clk := rfl
@[simp] theorem Dev.putSafe_servos (v : Safe) : (d.putSafe v).servos = d.servos := rfl
@[simp] theorem Dev.putSafe_tsrv (v : Safe) : (d.putSafe v).tsrv = d.tsrv := rfl
@[simp] theorem Dev.putSafe_boot (v : Safe) : (d.putSafe v).boot = d.boot := rfl
@[simp] theorem Dev.putSafe_twin (v : Safe) : (d.putSafe v).twin = d.twin := rfl
@[simp] theorem Dev.putSafe_net (v : Safe) : (d.putSafe v).net = d.net := rfl
@[simp] theorem Dev.putSafe_engs (v : Safe) : (d.putSafe v).engs = d.engs := rfl
@[simp] theorem Dev.putSafe_xq (v : Safe) : (d.putSafe v).xq = d.xq := rfl
@[simp] theorem Dev.putSafe_outQ (v : Safe) : (d.putSafe v).outQ = d.outQ := rfl
@[simp] theorem Dev.putSafe_sorts (v : Safe) : (d.putSafe v).sorts = d.sorts := rfl
@[simp] theorem Dev.putSafe_sils (v : Safe) : (d.putSafe v).sils = d.sils := rfl
@[simp] theorem Dev.putSafe_img (v : Safe) : (d.putSafe v).img = d.img := rfl
@[simp] theorem Dev.putSafe_fused (v : Safe) : (d.putSafe v).fused = d.fused := rfl
@[simp] theorem Dev.putSafe_fmCal (v : Safe) : (d.putSafe v).fmCal = d.fmCal := rfl
@[simp] theorem Dev.putSafe_adcs (v : Safe) : (d.putSafe v).adcs = d.adcs := rfl
@[simp] theorem Dev.putSafe_cmp (v : Safe) : (d.putSafe v).cmp = d.cmp := rfl
@[simp] theorem Dev.putSafe_tmon (v : Safe) : (d.putSafe v).tmon = d.tmon := rfl
@[simp] theorem Dev.putSafe_met (v : Safe) : (d.putSafe v).met = d.met := rfl
@[simp] theorem Dev.putSafe_sup (v : Safe) : (d.putSafe v).sup = d.sup := rfl
@[simp] theorem Dev.putSafe_per (v : Safe) : (d.putSafe v).per = d.per := rfl
@[simp] theorem Dev.putSafe_snap (v : Safe) : (d.putSafe v).snap = d.snap := rfl
@[simp] theorem Dev.putClk_clk (v : Clk) : (d.putClk v).clk = v := rfl
@[simp] theorem Dev.putClk_rd (v : Clk) (r : Nat) : (d.putClk v).rd r = d.rd r := rfl
@[simp] theorem Dev.putClk_fld (v : Clk) (r lo w : Nat) : (d.putClk v).fld r lo w = d.fld r lo w := rfl
@[simp] theorem Dev.putClk_bit (v : Clk) (r j : Nat) : (d.putClk v).bit r j = d.bit r j := rfl
@[simp] theorem Dev.putClk_fm (v : Clk) : (d.putClk v).fm = d.fm := rfl
@[simp] theorem Dev.putClk_twinId (v : Clk) : (d.putClk v).twinId = d.twinId := rfl
@[simp] theorem Dev.putClk_regs (v : Clk) : (d.putClk v).regs = d.regs := rfl
@[simp] theorem Dev.putClk_mem (v : Clk) : (d.putClk v).mem = d.mem := rfl
@[simp] theorem Dev.putClk_ecc (v : Clk) : (d.putClk v).ecc = d.ecc := rfl
@[simp] theorem Dev.putClk_shadow (v : Clk) : (d.putClk v).shadow = d.shadow := rfl
@[simp] theorem Dev.putClk_scrubPos (v : Clk) : (d.putClk v).scrubPos = d.scrubPos := rfl
@[simp] theorem Dev.putClk_outbox (v : Clk) : (d.putClk v).outbox = d.outbox := rfl
@[simp] theorem Dev.putClk_busResp (v : Clk) : (d.putClk v).busResp = d.busResp := rfl
@[simp] theorem Dev.putClk_freeCtr (v : Clk) : (d.putClk v).freeCtr = d.freeCtr := rfl
@[simp] theorem Dev.putClk_tb (v : Clk) : (d.putClk v).tb = d.tb := rfl
@[simp] theorem Dev.putClk_pwr (v : Clk) : (d.putClk v).pwr = d.pwr := rfl
@[simp] theorem Dev.putClk_amb (v : Clk) : (d.putClk v).amb = d.amb := rfl
@[simp] theorem Dev.putClk_fc (v : Clk) : (d.putClk v).fc = d.fc := rfl
@[simp] theorem Dev.putClk_pdrvLow (v : Clk) : (d.putClk v).pdrvLow = d.pdrvLow := rfl
@[simp] theorem Dev.putClk_grdyBad (v : Clk) : (d.putClk v).grdyBad = d.grdyBad := rfl
@[simp] theorem Dev.putClk_gates (v : Clk) : (d.putClk v).gates = d.gates := rfl
@[simp] theorem Dev.putClk_rearmP (v : Clk) : (d.putClk v).rearmP = d.rearmP := rfl
@[simp] theorem Dev.putClk_atm (v : Clk) : (d.putClk v).atm = d.atm := rfl
@[simp] theorem Dev.putClk_lanes (v : Clk) : (d.putClk v).lanes = d.lanes := rfl
@[simp] theorem Dev.putClk_ports (v : Clk) : (d.putClk v).ports = d.ports := rfl
@[simp] theorem Dev.putClk_cells (v : Clk) : (d.putClk v).cells = d.cells := rfl
@[simp] theorem Dev.putClk_safe (v : Clk) : (d.putClk v).safe = d.safe := rfl
@[simp] theorem Dev.putClk_servos (v : Clk) : (d.putClk v).servos = d.servos := rfl
@[simp] theorem Dev.putClk_tsrv (v : Clk) : (d.putClk v).tsrv = d.tsrv := rfl
@[simp] theorem Dev.putClk_boot (v : Clk) : (d.putClk v).boot = d.boot := rfl
@[simp] theorem Dev.putClk_twin (v : Clk) : (d.putClk v).twin = d.twin := rfl
@[simp] theorem Dev.putClk_net (v : Clk) : (d.putClk v).net = d.net := rfl
@[simp] theorem Dev.putClk_engs (v : Clk) : (d.putClk v).engs = d.engs := rfl
@[simp] theorem Dev.putClk_xq (v : Clk) : (d.putClk v).xq = d.xq := rfl
@[simp] theorem Dev.putClk_outQ (v : Clk) : (d.putClk v).outQ = d.outQ := rfl
@[simp] theorem Dev.putClk_sorts (v : Clk) : (d.putClk v).sorts = d.sorts := rfl
@[simp] theorem Dev.putClk_sils (v : Clk) : (d.putClk v).sils = d.sils := rfl
@[simp] theorem Dev.putClk_img (v : Clk) : (d.putClk v).img = d.img := rfl
@[simp] theorem Dev.putClk_fused (v : Clk) : (d.putClk v).fused = d.fused := rfl
@[simp] theorem Dev.putClk_fmCal (v : Clk) : (d.putClk v).fmCal = d.fmCal := rfl
@[simp] theorem Dev.putClk_adcs (v : Clk) : (d.putClk v).adcs = d.adcs := rfl
@[simp] theorem Dev.putClk_cmp (v : Clk) : (d.putClk v).cmp = d.cmp := rfl
@[simp] theorem Dev.putClk_tmon (v : Clk) : (d.putClk v).tmon = d.tmon := rfl
@[simp] theorem Dev.putClk_met (v : Clk) : (d.putClk v).met = d.met := rfl
@[simp] theorem Dev.putClk_sup (v : Clk) : (d.putClk v).sup = d.sup := rfl
@[simp] theorem Dev.putClk_per (v : Clk) : (d.putClk v).per = d.per := rfl
@[simp] theorem Dev.putClk_snap (v : Clk) : (d.putClk v).snap = d.snap := rfl
@[simp] theorem Dev.putServos_servos (v : SMap Servo) : (d.putServos v).servos = v := rfl
@[simp] theorem Dev.putServos_rd (v : SMap Servo) (r : Nat) : (d.putServos v).rd r = d.rd r := rfl
@[simp] theorem Dev.putServos_fld (v : SMap Servo) (r lo w : Nat) : (d.putServos v).fld r lo w = d.fld r lo w := rfl
@[simp] theorem Dev.putServos_bit (v : SMap Servo) (r j : Nat) : (d.putServos v).bit r j = d.bit r j := rfl
@[simp] theorem Dev.putServos_fm (v : SMap Servo) : (d.putServos v).fm = d.fm := rfl
@[simp] theorem Dev.putServos_twinId (v : SMap Servo) : (d.putServos v).twinId = d.twinId := rfl
@[simp] theorem Dev.putServos_regs (v : SMap Servo) : (d.putServos v).regs = d.regs := rfl
@[simp] theorem Dev.putServos_mem (v : SMap Servo) : (d.putServos v).mem = d.mem := rfl
@[simp] theorem Dev.putServos_ecc (v : SMap Servo) : (d.putServos v).ecc = d.ecc := rfl
@[simp] theorem Dev.putServos_shadow (v : SMap Servo) : (d.putServos v).shadow = d.shadow := rfl
@[simp] theorem Dev.putServos_scrubPos (v : SMap Servo) : (d.putServos v).scrubPos = d.scrubPos := rfl
@[simp] theorem Dev.putServos_outbox (v : SMap Servo) : (d.putServos v).outbox = d.outbox := rfl
@[simp] theorem Dev.putServos_busResp (v : SMap Servo) : (d.putServos v).busResp = d.busResp := rfl
@[simp] theorem Dev.putServos_freeCtr (v : SMap Servo) : (d.putServos v).freeCtr = d.freeCtr := rfl
@[simp] theorem Dev.putServos_tb (v : SMap Servo) : (d.putServos v).tb = d.tb := rfl
@[simp] theorem Dev.putServos_pwr (v : SMap Servo) : (d.putServos v).pwr = d.pwr := rfl
@[simp] theorem Dev.putServos_amb (v : SMap Servo) : (d.putServos v).amb = d.amb := rfl
@[simp] theorem Dev.putServos_fc (v : SMap Servo) : (d.putServos v).fc = d.fc := rfl
@[simp] theorem Dev.putServos_pdrvLow (v : SMap Servo) : (d.putServos v).pdrvLow = d.pdrvLow := rfl
@[simp] theorem Dev.putServos_grdyBad (v : SMap Servo) : (d.putServos v).grdyBad = d.grdyBad := rfl
@[simp] theorem Dev.putServos_gates (v : SMap Servo) : (d.putServos v).gates = d.gates := rfl
@[simp] theorem Dev.putServos_rearmP (v : SMap Servo) : (d.putServos v).rearmP = d.rearmP := rfl
@[simp] theorem Dev.putServos_atm (v : SMap Servo) : (d.putServos v).atm = d.atm := rfl
@[simp] theorem Dev.putServos_lanes (v : SMap Servo) : (d.putServos v).lanes = d.lanes := rfl
@[simp] theorem Dev.putServos_ports (v : SMap Servo) : (d.putServos v).ports = d.ports := rfl
@[simp] theorem Dev.putServos_cells (v : SMap Servo) : (d.putServos v).cells = d.cells := rfl
@[simp] theorem Dev.putServos_safe (v : SMap Servo) : (d.putServos v).safe = d.safe := rfl
@[simp] theorem Dev.putServos_clk (v : SMap Servo) : (d.putServos v).clk = d.clk := rfl
@[simp] theorem Dev.putServos_tsrv (v : SMap Servo) : (d.putServos v).tsrv = d.tsrv := rfl
@[simp] theorem Dev.putServos_boot (v : SMap Servo) : (d.putServos v).boot = d.boot := rfl
@[simp] theorem Dev.putServos_twin (v : SMap Servo) : (d.putServos v).twin = d.twin := rfl
@[simp] theorem Dev.putServos_net (v : SMap Servo) : (d.putServos v).net = d.net := rfl
@[simp] theorem Dev.putServos_engs (v : SMap Servo) : (d.putServos v).engs = d.engs := rfl
@[simp] theorem Dev.putServos_xq (v : SMap Servo) : (d.putServos v).xq = d.xq := rfl
@[simp] theorem Dev.putServos_outQ (v : SMap Servo) : (d.putServos v).outQ = d.outQ := rfl
@[simp] theorem Dev.putServos_sorts (v : SMap Servo) : (d.putServos v).sorts = d.sorts := rfl
@[simp] theorem Dev.putServos_sils (v : SMap Servo) : (d.putServos v).sils = d.sils := rfl
@[simp] theorem Dev.putServos_img (v : SMap Servo) : (d.putServos v).img = d.img := rfl
@[simp] theorem Dev.putServos_fused (v : SMap Servo) : (d.putServos v).fused = d.fused := rfl
@[simp] theorem Dev.putServos_fmCal (v : SMap Servo) : (d.putServos v).fmCal = d.fmCal := rfl
@[simp] theorem Dev.putServos_adcs (v : SMap Servo) : (d.putServos v).adcs = d.adcs := rfl
@[simp] theorem Dev.putServos_cmp (v : SMap Servo) : (d.putServos v).cmp = d.cmp := rfl
@[simp] theorem Dev.putServos_tmon (v : SMap Servo) : (d.putServos v).tmon = d.tmon := rfl
@[simp] theorem Dev.putServos_met (v : SMap Servo) : (d.putServos v).met = d.met := rfl
@[simp] theorem Dev.putServos_sup (v : SMap Servo) : (d.putServos v).sup = d.sup := rfl
@[simp] theorem Dev.putServos_per (v : SMap Servo) : (d.putServos v).per = d.per := rfl
@[simp] theorem Dev.putServos_snap (v : SMap Servo) : (d.putServos v).snap = d.snap := rfl
@[simp] theorem Dev.putTsrv_tsrv (v : TimeSrv) : (d.putTsrv v).tsrv = v := rfl
@[simp] theorem Dev.putTsrv_rd (v : TimeSrv) (r : Nat) : (d.putTsrv v).rd r = d.rd r := rfl
@[simp] theorem Dev.putTsrv_fld (v : TimeSrv) (r lo w : Nat) : (d.putTsrv v).fld r lo w = d.fld r lo w := rfl
@[simp] theorem Dev.putTsrv_bit (v : TimeSrv) (r j : Nat) : (d.putTsrv v).bit r j = d.bit r j := rfl
@[simp] theorem Dev.putTsrv_fm (v : TimeSrv) : (d.putTsrv v).fm = d.fm := rfl
@[simp] theorem Dev.putTsrv_twinId (v : TimeSrv) : (d.putTsrv v).twinId = d.twinId := rfl
@[simp] theorem Dev.putTsrv_regs (v : TimeSrv) : (d.putTsrv v).regs = d.regs := rfl
@[simp] theorem Dev.putTsrv_mem (v : TimeSrv) : (d.putTsrv v).mem = d.mem := rfl
@[simp] theorem Dev.putTsrv_ecc (v : TimeSrv) : (d.putTsrv v).ecc = d.ecc := rfl
@[simp] theorem Dev.putTsrv_shadow (v : TimeSrv) : (d.putTsrv v).shadow = d.shadow := rfl
@[simp] theorem Dev.putTsrv_scrubPos (v : TimeSrv) : (d.putTsrv v).scrubPos = d.scrubPos := rfl
@[simp] theorem Dev.putTsrv_outbox (v : TimeSrv) : (d.putTsrv v).outbox = d.outbox := rfl
@[simp] theorem Dev.putTsrv_busResp (v : TimeSrv) : (d.putTsrv v).busResp = d.busResp := rfl
@[simp] theorem Dev.putTsrv_freeCtr (v : TimeSrv) : (d.putTsrv v).freeCtr = d.freeCtr := rfl
@[simp] theorem Dev.putTsrv_tb (v : TimeSrv) : (d.putTsrv v).tb = d.tb := rfl
@[simp] theorem Dev.putTsrv_pwr (v : TimeSrv) : (d.putTsrv v).pwr = d.pwr := rfl
@[simp] theorem Dev.putTsrv_amb (v : TimeSrv) : (d.putTsrv v).amb = d.amb := rfl
@[simp] theorem Dev.putTsrv_fc (v : TimeSrv) : (d.putTsrv v).fc = d.fc := rfl
@[simp] theorem Dev.putTsrv_pdrvLow (v : TimeSrv) : (d.putTsrv v).pdrvLow = d.pdrvLow := rfl
@[simp] theorem Dev.putTsrv_grdyBad (v : TimeSrv) : (d.putTsrv v).grdyBad = d.grdyBad := rfl
@[simp] theorem Dev.putTsrv_gates (v : TimeSrv) : (d.putTsrv v).gates = d.gates := rfl
@[simp] theorem Dev.putTsrv_rearmP (v : TimeSrv) : (d.putTsrv v).rearmP = d.rearmP := rfl
@[simp] theorem Dev.putTsrv_atm (v : TimeSrv) : (d.putTsrv v).atm = d.atm := rfl
@[simp] theorem Dev.putTsrv_lanes (v : TimeSrv) : (d.putTsrv v).lanes = d.lanes := rfl
@[simp] theorem Dev.putTsrv_ports (v : TimeSrv) : (d.putTsrv v).ports = d.ports := rfl
@[simp] theorem Dev.putTsrv_cells (v : TimeSrv) : (d.putTsrv v).cells = d.cells := rfl
@[simp] theorem Dev.putTsrv_safe (v : TimeSrv) : (d.putTsrv v).safe = d.safe := rfl
@[simp] theorem Dev.putTsrv_clk (v : TimeSrv) : (d.putTsrv v).clk = d.clk := rfl
@[simp] theorem Dev.putTsrv_servos (v : TimeSrv) : (d.putTsrv v).servos = d.servos := rfl
@[simp] theorem Dev.putTsrv_boot (v : TimeSrv) : (d.putTsrv v).boot = d.boot := rfl
@[simp] theorem Dev.putTsrv_twin (v : TimeSrv) : (d.putTsrv v).twin = d.twin := rfl
@[simp] theorem Dev.putTsrv_net (v : TimeSrv) : (d.putTsrv v).net = d.net := rfl
@[simp] theorem Dev.putTsrv_engs (v : TimeSrv) : (d.putTsrv v).engs = d.engs := rfl
@[simp] theorem Dev.putTsrv_xq (v : TimeSrv) : (d.putTsrv v).xq = d.xq := rfl
@[simp] theorem Dev.putTsrv_outQ (v : TimeSrv) : (d.putTsrv v).outQ = d.outQ := rfl
@[simp] theorem Dev.putTsrv_sorts (v : TimeSrv) : (d.putTsrv v).sorts = d.sorts := rfl
@[simp] theorem Dev.putTsrv_sils (v : TimeSrv) : (d.putTsrv v).sils = d.sils := rfl
@[simp] theorem Dev.putTsrv_img (v : TimeSrv) : (d.putTsrv v).img = d.img := rfl
@[simp] theorem Dev.putTsrv_fused (v : TimeSrv) : (d.putTsrv v).fused = d.fused := rfl
@[simp] theorem Dev.putTsrv_fmCal (v : TimeSrv) : (d.putTsrv v).fmCal = d.fmCal := rfl
@[simp] theorem Dev.putTsrv_adcs (v : TimeSrv) : (d.putTsrv v).adcs = d.adcs := rfl
@[simp] theorem Dev.putTsrv_cmp (v : TimeSrv) : (d.putTsrv v).cmp = d.cmp := rfl
@[simp] theorem Dev.putTsrv_tmon (v : TimeSrv) : (d.putTsrv v).tmon = d.tmon := rfl
@[simp] theorem Dev.putTsrv_met (v : TimeSrv) : (d.putTsrv v).met = d.met := rfl
@[simp] theorem Dev.putTsrv_sup (v : TimeSrv) : (d.putTsrv v).sup = d.sup := rfl
@[simp] theorem Dev.putTsrv_per (v : TimeSrv) : (d.putTsrv v).per = d.per := rfl
@[simp] theorem Dev.putTsrv_snap (v : TimeSrv) : (d.putTsrv v).snap = d.snap := rfl
@[simp] theorem Dev.putBoot_boot (v : Boot) : (d.putBoot v).boot = v := rfl
@[simp] theorem Dev.putBoot_rd (v : Boot) (r : Nat) : (d.putBoot v).rd r = d.rd r := rfl
@[simp] theorem Dev.putBoot_fld (v : Boot) (r lo w : Nat) : (d.putBoot v).fld r lo w = d.fld r lo w := rfl
@[simp] theorem Dev.putBoot_bit (v : Boot) (r j : Nat) : (d.putBoot v).bit r j = d.bit r j := rfl
@[simp] theorem Dev.putBoot_fm (v : Boot) : (d.putBoot v).fm = d.fm := rfl
@[simp] theorem Dev.putBoot_twinId (v : Boot) : (d.putBoot v).twinId = d.twinId := rfl
@[simp] theorem Dev.putBoot_regs (v : Boot) : (d.putBoot v).regs = d.regs := rfl
@[simp] theorem Dev.putBoot_mem (v : Boot) : (d.putBoot v).mem = d.mem := rfl
@[simp] theorem Dev.putBoot_ecc (v : Boot) : (d.putBoot v).ecc = d.ecc := rfl
@[simp] theorem Dev.putBoot_shadow (v : Boot) : (d.putBoot v).shadow = d.shadow := rfl
@[simp] theorem Dev.putBoot_scrubPos (v : Boot) : (d.putBoot v).scrubPos = d.scrubPos := rfl
@[simp] theorem Dev.putBoot_outbox (v : Boot) : (d.putBoot v).outbox = d.outbox := rfl
@[simp] theorem Dev.putBoot_busResp (v : Boot) : (d.putBoot v).busResp = d.busResp := rfl
@[simp] theorem Dev.putBoot_freeCtr (v : Boot) : (d.putBoot v).freeCtr = d.freeCtr := rfl
@[simp] theorem Dev.putBoot_tb (v : Boot) : (d.putBoot v).tb = d.tb := rfl
@[simp] theorem Dev.putBoot_pwr (v : Boot) : (d.putBoot v).pwr = d.pwr := rfl
@[simp] theorem Dev.putBoot_amb (v : Boot) : (d.putBoot v).amb = d.amb := rfl
@[simp] theorem Dev.putBoot_fc (v : Boot) : (d.putBoot v).fc = d.fc := rfl
@[simp] theorem Dev.putBoot_pdrvLow (v : Boot) : (d.putBoot v).pdrvLow = d.pdrvLow := rfl
@[simp] theorem Dev.putBoot_grdyBad (v : Boot) : (d.putBoot v).grdyBad = d.grdyBad := rfl
@[simp] theorem Dev.putBoot_gates (v : Boot) : (d.putBoot v).gates = d.gates := rfl
@[simp] theorem Dev.putBoot_rearmP (v : Boot) : (d.putBoot v).rearmP = d.rearmP := rfl
@[simp] theorem Dev.putBoot_atm (v : Boot) : (d.putBoot v).atm = d.atm := rfl
@[simp] theorem Dev.putBoot_lanes (v : Boot) : (d.putBoot v).lanes = d.lanes := rfl
@[simp] theorem Dev.putBoot_ports (v : Boot) : (d.putBoot v).ports = d.ports := rfl
@[simp] theorem Dev.putBoot_cells (v : Boot) : (d.putBoot v).cells = d.cells := rfl
@[simp] theorem Dev.putBoot_safe (v : Boot) : (d.putBoot v).safe = d.safe := rfl
@[simp] theorem Dev.putBoot_clk (v : Boot) : (d.putBoot v).clk = d.clk := rfl
@[simp] theorem Dev.putBoot_servos (v : Boot) : (d.putBoot v).servos = d.servos := rfl
@[simp] theorem Dev.putBoot_tsrv (v : Boot) : (d.putBoot v).tsrv = d.tsrv := rfl
@[simp] theorem Dev.putBoot_twin (v : Boot) : (d.putBoot v).twin = d.twin := rfl
@[simp] theorem Dev.putBoot_net (v : Boot) : (d.putBoot v).net = d.net := rfl
@[simp] theorem Dev.putBoot_engs (v : Boot) : (d.putBoot v).engs = d.engs := rfl
@[simp] theorem Dev.putBoot_xq (v : Boot) : (d.putBoot v).xq = d.xq := rfl
@[simp] theorem Dev.putBoot_outQ (v : Boot) : (d.putBoot v).outQ = d.outQ := rfl
@[simp] theorem Dev.putBoot_sorts (v : Boot) : (d.putBoot v).sorts = d.sorts := rfl
@[simp] theorem Dev.putBoot_sils (v : Boot) : (d.putBoot v).sils = d.sils := rfl
@[simp] theorem Dev.putBoot_img (v : Boot) : (d.putBoot v).img = d.img := rfl
@[simp] theorem Dev.putBoot_fused (v : Boot) : (d.putBoot v).fused = d.fused := rfl
@[simp] theorem Dev.putBoot_fmCal (v : Boot) : (d.putBoot v).fmCal = d.fmCal := rfl
@[simp] theorem Dev.putBoot_adcs (v : Boot) : (d.putBoot v).adcs = d.adcs := rfl
@[simp] theorem Dev.putBoot_cmp (v : Boot) : (d.putBoot v).cmp = d.cmp := rfl
@[simp] theorem Dev.putBoot_tmon (v : Boot) : (d.putBoot v).tmon = d.tmon := rfl
@[simp] theorem Dev.putBoot_met (v : Boot) : (d.putBoot v).met = d.met := rfl
@[simp] theorem Dev.putBoot_sup (v : Boot) : (d.putBoot v).sup = d.sup := rfl
@[simp] theorem Dev.putBoot_per (v : Boot) : (d.putBoot v).per = d.per := rfl
@[simp] theorem Dev.putBoot_snap (v : Boot) : (d.putBoot v).snap = d.snap := rfl
@[simp] theorem Dev.putTwin_twin (v : Twin) : (d.putTwin v).twin = v := rfl
@[simp] theorem Dev.putTwin_rd (v : Twin) (r : Nat) : (d.putTwin v).rd r = d.rd r := rfl
@[simp] theorem Dev.putTwin_fld (v : Twin) (r lo w : Nat) : (d.putTwin v).fld r lo w = d.fld r lo w := rfl
@[simp] theorem Dev.putTwin_bit (v : Twin) (r j : Nat) : (d.putTwin v).bit r j = d.bit r j := rfl
@[simp] theorem Dev.putTwin_fm (v : Twin) : (d.putTwin v).fm = d.fm := rfl
@[simp] theorem Dev.putTwin_twinId (v : Twin) : (d.putTwin v).twinId = d.twinId := rfl
@[simp] theorem Dev.putTwin_regs (v : Twin) : (d.putTwin v).regs = d.regs := rfl
@[simp] theorem Dev.putTwin_mem (v : Twin) : (d.putTwin v).mem = d.mem := rfl
@[simp] theorem Dev.putTwin_ecc (v : Twin) : (d.putTwin v).ecc = d.ecc := rfl
@[simp] theorem Dev.putTwin_shadow (v : Twin) : (d.putTwin v).shadow = d.shadow := rfl
@[simp] theorem Dev.putTwin_scrubPos (v : Twin) : (d.putTwin v).scrubPos = d.scrubPos := rfl
@[simp] theorem Dev.putTwin_outbox (v : Twin) : (d.putTwin v).outbox = d.outbox := rfl
@[simp] theorem Dev.putTwin_busResp (v : Twin) : (d.putTwin v).busResp = d.busResp := rfl
@[simp] theorem Dev.putTwin_freeCtr (v : Twin) : (d.putTwin v).freeCtr = d.freeCtr := rfl
@[simp] theorem Dev.putTwin_tb (v : Twin) : (d.putTwin v).tb = d.tb := rfl
@[simp] theorem Dev.putTwin_pwr (v : Twin) : (d.putTwin v).pwr = d.pwr := rfl
@[simp] theorem Dev.putTwin_amb (v : Twin) : (d.putTwin v).amb = d.amb := rfl
@[simp] theorem Dev.putTwin_fc (v : Twin) : (d.putTwin v).fc = d.fc := rfl
@[simp] theorem Dev.putTwin_pdrvLow (v : Twin) : (d.putTwin v).pdrvLow = d.pdrvLow := rfl
@[simp] theorem Dev.putTwin_grdyBad (v : Twin) : (d.putTwin v).grdyBad = d.grdyBad := rfl
@[simp] theorem Dev.putTwin_gates (v : Twin) : (d.putTwin v).gates = d.gates := rfl
@[simp] theorem Dev.putTwin_rearmP (v : Twin) : (d.putTwin v).rearmP = d.rearmP := rfl
@[simp] theorem Dev.putTwin_atm (v : Twin) : (d.putTwin v).atm = d.atm := rfl
@[simp] theorem Dev.putTwin_lanes (v : Twin) : (d.putTwin v).lanes = d.lanes := rfl
@[simp] theorem Dev.putTwin_ports (v : Twin) : (d.putTwin v).ports = d.ports := rfl
@[simp] theorem Dev.putTwin_cells (v : Twin) : (d.putTwin v).cells = d.cells := rfl
@[simp] theorem Dev.putTwin_safe (v : Twin) : (d.putTwin v).safe = d.safe := rfl
@[simp] theorem Dev.putTwin_clk (v : Twin) : (d.putTwin v).clk = d.clk := rfl
@[simp] theorem Dev.putTwin_servos (v : Twin) : (d.putTwin v).servos = d.servos := rfl
@[simp] theorem Dev.putTwin_tsrv (v : Twin) : (d.putTwin v).tsrv = d.tsrv := rfl
@[simp] theorem Dev.putTwin_boot (v : Twin) : (d.putTwin v).boot = d.boot := rfl
@[simp] theorem Dev.putTwin_net (v : Twin) : (d.putTwin v).net = d.net := rfl
@[simp] theorem Dev.putTwin_engs (v : Twin) : (d.putTwin v).engs = d.engs := rfl
@[simp] theorem Dev.putTwin_xq (v : Twin) : (d.putTwin v).xq = d.xq := rfl
@[simp] theorem Dev.putTwin_outQ (v : Twin) : (d.putTwin v).outQ = d.outQ := rfl
@[simp] theorem Dev.putTwin_sorts (v : Twin) : (d.putTwin v).sorts = d.sorts := rfl
@[simp] theorem Dev.putTwin_sils (v : Twin) : (d.putTwin v).sils = d.sils := rfl
@[simp] theorem Dev.putTwin_img (v : Twin) : (d.putTwin v).img = d.img := rfl
@[simp] theorem Dev.putTwin_fused (v : Twin) : (d.putTwin v).fused = d.fused := rfl
@[simp] theorem Dev.putTwin_fmCal (v : Twin) : (d.putTwin v).fmCal = d.fmCal := rfl
@[simp] theorem Dev.putTwin_adcs (v : Twin) : (d.putTwin v).adcs = d.adcs := rfl
@[simp] theorem Dev.putTwin_cmp (v : Twin) : (d.putTwin v).cmp = d.cmp := rfl
@[simp] theorem Dev.putTwin_tmon (v : Twin) : (d.putTwin v).tmon = d.tmon := rfl
@[simp] theorem Dev.putTwin_met (v : Twin) : (d.putTwin v).met = d.met := rfl
@[simp] theorem Dev.putTwin_sup (v : Twin) : (d.putTwin v).sup = d.sup := rfl
@[simp] theorem Dev.putTwin_per (v : Twin) : (d.putTwin v).per = d.per := rfl
@[simp] theorem Dev.putTwin_snap (v : Twin) : (d.putTwin v).snap = d.snap := rfl
@[simp] theorem Dev.putNet_net (v : Net) : (d.putNet v).net = v := rfl
@[simp] theorem Dev.putNet_rd (v : Net) (r : Nat) : (d.putNet v).rd r = d.rd r := rfl
@[simp] theorem Dev.putNet_fld (v : Net) (r lo w : Nat) : (d.putNet v).fld r lo w = d.fld r lo w := rfl
@[simp] theorem Dev.putNet_bit (v : Net) (r j : Nat) : (d.putNet v).bit r j = d.bit r j := rfl
@[simp] theorem Dev.putNet_fm (v : Net) : (d.putNet v).fm = d.fm := rfl
@[simp] theorem Dev.putNet_twinId (v : Net) : (d.putNet v).twinId = d.twinId := rfl
@[simp] theorem Dev.putNet_regs (v : Net) : (d.putNet v).regs = d.regs := rfl
@[simp] theorem Dev.putNet_mem (v : Net) : (d.putNet v).mem = d.mem := rfl
@[simp] theorem Dev.putNet_ecc (v : Net) : (d.putNet v).ecc = d.ecc := rfl
@[simp] theorem Dev.putNet_shadow (v : Net) : (d.putNet v).shadow = d.shadow := rfl
@[simp] theorem Dev.putNet_scrubPos (v : Net) : (d.putNet v).scrubPos = d.scrubPos := rfl
@[simp] theorem Dev.putNet_outbox (v : Net) : (d.putNet v).outbox = d.outbox := rfl
@[simp] theorem Dev.putNet_busResp (v : Net) : (d.putNet v).busResp = d.busResp := rfl
@[simp] theorem Dev.putNet_freeCtr (v : Net) : (d.putNet v).freeCtr = d.freeCtr := rfl
@[simp] theorem Dev.putNet_tb (v : Net) : (d.putNet v).tb = d.tb := rfl
@[simp] theorem Dev.putNet_pwr (v : Net) : (d.putNet v).pwr = d.pwr := rfl
@[simp] theorem Dev.putNet_amb (v : Net) : (d.putNet v).amb = d.amb := rfl
@[simp] theorem Dev.putNet_fc (v : Net) : (d.putNet v).fc = d.fc := rfl
@[simp] theorem Dev.putNet_pdrvLow (v : Net) : (d.putNet v).pdrvLow = d.pdrvLow := rfl
@[simp] theorem Dev.putNet_grdyBad (v : Net) : (d.putNet v).grdyBad = d.grdyBad := rfl
@[simp] theorem Dev.putNet_gates (v : Net) : (d.putNet v).gates = d.gates := rfl
@[simp] theorem Dev.putNet_rearmP (v : Net) : (d.putNet v).rearmP = d.rearmP := rfl
@[simp] theorem Dev.putNet_atm (v : Net) : (d.putNet v).atm = d.atm := rfl
@[simp] theorem Dev.putNet_lanes (v : Net) : (d.putNet v).lanes = d.lanes := rfl
@[simp] theorem Dev.putNet_ports (v : Net) : (d.putNet v).ports = d.ports := rfl
@[simp] theorem Dev.putNet_cells (v : Net) : (d.putNet v).cells = d.cells := rfl
@[simp] theorem Dev.putNet_safe (v : Net) : (d.putNet v).safe = d.safe := rfl
@[simp] theorem Dev.putNet_clk (v : Net) : (d.putNet v).clk = d.clk := rfl
@[simp] theorem Dev.putNet_servos (v : Net) : (d.putNet v).servos = d.servos := rfl
@[simp] theorem Dev.putNet_tsrv (v : Net) : (d.putNet v).tsrv = d.tsrv := rfl
@[simp] theorem Dev.putNet_boot (v : Net) : (d.putNet v).boot = d.boot := rfl
@[simp] theorem Dev.putNet_twin (v : Net) : (d.putNet v).twin = d.twin := rfl
@[simp] theorem Dev.putNet_engs (v : Net) : (d.putNet v).engs = d.engs := rfl
@[simp] theorem Dev.putNet_xq (v : Net) : (d.putNet v).xq = d.xq := rfl
@[simp] theorem Dev.putNet_outQ (v : Net) : (d.putNet v).outQ = d.outQ := rfl
@[simp] theorem Dev.putNet_sorts (v : Net) : (d.putNet v).sorts = d.sorts := rfl
@[simp] theorem Dev.putNet_sils (v : Net) : (d.putNet v).sils = d.sils := rfl
@[simp] theorem Dev.putNet_img (v : Net) : (d.putNet v).img = d.img := rfl
@[simp] theorem Dev.putNet_fused (v : Net) : (d.putNet v).fused = d.fused := rfl
@[simp] theorem Dev.putNet_fmCal (v : Net) : (d.putNet v).fmCal = d.fmCal := rfl
@[simp] theorem Dev.putNet_adcs (v : Net) : (d.putNet v).adcs = d.adcs := rfl
@[simp] theorem Dev.putNet_cmp (v : Net) : (d.putNet v).cmp = d.cmp := rfl
@[simp] theorem Dev.putNet_tmon (v : Net) : (d.putNet v).tmon = d.tmon := rfl
@[simp] theorem Dev.putNet_met (v : Net) : (d.putNet v).met = d.met := rfl
@[simp] theorem Dev.putNet_sup (v : Net) : (d.putNet v).sup = d.sup := rfl
@[simp] theorem Dev.putNet_per (v : Net) : (d.putNet v).per = d.per := rfl
@[simp] theorem Dev.putNet_snap (v : Net) : (d.putNet v).snap = d.snap := rfl
@[simp] theorem Dev.putEngs_engs (v : SMap Eng) : (d.putEngs v).engs = v := rfl
@[simp] theorem Dev.putEngs_rd (v : SMap Eng) (r : Nat) : (d.putEngs v).rd r = d.rd r := rfl
@[simp] theorem Dev.putEngs_fld (v : SMap Eng) (r lo w : Nat) : (d.putEngs v).fld r lo w = d.fld r lo w := rfl
@[simp] theorem Dev.putEngs_bit (v : SMap Eng) (r j : Nat) : (d.putEngs v).bit r j = d.bit r j := rfl
@[simp] theorem Dev.putEngs_fm (v : SMap Eng) : (d.putEngs v).fm = d.fm := rfl
@[simp] theorem Dev.putEngs_twinId (v : SMap Eng) : (d.putEngs v).twinId = d.twinId := rfl
@[simp] theorem Dev.putEngs_regs (v : SMap Eng) : (d.putEngs v).regs = d.regs := rfl
@[simp] theorem Dev.putEngs_mem (v : SMap Eng) : (d.putEngs v).mem = d.mem := rfl
@[simp] theorem Dev.putEngs_ecc (v : SMap Eng) : (d.putEngs v).ecc = d.ecc := rfl
@[simp] theorem Dev.putEngs_shadow (v : SMap Eng) : (d.putEngs v).shadow = d.shadow := rfl
@[simp] theorem Dev.putEngs_scrubPos (v : SMap Eng) : (d.putEngs v).scrubPos = d.scrubPos := rfl
@[simp] theorem Dev.putEngs_outbox (v : SMap Eng) : (d.putEngs v).outbox = d.outbox := rfl
@[simp] theorem Dev.putEngs_busResp (v : SMap Eng) : (d.putEngs v).busResp = d.busResp := rfl
@[simp] theorem Dev.putEngs_freeCtr (v : SMap Eng) : (d.putEngs v).freeCtr = d.freeCtr := rfl
@[simp] theorem Dev.putEngs_tb (v : SMap Eng) : (d.putEngs v).tb = d.tb := rfl
@[simp] theorem Dev.putEngs_pwr (v : SMap Eng) : (d.putEngs v).pwr = d.pwr := rfl
@[simp] theorem Dev.putEngs_amb (v : SMap Eng) : (d.putEngs v).amb = d.amb := rfl
@[simp] theorem Dev.putEngs_fc (v : SMap Eng) : (d.putEngs v).fc = d.fc := rfl
@[simp] theorem Dev.putEngs_pdrvLow (v : SMap Eng) : (d.putEngs v).pdrvLow = d.pdrvLow := rfl
@[simp] theorem Dev.putEngs_grdyBad (v : SMap Eng) : (d.putEngs v).grdyBad = d.grdyBad := rfl
@[simp] theorem Dev.putEngs_gates (v : SMap Eng) : (d.putEngs v).gates = d.gates := rfl
@[simp] theorem Dev.putEngs_rearmP (v : SMap Eng) : (d.putEngs v).rearmP = d.rearmP := rfl
@[simp] theorem Dev.putEngs_atm (v : SMap Eng) : (d.putEngs v).atm = d.atm := rfl
@[simp] theorem Dev.putEngs_lanes (v : SMap Eng) : (d.putEngs v).lanes = d.lanes := rfl
@[simp] theorem Dev.putEngs_ports (v : SMap Eng) : (d.putEngs v).ports = d.ports := rfl
@[simp] theorem Dev.putEngs_cells (v : SMap Eng) : (d.putEngs v).cells = d.cells := rfl
@[simp] theorem Dev.putEngs_safe (v : SMap Eng) : (d.putEngs v).safe = d.safe := rfl
@[simp] theorem Dev.putEngs_clk (v : SMap Eng) : (d.putEngs v).clk = d.clk := rfl
@[simp] theorem Dev.putEngs_servos (v : SMap Eng) : (d.putEngs v).servos = d.servos := rfl
@[simp] theorem Dev.putEngs_tsrv (v : SMap Eng) : (d.putEngs v).tsrv = d.tsrv := rfl
@[simp] theorem Dev.putEngs_boot (v : SMap Eng) : (d.putEngs v).boot = d.boot := rfl
@[simp] theorem Dev.putEngs_twin (v : SMap Eng) : (d.putEngs v).twin = d.twin := rfl
@[simp] theorem Dev.putEngs_net (v : SMap Eng) : (d.putEngs v).net = d.net := rfl
@[simp] theorem Dev.putEngs_xq (v : SMap Eng) : (d.putEngs v).xq = d.xq := rfl
@[simp] theorem Dev.putEngs_outQ (v : SMap Eng) : (d.putEngs v).outQ = d.outQ := rfl
@[simp] theorem Dev.putEngs_sorts (v : SMap Eng) : (d.putEngs v).sorts = d.sorts := rfl
@[simp] theorem Dev.putEngs_sils (v : SMap Eng) : (d.putEngs v).sils = d.sils := rfl
@[simp] theorem Dev.putEngs_img (v : SMap Eng) : (d.putEngs v).img = d.img := rfl
@[simp] theorem Dev.putEngs_fused (v : SMap Eng) : (d.putEngs v).fused = d.fused := rfl
@[simp] theorem Dev.putEngs_fmCal (v : SMap Eng) : (d.putEngs v).fmCal = d.fmCal := rfl
@[simp] theorem Dev.putEngs_adcs (v : SMap Eng) : (d.putEngs v).adcs = d.adcs := rfl
@[simp] theorem Dev.putEngs_cmp (v : SMap Eng) : (d.putEngs v).cmp = d.cmp := rfl
@[simp] theorem Dev.putEngs_tmon (v : SMap Eng) : (d.putEngs v).tmon = d.tmon := rfl
@[simp] theorem Dev.putEngs_met (v : SMap Eng) : (d.putEngs v).met = d.met := rfl
@[simp] theorem Dev.putEngs_sup (v : SMap Eng) : (d.putEngs v).sup = d.sup := rfl
@[simp] theorem Dev.putEngs_per (v : SMap Eng) : (d.putEngs v).per = d.per := rfl
@[simp] theorem Dev.putEngs_snap (v : SMap Eng) : (d.putEngs v).snap = d.snap := rfl
@[simp] theorem Dev.putXq_xq (v : List (Nat × Nat × Nat × Word)) : (d.putXq v).xq = v := rfl
@[simp] theorem Dev.putXq_rd (v : List (Nat × Nat × Nat × Word)) (r : Nat) : (d.putXq v).rd r = d.rd r := rfl
@[simp] theorem Dev.putXq_fld (v : List (Nat × Nat × Nat × Word)) (r lo w : Nat) : (d.putXq v).fld r lo w = d.fld r lo w := rfl
@[simp] theorem Dev.putXq_bit (v : List (Nat × Nat × Nat × Word)) (r j : Nat) : (d.putXq v).bit r j = d.bit r j := rfl
@[simp] theorem Dev.putXq_fm (v : List (Nat × Nat × Nat × Word)) : (d.putXq v).fm = d.fm := rfl
@[simp] theorem Dev.putXq_twinId (v : List (Nat × Nat × Nat × Word)) : (d.putXq v).twinId = d.twinId := rfl
@[simp] theorem Dev.putXq_regs (v : List (Nat × Nat × Nat × Word)) : (d.putXq v).regs = d.regs := rfl
@[simp] theorem Dev.putXq_mem (v : List (Nat × Nat × Nat × Word)) : (d.putXq v).mem = d.mem := rfl
@[simp] theorem Dev.putXq_ecc (v : List (Nat × Nat × Nat × Word)) : (d.putXq v).ecc = d.ecc := rfl
@[simp] theorem Dev.putXq_shadow (v : List (Nat × Nat × Nat × Word)) : (d.putXq v).shadow = d.shadow := rfl
@[simp] theorem Dev.putXq_scrubPos (v : List (Nat × Nat × Nat × Word)) : (d.putXq v).scrubPos = d.scrubPos := rfl
@[simp] theorem Dev.putXq_outbox (v : List (Nat × Nat × Nat × Word)) : (d.putXq v).outbox = d.outbox := rfl
@[simp] theorem Dev.putXq_busResp (v : List (Nat × Nat × Nat × Word)) : (d.putXq v).busResp = d.busResp := rfl
@[simp] theorem Dev.putXq_freeCtr (v : List (Nat × Nat × Nat × Word)) : (d.putXq v).freeCtr = d.freeCtr := rfl
@[simp] theorem Dev.putXq_tb (v : List (Nat × Nat × Nat × Word)) : (d.putXq v).tb = d.tb := rfl
@[simp] theorem Dev.putXq_pwr (v : List (Nat × Nat × Nat × Word)) : (d.putXq v).pwr = d.pwr := rfl
@[simp] theorem Dev.putXq_amb (v : List (Nat × Nat × Nat × Word)) : (d.putXq v).amb = d.amb := rfl
@[simp] theorem Dev.putXq_fc (v : List (Nat × Nat × Nat × Word)) : (d.putXq v).fc = d.fc := rfl
@[simp] theorem Dev.putXq_pdrvLow (v : List (Nat × Nat × Nat × Word)) : (d.putXq v).pdrvLow = d.pdrvLow := rfl
@[simp] theorem Dev.putXq_grdyBad (v : List (Nat × Nat × Nat × Word)) : (d.putXq v).grdyBad = d.grdyBad := rfl
@[simp] theorem Dev.putXq_gates (v : List (Nat × Nat × Nat × Word)) : (d.putXq v).gates = d.gates := rfl
@[simp] theorem Dev.putXq_rearmP (v : List (Nat × Nat × Nat × Word)) : (d.putXq v).rearmP = d.rearmP := rfl
@[simp] theorem Dev.putXq_atm (v : List (Nat × Nat × Nat × Word)) : (d.putXq v).atm = d.atm := rfl
@[simp] theorem Dev.putXq_lanes (v : List (Nat × Nat × Nat × Word)) : (d.putXq v).lanes = d.lanes := rfl
@[simp] theorem Dev.putXq_ports (v : List (Nat × Nat × Nat × Word)) : (d.putXq v).ports = d.ports := rfl
@[simp] theorem Dev.putXq_cells (v : List (Nat × Nat × Nat × Word)) : (d.putXq v).cells = d.cells := rfl
@[simp] theorem Dev.putXq_safe (v : List (Nat × Nat × Nat × Word)) : (d.putXq v).safe = d.safe := rfl
@[simp] theorem Dev.putXq_clk (v : List (Nat × Nat × Nat × Word)) : (d.putXq v).clk = d.clk := rfl
@[simp] theorem Dev.putXq_servos (v : List (Nat × Nat × Nat × Word)) : (d.putXq v).servos = d.servos := rfl
@[simp] theorem Dev.putXq_tsrv (v : List (Nat × Nat × Nat × Word)) : (d.putXq v).tsrv = d.tsrv := rfl
@[simp] theorem Dev.putXq_boot (v : List (Nat × Nat × Nat × Word)) : (d.putXq v).boot = d.boot := rfl
@[simp] theorem Dev.putXq_twin (v : List (Nat × Nat × Nat × Word)) : (d.putXq v).twin = d.twin := rfl
@[simp] theorem Dev.putXq_net (v : List (Nat × Nat × Nat × Word)) : (d.putXq v).net = d.net := rfl
@[simp] theorem Dev.putXq_engs (v : List (Nat × Nat × Nat × Word)) : (d.putXq v).engs = d.engs := rfl
@[simp] theorem Dev.putXq_outQ (v : List (Nat × Nat × Nat × Word)) : (d.putXq v).outQ = d.outQ := rfl
@[simp] theorem Dev.putXq_sorts (v : List (Nat × Nat × Nat × Word)) : (d.putXq v).sorts = d.sorts := rfl
@[simp] theorem Dev.putXq_sils (v : List (Nat × Nat × Nat × Word)) : (d.putXq v).sils = d.sils := rfl
@[simp] theorem Dev.putXq_img (v : List (Nat × Nat × Nat × Word)) : (d.putXq v).img = d.img := rfl
@[simp] theorem Dev.putXq_fused (v : List (Nat × Nat × Nat × Word)) : (d.putXq v).fused = d.fused := rfl
@[simp] theorem Dev.putXq_fmCal (v : List (Nat × Nat × Nat × Word)) : (d.putXq v).fmCal = d.fmCal := rfl
@[simp] theorem Dev.putXq_adcs (v : List (Nat × Nat × Nat × Word)) : (d.putXq v).adcs = d.adcs := rfl
@[simp] theorem Dev.putXq_cmp (v : List (Nat × Nat × Nat × Word)) : (d.putXq v).cmp = d.cmp := rfl
@[simp] theorem Dev.putXq_tmon (v : List (Nat × Nat × Nat × Word)) : (d.putXq v).tmon = d.tmon := rfl
@[simp] theorem Dev.putXq_met (v : List (Nat × Nat × Nat × Word)) : (d.putXq v).met = d.met := rfl
@[simp] theorem Dev.putXq_sup (v : List (Nat × Nat × Nat × Word)) : (d.putXq v).sup = d.sup := rfl
@[simp] theorem Dev.putXq_per (v : List (Nat × Nat × Nat × Word)) : (d.putXq v).per = d.per := rfl
@[simp] theorem Dev.putXq_snap (v : List (Nat × Nat × Nat × Word)) : (d.putXq v).snap = d.snap := rfl
@[simp] theorem Dev.putOutQ_outQ (v : List OutW) : (d.putOutQ v).outQ = v := rfl
@[simp] theorem Dev.putOutQ_rd (v : List OutW) (r : Nat) : (d.putOutQ v).rd r = d.rd r := rfl
@[simp] theorem Dev.putOutQ_fld (v : List OutW) (r lo w : Nat) : (d.putOutQ v).fld r lo w = d.fld r lo w := rfl
@[simp] theorem Dev.putOutQ_bit (v : List OutW) (r j : Nat) : (d.putOutQ v).bit r j = d.bit r j := rfl
@[simp] theorem Dev.putOutQ_fm (v : List OutW) : (d.putOutQ v).fm = d.fm := rfl
@[simp] theorem Dev.putOutQ_twinId (v : List OutW) : (d.putOutQ v).twinId = d.twinId := rfl
@[simp] theorem Dev.putOutQ_regs (v : List OutW) : (d.putOutQ v).regs = d.regs := rfl
@[simp] theorem Dev.putOutQ_mem (v : List OutW) : (d.putOutQ v).mem = d.mem := rfl
@[simp] theorem Dev.putOutQ_ecc (v : List OutW) : (d.putOutQ v).ecc = d.ecc := rfl
@[simp] theorem Dev.putOutQ_shadow (v : List OutW) : (d.putOutQ v).shadow = d.shadow := rfl
@[simp] theorem Dev.putOutQ_scrubPos (v : List OutW) : (d.putOutQ v).scrubPos = d.scrubPos := rfl
@[simp] theorem Dev.putOutQ_outbox (v : List OutW) : (d.putOutQ v).outbox = d.outbox := rfl
@[simp] theorem Dev.putOutQ_busResp (v : List OutW) : (d.putOutQ v).busResp = d.busResp := rfl
@[simp] theorem Dev.putOutQ_freeCtr (v : List OutW) : (d.putOutQ v).freeCtr = d.freeCtr := rfl
@[simp] theorem Dev.putOutQ_tb (v : List OutW) : (d.putOutQ v).tb = d.tb := rfl
@[simp] theorem Dev.putOutQ_pwr (v : List OutW) : (d.putOutQ v).pwr = d.pwr := rfl
@[simp] theorem Dev.putOutQ_amb (v : List OutW) : (d.putOutQ v).amb = d.amb := rfl
@[simp] theorem Dev.putOutQ_fc (v : List OutW) : (d.putOutQ v).fc = d.fc := rfl
@[simp] theorem Dev.putOutQ_pdrvLow (v : List OutW) : (d.putOutQ v).pdrvLow = d.pdrvLow := rfl
@[simp] theorem Dev.putOutQ_grdyBad (v : List OutW) : (d.putOutQ v).grdyBad = d.grdyBad := rfl
@[simp] theorem Dev.putOutQ_gates (v : List OutW) : (d.putOutQ v).gates = d.gates := rfl
@[simp] theorem Dev.putOutQ_rearmP (v : List OutW) : (d.putOutQ v).rearmP = d.rearmP := rfl
@[simp] theorem Dev.putOutQ_atm (v : List OutW) : (d.putOutQ v).atm = d.atm := rfl
@[simp] theorem Dev.putOutQ_lanes (v : List OutW) : (d.putOutQ v).lanes = d.lanes := rfl
@[simp] theorem Dev.putOutQ_ports (v : List OutW) : (d.putOutQ v).ports = d.ports := rfl
@[simp] theorem Dev.putOutQ_cells (v : List OutW) : (d.putOutQ v).cells = d.cells := rfl
@[simp] theorem Dev.putOutQ_safe (v : List OutW) : (d.putOutQ v).safe = d.safe := rfl
@[simp] theorem Dev.putOutQ_clk (v : List OutW) : (d.putOutQ v).clk = d.clk := rfl
@[simp] theorem Dev.putOutQ_servos (v : List OutW) : (d.putOutQ v).servos = d.servos := rfl
@[simp] theorem Dev.putOutQ_tsrv (v : List OutW) : (d.putOutQ v).tsrv = d.tsrv := rfl
@[simp] theorem Dev.putOutQ_boot (v : List OutW) : (d.putOutQ v).boot = d.boot := rfl
@[simp] theorem Dev.putOutQ_twin (v : List OutW) : (d.putOutQ v).twin = d.twin := rfl
@[simp] theorem Dev.putOutQ_net (v : List OutW) : (d.putOutQ v).net = d.net := rfl
@[simp] theorem Dev.putOutQ_engs (v : List OutW) : (d.putOutQ v).engs = d.engs := rfl
@[simp] theorem Dev.putOutQ_xq (v : List OutW) : (d.putOutQ v).xq = d.xq := rfl
@[simp] theorem Dev.putOutQ_sorts (v : List OutW) : (d.putOutQ v).sorts = d.sorts := rfl
@[simp] theorem Dev.putOutQ_sils (v : List OutW) : (d.putOutQ v).sils = d.sils := rfl
@[simp] theorem Dev.putOutQ_img (v : List OutW) : (d.putOutQ v).img = d.img := rfl
@[simp] theorem Dev.putOutQ_fused (v : List OutW) : (d.putOutQ v).fused = d.fused := rfl
@[simp] theorem Dev.putOutQ_fmCal (v : List OutW) : (d.putOutQ v).fmCal = d.fmCal := rfl
@[simp] theorem Dev.putOutQ_adcs (v : List OutW) : (d.putOutQ v).adcs = d.adcs := rfl
@[simp] theorem Dev.putOutQ_cmp (v : List OutW) : (d.putOutQ v).cmp = d.cmp := rfl
@[simp] theorem Dev.putOutQ_tmon (v : List OutW) : (d.putOutQ v).tmon = d.tmon := rfl
@[simp] theorem Dev.putOutQ_met (v : List OutW) : (d.putOutQ v).met = d.met := rfl
@[simp] theorem Dev.putOutQ_sup (v : List OutW) : (d.putOutQ v).sup = d.sup := rfl
@[simp] theorem Dev.putOutQ_per (v : List OutW) : (d.putOutQ v).per = d.per := rfl
@[simp] theorem Dev.putOutQ_snap (v : List OutW) : (d.putOutQ v).snap = d.snap := rfl
@[simp] theorem Dev.putSorts_sorts (v : SMap SortU) : (d.putSorts v).sorts = v := rfl
@[simp] theorem Dev.putSorts_rd (v : SMap SortU) (r : Nat) : (d.putSorts v).rd r = d.rd r := rfl
@[simp] theorem Dev.putSorts_fld (v : SMap SortU) (r lo w : Nat) : (d.putSorts v).fld r lo w = d.fld r lo w := rfl
@[simp] theorem Dev.putSorts_bit (v : SMap SortU) (r j : Nat) : (d.putSorts v).bit r j = d.bit r j := rfl
@[simp] theorem Dev.putSorts_fm (v : SMap SortU) : (d.putSorts v).fm = d.fm := rfl
@[simp] theorem Dev.putSorts_twinId (v : SMap SortU) : (d.putSorts v).twinId = d.twinId := rfl
@[simp] theorem Dev.putSorts_regs (v : SMap SortU) : (d.putSorts v).regs = d.regs := rfl
@[simp] theorem Dev.putSorts_mem (v : SMap SortU) : (d.putSorts v).mem = d.mem := rfl
@[simp] theorem Dev.putSorts_ecc (v : SMap SortU) : (d.putSorts v).ecc = d.ecc := rfl
@[simp] theorem Dev.putSorts_shadow (v : SMap SortU) : (d.putSorts v).shadow = d.shadow := rfl
@[simp] theorem Dev.putSorts_scrubPos (v : SMap SortU) : (d.putSorts v).scrubPos = d.scrubPos := rfl
@[simp] theorem Dev.putSorts_outbox (v : SMap SortU) : (d.putSorts v).outbox = d.outbox := rfl
@[simp] theorem Dev.putSorts_busResp (v : SMap SortU) : (d.putSorts v).busResp = d.busResp := rfl
@[simp] theorem Dev.putSorts_freeCtr (v : SMap SortU) : (d.putSorts v).freeCtr = d.freeCtr := rfl
@[simp] theorem Dev.putSorts_tb (v : SMap SortU) : (d.putSorts v).tb = d.tb := rfl
@[simp] theorem Dev.putSorts_pwr (v : SMap SortU) : (d.putSorts v).pwr = d.pwr := rfl
@[simp] theorem Dev.putSorts_amb (v : SMap SortU) : (d.putSorts v).amb = d.amb := rfl
@[simp] theorem Dev.putSorts_fc (v : SMap SortU) : (d.putSorts v).fc = d.fc := rfl
@[simp] theorem Dev.putSorts_pdrvLow (v : SMap SortU) : (d.putSorts v).pdrvLow = d.pdrvLow := rfl
@[simp] theorem Dev.putSorts_grdyBad (v : SMap SortU) : (d.putSorts v).grdyBad = d.grdyBad := rfl
@[simp] theorem Dev.putSorts_gates (v : SMap SortU) : (d.putSorts v).gates = d.gates := rfl
@[simp] theorem Dev.putSorts_rearmP (v : SMap SortU) : (d.putSorts v).rearmP = d.rearmP := rfl
@[simp] theorem Dev.putSorts_atm (v : SMap SortU) : (d.putSorts v).atm = d.atm := rfl
@[simp] theorem Dev.putSorts_lanes (v : SMap SortU) : (d.putSorts v).lanes = d.lanes := rfl
@[simp] theorem Dev.putSorts_ports (v : SMap SortU) : (d.putSorts v).ports = d.ports := rfl
@[simp] theorem Dev.putSorts_cells (v : SMap SortU) : (d.putSorts v).cells = d.cells := rfl
@[simp] theorem Dev.putSorts_safe (v : SMap SortU) : (d.putSorts v).safe = d.safe := rfl
@[simp] theorem Dev.putSorts_clk (v : SMap SortU) : (d.putSorts v).clk = d.clk := rfl
@[simp] theorem Dev.putSorts_servos (v : SMap SortU) : (d.putSorts v).servos = d.servos := rfl
@[simp] theorem Dev.putSorts_tsrv (v : SMap SortU) : (d.putSorts v).tsrv = d.tsrv := rfl
@[simp] theorem Dev.putSorts_boot (v : SMap SortU) : (d.putSorts v).boot = d.boot := rfl
@[simp] theorem Dev.putSorts_twin (v : SMap SortU) : (d.putSorts v).twin = d.twin := rfl
@[simp] theorem Dev.putSorts_net (v : SMap SortU) : (d.putSorts v).net = d.net := rfl
@[simp] theorem Dev.putSorts_engs (v : SMap SortU) : (d.putSorts v).engs = d.engs := rfl
@[simp] theorem Dev.putSorts_xq (v : SMap SortU) : (d.putSorts v).xq = d.xq := rfl
@[simp] theorem Dev.putSorts_outQ (v : SMap SortU) : (d.putSorts v).outQ = d.outQ := rfl
@[simp] theorem Dev.putSorts_sils (v : SMap SortU) : (d.putSorts v).sils = d.sils := rfl
@[simp] theorem Dev.putSorts_img (v : SMap SortU) : (d.putSorts v).img = d.img := rfl
@[simp] theorem Dev.putSorts_fused (v : SMap SortU) : (d.putSorts v).fused = d.fused := rfl
@[simp] theorem Dev.putSorts_fmCal (v : SMap SortU) : (d.putSorts v).fmCal = d.fmCal := rfl
@[simp] theorem Dev.putSorts_adcs (v : SMap SortU) : (d.putSorts v).adcs = d.adcs := rfl
@[simp] theorem Dev.putSorts_cmp (v : SMap SortU) : (d.putSorts v).cmp = d.cmp := rfl
@[simp] theorem Dev.putSorts_tmon (v : SMap SortU) : (d.putSorts v).tmon = d.tmon := rfl
@[simp] theorem Dev.putSorts_met (v : SMap SortU) : (d.putSorts v).met = d.met := rfl
@[simp] theorem Dev.putSorts_sup (v : SMap SortU) : (d.putSorts v).sup = d.sup := rfl
@[simp] theorem Dev.putSorts_per (v : SMap SortU) : (d.putSorts v).per = d.per := rfl
@[simp] theorem Dev.putSorts_snap (v : SMap SortU) : (d.putSorts v).snap = d.snap := rfl
@[simp] theorem Dev.putSils_sils (v : SMap Sil) : (d.putSils v).sils = v := rfl
@[simp] theorem Dev.putSils_rd (v : SMap Sil) (r : Nat) : (d.putSils v).rd r = d.rd r := rfl
@[simp] theorem Dev.putSils_fld (v : SMap Sil) (r lo w : Nat) : (d.putSils v).fld r lo w = d.fld r lo w := rfl
@[simp] theorem Dev.putSils_bit (v : SMap Sil) (r j : Nat) : (d.putSils v).bit r j = d.bit r j := rfl
@[simp] theorem Dev.putSils_fm (v : SMap Sil) : (d.putSils v).fm = d.fm := rfl
@[simp] theorem Dev.putSils_twinId (v : SMap Sil) : (d.putSils v).twinId = d.twinId := rfl
@[simp] theorem Dev.putSils_regs (v : SMap Sil) : (d.putSils v).regs = d.regs := rfl
@[simp] theorem Dev.putSils_mem (v : SMap Sil) : (d.putSils v).mem = d.mem := rfl
@[simp] theorem Dev.putSils_ecc (v : SMap Sil) : (d.putSils v).ecc = d.ecc := rfl
@[simp] theorem Dev.putSils_shadow (v : SMap Sil) : (d.putSils v).shadow = d.shadow := rfl
@[simp] theorem Dev.putSils_scrubPos (v : SMap Sil) : (d.putSils v).scrubPos = d.scrubPos := rfl
@[simp] theorem Dev.putSils_outbox (v : SMap Sil) : (d.putSils v).outbox = d.outbox := rfl
@[simp] theorem Dev.putSils_busResp (v : SMap Sil) : (d.putSils v).busResp = d.busResp := rfl
@[simp] theorem Dev.putSils_freeCtr (v : SMap Sil) : (d.putSils v).freeCtr = d.freeCtr := rfl
@[simp] theorem Dev.putSils_tb (v : SMap Sil) : (d.putSils v).tb = d.tb := rfl
@[simp] theorem Dev.putSils_pwr (v : SMap Sil) : (d.putSils v).pwr = d.pwr := rfl
@[simp] theorem Dev.putSils_amb (v : SMap Sil) : (d.putSils v).amb = d.amb := rfl
@[simp] theorem Dev.putSils_fc (v : SMap Sil) : (d.putSils v).fc = d.fc := rfl
@[simp] theorem Dev.putSils_pdrvLow (v : SMap Sil) : (d.putSils v).pdrvLow = d.pdrvLow := rfl
@[simp] theorem Dev.putSils_grdyBad (v : SMap Sil) : (d.putSils v).grdyBad = d.grdyBad := rfl
@[simp] theorem Dev.putSils_gates (v : SMap Sil) : (d.putSils v).gates = d.gates := rfl
@[simp] theorem Dev.putSils_rearmP (v : SMap Sil) : (d.putSils v).rearmP = d.rearmP := rfl
@[simp] theorem Dev.putSils_atm (v : SMap Sil) : (d.putSils v).atm = d.atm := rfl
@[simp] theorem Dev.putSils_lanes (v : SMap Sil) : (d.putSils v).lanes = d.lanes := rfl
@[simp] theorem Dev.putSils_ports (v : SMap Sil) : (d.putSils v).ports = d.ports := rfl
@[simp] theorem Dev.putSils_cells (v : SMap Sil) : (d.putSils v).cells = d.cells := rfl
@[simp] theorem Dev.putSils_safe (v : SMap Sil) : (d.putSils v).safe = d.safe := rfl
@[simp] theorem Dev.putSils_clk (v : SMap Sil) : (d.putSils v).clk = d.clk := rfl
@[simp] theorem Dev.putSils_servos (v : SMap Sil) : (d.putSils v).servos = d.servos := rfl
@[simp] theorem Dev.putSils_tsrv (v : SMap Sil) : (d.putSils v).tsrv = d.tsrv := rfl
@[simp] theorem Dev.putSils_boot (v : SMap Sil) : (d.putSils v).boot = d.boot := rfl
@[simp] theorem Dev.putSils_twin (v : SMap Sil) : (d.putSils v).twin = d.twin := rfl
@[simp] theorem Dev.putSils_net (v : SMap Sil) : (d.putSils v).net = d.net := rfl
@[simp] theorem Dev.putSils_engs (v : SMap Sil) : (d.putSils v).engs = d.engs := rfl
@[simp] theorem Dev.putSils_xq (v : SMap Sil) : (d.putSils v).xq = d.xq := rfl
@[simp] theorem Dev.putSils_outQ (v : SMap Sil) : (d.putSils v).outQ = d.outQ := rfl
@[simp] theorem Dev.putSils_sorts (v : SMap Sil) : (d.putSils v).sorts = d.sorts := rfl
@[simp] theorem Dev.putSils_img (v : SMap Sil) : (d.putSils v).img = d.img := rfl
@[simp] theorem Dev.putSils_fused (v : SMap Sil) : (d.putSils v).fused = d.fused := rfl
@[simp] theorem Dev.putSils_fmCal (v : SMap Sil) : (d.putSils v).fmCal = d.fmCal := rfl
@[simp] theorem Dev.putSils_adcs (v : SMap Sil) : (d.putSils v).adcs = d.adcs := rfl
@[simp] theorem Dev.putSils_cmp (v : SMap Sil) : (d.putSils v).cmp = d.cmp := rfl
@[simp] theorem Dev.putSils_tmon (v : SMap Sil) : (d.putSils v).tmon = d.tmon := rfl
@[simp] theorem Dev.putSils_met (v : SMap Sil) : (d.putSils v).met = d.met := rfl
@[simp] theorem Dev.putSils_sup (v : SMap Sil) : (d.putSils v).sup = d.sup := rfl
@[simp] theorem Dev.putSils_per (v : SMap Sil) : (d.putSils v).per = d.per := rfl
@[simp] theorem Dev.putSils_snap (v : SMap Sil) : (d.putSils v).snap = d.snap := rfl
@[simp] theorem Dev.putImg_img (v : SMap Word) : (d.putImg v).img = v := rfl
@[simp] theorem Dev.putImg_rd (v : SMap Word) (r : Nat) : (d.putImg v).rd r = d.rd r := rfl
@[simp] theorem Dev.putImg_fld (v : SMap Word) (r lo w : Nat) : (d.putImg v).fld r lo w = d.fld r lo w := rfl
@[simp] theorem Dev.putImg_bit (v : SMap Word) (r j : Nat) : (d.putImg v).bit r j = d.bit r j := rfl
@[simp] theorem Dev.putImg_fm (v : SMap Word) : (d.putImg v).fm = d.fm := rfl
@[simp] theorem Dev.putImg_twinId (v : SMap Word) : (d.putImg v).twinId = d.twinId := rfl
@[simp] theorem Dev.putImg_regs (v : SMap Word) : (d.putImg v).regs = d.regs := rfl
@[simp] theorem Dev.putImg_mem (v : SMap Word) : (d.putImg v).mem = d.mem := rfl
@[simp] theorem Dev.putImg_ecc (v : SMap Word) : (d.putImg v).ecc = d.ecc := rfl
@[simp] theorem Dev.putImg_shadow (v : SMap Word) : (d.putImg v).shadow = d.shadow := rfl
@[simp] theorem Dev.putImg_scrubPos (v : SMap Word) : (d.putImg v).scrubPos = d.scrubPos := rfl
@[simp] theorem Dev.putImg_outbox (v : SMap Word) : (d.putImg v).outbox = d.outbox := rfl
@[simp] theorem Dev.putImg_busResp (v : SMap Word) : (d.putImg v).busResp = d.busResp := rfl
@[simp] theorem Dev.putImg_freeCtr (v : SMap Word) : (d.putImg v).freeCtr = d.freeCtr := rfl
@[simp] theorem Dev.putImg_tb (v : SMap Word) : (d.putImg v).tb = d.tb := rfl
@[simp] theorem Dev.putImg_pwr (v : SMap Word) : (d.putImg v).pwr = d.pwr := rfl
@[simp] theorem Dev.putImg_amb (v : SMap Word) : (d.putImg v).amb = d.amb := rfl
@[simp] theorem Dev.putImg_fc (v : SMap Word) : (d.putImg v).fc = d.fc := rfl
@[simp] theorem Dev.putImg_pdrvLow (v : SMap Word) : (d.putImg v).pdrvLow = d.pdrvLow := rfl
@[simp] theorem Dev.putImg_grdyBad (v : SMap Word) : (d.putImg v).grdyBad = d.grdyBad := rfl
@[simp] theorem Dev.putImg_gates (v : SMap Word) : (d.putImg v).gates = d.gates := rfl
@[simp] theorem Dev.putImg_rearmP (v : SMap Word) : (d.putImg v).rearmP = d.rearmP := rfl
@[simp] theorem Dev.putImg_atm (v : SMap Word) : (d.putImg v).atm = d.atm := rfl
@[simp] theorem Dev.putImg_lanes (v : SMap Word) : (d.putImg v).lanes = d.lanes := rfl
@[simp] theorem Dev.putImg_ports (v : SMap Word) : (d.putImg v).ports = d.ports := rfl
@[simp] theorem Dev.putImg_cells (v : SMap Word) : (d.putImg v).cells = d.cells := rfl
@[simp] theorem Dev.putImg_safe (v : SMap Word) : (d.putImg v).safe = d.safe := rfl
@[simp] theorem Dev.putImg_clk (v : SMap Word) : (d.putImg v).clk = d.clk := rfl
@[simp] theorem Dev.putImg_servos (v : SMap Word) : (d.putImg v).servos = d.servos := rfl
@[simp] theorem Dev.putImg_tsrv (v : SMap Word) : (d.putImg v).tsrv = d.tsrv := rfl
@[simp] theorem Dev.putImg_boot (v : SMap Word) : (d.putImg v).boot = d.boot := rfl
@[simp] theorem Dev.putImg_twin (v : SMap Word) : (d.putImg v).twin = d.twin := rfl
@[simp] theorem Dev.putImg_net (v : SMap Word) : (d.putImg v).net = d.net := rfl
@[simp] theorem Dev.putImg_engs (v : SMap Word) : (d.putImg v).engs = d.engs := rfl
@[simp] theorem Dev.putImg_xq (v : SMap Word) : (d.putImg v).xq = d.xq := rfl
@[simp] theorem Dev.putImg_outQ (v : SMap Word) : (d.putImg v).outQ = d.outQ := rfl
@[simp] theorem Dev.putImg_sorts (v : SMap Word) : (d.putImg v).sorts = d.sorts := rfl
@[simp] theorem Dev.putImg_sils (v : SMap Word) : (d.putImg v).sils = d.sils := rfl
@[simp] theorem Dev.putImg_fused (v : SMap Word) : (d.putImg v).fused = d.fused := rfl
@[simp] theorem Dev.putImg_fmCal (v : SMap Word) : (d.putImg v).fmCal = d.fmCal := rfl
@[simp] theorem Dev.putImg_adcs (v : SMap Word) : (d.putImg v).adcs = d.adcs := rfl
@[simp] theorem Dev.putImg_cmp (v : SMap Word) : (d.putImg v).cmp = d.cmp := rfl
@[simp] theorem Dev.putImg_tmon (v : SMap Word) : (d.putImg v).tmon = d.tmon := rfl
@[simp] theorem Dev.putImg_met (v : SMap Word) : (d.putImg v).met = d.met := rfl
@[simp] theorem Dev.putImg_sup (v : SMap Word) : (d.putImg v).sup = d.sup := rfl
@[simp] theorem Dev.putImg_per (v : SMap Word) : (d.putImg v).per = d.per := rfl
@[simp] theorem Dev.putImg_snap (v : SMap Word) : (d.putImg v).snap = d.snap := rfl
@[simp] theorem Dev.putFused_fused (v : SMap Word) : (d.putFused v).fused = v := rfl
@[simp] theorem Dev.putFused_rd (v : SMap Word) (r : Nat) : (d.putFused v).rd r = d.rd r := rfl
@[simp] theorem Dev.putFused_fld (v : SMap Word) (r lo w : Nat) : (d.putFused v).fld r lo w = d.fld r lo w := rfl
@[simp] theorem Dev.putFused_bit (v : SMap Word) (r j : Nat) : (d.putFused v).bit r j = d.bit r j := rfl
@[simp] theorem Dev.putFused_fm (v : SMap Word) : (d.putFused v).fm = d.fm := rfl
@[simp] theorem Dev.putFused_twinId (v : SMap Word) : (d.putFused v).twinId = d.twinId := rfl
@[simp] theorem Dev.putFused_regs (v : SMap Word) : (d.putFused v).regs = d.regs := rfl
@[simp] theorem Dev.putFused_mem (v : SMap Word) : (d.putFused v).mem = d.mem := rfl
@[simp] theorem Dev.putFused_ecc (v : SMap Word) : (d.putFused v).ecc = d.ecc := rfl
@[simp] theorem Dev.putFused_shadow (v : SMap Word) : (d.putFused v).shadow = d.shadow := rfl
@[simp] theorem Dev.putFused_scrubPos (v : SMap Word) : (d.putFused v).scrubPos = d.scrubPos := rfl
@[simp] theorem Dev.putFused_outbox (v : SMap Word) : (d.putFused v).outbox = d.outbox := rfl
@[simp] theorem Dev.putFused_busResp (v : SMap Word) : (d.putFused v).busResp = d.busResp := rfl
@[simp] theorem Dev.putFused_freeCtr (v : SMap Word) : (d.putFused v).freeCtr = d.freeCtr := rfl
@[simp] theorem Dev.putFused_tb (v : SMap Word) : (d.putFused v).tb = d.tb := rfl
@[simp] theorem Dev.putFused_pwr (v : SMap Word) : (d.putFused v).pwr = d.pwr := rfl
@[simp] theorem Dev.putFused_amb (v : SMap Word) : (d.putFused v).amb = d.amb := rfl
@[simp] theorem Dev.putFused_fc (v : SMap Word) : (d.putFused v).fc = d.fc := rfl
@[simp] theorem Dev.putFused_pdrvLow (v : SMap Word) : (d.putFused v).pdrvLow = d.pdrvLow := rfl
@[simp] theorem Dev.putFused_grdyBad (v : SMap Word) : (d.putFused v).grdyBad = d.grdyBad := rfl
@[simp] theorem Dev.putFused_gates (v : SMap Word) : (d.putFused v).gates = d.gates := rfl
@[simp] theorem Dev.putFused_rearmP (v : SMap Word) : (d.putFused v).rearmP = d.rearmP := rfl
@[simp] theorem Dev.putFused_atm (v : SMap Word) : (d.putFused v).atm = d.atm := rfl
@[simp] theorem Dev.putFused_lanes (v : SMap Word) : (d.putFused v).lanes = d.lanes := rfl
@[simp] theorem Dev.putFused_ports (v : SMap Word) : (d.putFused v).ports = d.ports := rfl
@[simp] theorem Dev.putFused_cells (v : SMap Word) : (d.putFused v).cells = d.cells := rfl
@[simp] theorem Dev.putFused_safe (v : SMap Word) : (d.putFused v).safe = d.safe := rfl
@[simp] theorem Dev.putFused_clk (v : SMap Word) : (d.putFused v).clk = d.clk := rfl
@[simp] theorem Dev.putFused_servos (v : SMap Word) : (d.putFused v).servos = d.servos := rfl
@[simp] theorem Dev.putFused_tsrv (v : SMap Word) : (d.putFused v).tsrv = d.tsrv := rfl
@[simp] theorem Dev.putFused_boot (v : SMap Word) : (d.putFused v).boot = d.boot := rfl
@[simp] theorem Dev.putFused_twin (v : SMap Word) : (d.putFused v).twin = d.twin := rfl
@[simp] theorem Dev.putFused_net (v : SMap Word) : (d.putFused v).net = d.net := rfl
@[simp] theorem Dev.putFused_engs (v : SMap Word) : (d.putFused v).engs = d.engs := rfl
@[simp] theorem Dev.putFused_xq (v : SMap Word) : (d.putFused v).xq = d.xq := rfl
@[simp] theorem Dev.putFused_outQ (v : SMap Word) : (d.putFused v).outQ = d.outQ := rfl
@[simp] theorem Dev.putFused_sorts (v : SMap Word) : (d.putFused v).sorts = d.sorts := rfl
@[simp] theorem Dev.putFused_sils (v : SMap Word) : (d.putFused v).sils = d.sils := rfl
@[simp] theorem Dev.putFused_img (v : SMap Word) : (d.putFused v).img = d.img := rfl
@[simp] theorem Dev.putFused_fmCal (v : SMap Word) : (d.putFused v).fmCal = d.fmCal := rfl
@[simp] theorem Dev.putFused_adcs (v : SMap Word) : (d.putFused v).adcs = d.adcs := rfl
@[simp] theorem Dev.putFused_cmp (v : SMap Word) : (d.putFused v).cmp = d.cmp := rfl
@[simp] theorem Dev.putFused_tmon (v : SMap Word) : (d.putFused v).tmon = d.tmon := rfl
@[simp] theorem Dev.putFused_met (v : SMap Word) : (d.putFused v).met = d.met := rfl
@[simp] theorem Dev.putFused_sup (v : SMap Word) : (d.putFused v).sup = d.sup := rfl
@[simp] theorem Dev.putFused_per (v : SMap Word) : (d.putFused v).per = d.per := rfl
@[simp] theorem Dev.putFused_snap (v : SMap Word) : (d.putFused v).snap = d.snap := rfl
@[simp] theorem Dev.putFmCal_fmCal (v : Bool) : (d.putFmCal v).fmCal = v := rfl
@[simp] theorem Dev.putFmCal_rd (v : Bool) (r : Nat) : (d.putFmCal v).rd r = d.rd r := rfl
@[simp] theorem Dev.putFmCal_fld (v : Bool) (r lo w : Nat) : (d.putFmCal v).fld r lo w = d.fld r lo w := rfl
@[simp] theorem Dev.putFmCal_bit (v : Bool) (r j : Nat) : (d.putFmCal v).bit r j = d.bit r j := rfl
@[simp] theorem Dev.putFmCal_fm (v : Bool) : (d.putFmCal v).fm = d.fm := rfl
@[simp] theorem Dev.putFmCal_twinId (v : Bool) : (d.putFmCal v).twinId = d.twinId := rfl
@[simp] theorem Dev.putFmCal_regs (v : Bool) : (d.putFmCal v).regs = d.regs := rfl
@[simp] theorem Dev.putFmCal_mem (v : Bool) : (d.putFmCal v).mem = d.mem := rfl
@[simp] theorem Dev.putFmCal_ecc (v : Bool) : (d.putFmCal v).ecc = d.ecc := rfl
@[simp] theorem Dev.putFmCal_shadow (v : Bool) : (d.putFmCal v).shadow = d.shadow := rfl
@[simp] theorem Dev.putFmCal_scrubPos (v : Bool) : (d.putFmCal v).scrubPos = d.scrubPos := rfl
@[simp] theorem Dev.putFmCal_outbox (v : Bool) : (d.putFmCal v).outbox = d.outbox := rfl
@[simp] theorem Dev.putFmCal_busResp (v : Bool) : (d.putFmCal v).busResp = d.busResp := rfl
@[simp] theorem Dev.putFmCal_freeCtr (v : Bool) : (d.putFmCal v).freeCtr = d.freeCtr := rfl
@[simp] theorem Dev.putFmCal_tb (v : Bool) : (d.putFmCal v).tb = d.tb := rfl
@[simp] theorem Dev.putFmCal_pwr (v : Bool) : (d.putFmCal v).pwr = d.pwr := rfl
@[simp] theorem Dev.putFmCal_amb (v : Bool) : (d.putFmCal v).amb = d.amb := rfl
@[simp] theorem Dev.putFmCal_fc (v : Bool) : (d.putFmCal v).fc = d.fc := rfl
@[simp] theorem Dev.putFmCal_pdrvLow (v : Bool) : (d.putFmCal v).pdrvLow = d.pdrvLow := rfl
@[simp] theorem Dev.putFmCal_grdyBad (v : Bool) : (d.putFmCal v).grdyBad = d.grdyBad := rfl
@[simp] theorem Dev.putFmCal_gates (v : Bool) : (d.putFmCal v).gates = d.gates := rfl
@[simp] theorem Dev.putFmCal_rearmP (v : Bool) : (d.putFmCal v).rearmP = d.rearmP := rfl
@[simp] theorem Dev.putFmCal_atm (v : Bool) : (d.putFmCal v).atm = d.atm := rfl
@[simp] theorem Dev.putFmCal_lanes (v : Bool) : (d.putFmCal v).lanes = d.lanes := rfl
@[simp] theorem Dev.putFmCal_ports (v : Bool) : (d.putFmCal v).ports = d.ports := rfl
@[simp] theorem Dev.putFmCal_cells (v : Bool) : (d.putFmCal v).cells = d.cells := rfl
@[simp] theorem Dev.putFmCal_safe (v : Bool) : (d.putFmCal v).safe = d.safe := rfl
@[simp] theorem Dev.putFmCal_clk (v : Bool) : (d.putFmCal v).clk = d.clk := rfl
@[simp] theorem Dev.putFmCal_servos (v : Bool) : (d.putFmCal v).servos = d.servos := rfl
@[simp] theorem Dev.putFmCal_tsrv (v : Bool) : (d.putFmCal v).tsrv = d.tsrv := rfl
@[simp] theorem Dev.putFmCal_boot (v : Bool) : (d.putFmCal v).boot = d.boot := rfl
@[simp] theorem Dev.putFmCal_twin (v : Bool) : (d.putFmCal v).twin = d.twin := rfl
@[simp] theorem Dev.putFmCal_net (v : Bool) : (d.putFmCal v).net = d.net := rfl
@[simp] theorem Dev.putFmCal_engs (v : Bool) : (d.putFmCal v).engs = d.engs := rfl
@[simp] theorem Dev.putFmCal_xq (v : Bool) : (d.putFmCal v).xq = d.xq := rfl
@[simp] theorem Dev.putFmCal_outQ (v : Bool) : (d.putFmCal v).outQ = d.outQ := rfl
@[simp] theorem Dev.putFmCal_sorts (v : Bool) : (d.putFmCal v).sorts = d.sorts := rfl
@[simp] theorem Dev.putFmCal_sils (v : Bool) : (d.putFmCal v).sils = d.sils := rfl
@[simp] theorem Dev.putFmCal_img (v : Bool) : (d.putFmCal v).img = d.img := rfl
@[simp] theorem Dev.putFmCal_fused (v : Bool) : (d.putFmCal v).fused = d.fused := rfl
@[simp] theorem Dev.putFmCal_adcs (v : Bool) : (d.putFmCal v).adcs = d.adcs := rfl
@[simp] theorem Dev.putFmCal_cmp (v : Bool) : (d.putFmCal v).cmp = d.cmp := rfl
@[simp] theorem Dev.putFmCal_tmon (v : Bool) : (d.putFmCal v).tmon = d.tmon := rfl
@[simp] theorem Dev.putFmCal_met (v : Bool) : (d.putFmCal v).met = d.met := rfl
@[simp] theorem Dev.putFmCal_sup (v : Bool) : (d.putFmCal v).sup = d.sup := rfl
@[simp] theorem Dev.putFmCal_per (v : Bool) : (d.putFmCal v).per = d.per := rfl
@[simp] theorem Dev.putFmCal_snap (v : Bool) : (d.putFmCal v).snap = d.snap := rfl
@[simp] theorem Dev.putAdcs_adcs (v : SMap Adc) : (d.putAdcs v).adcs = v := rfl
@[simp] theorem Dev.putAdcs_rd (v : SMap Adc) (r : Nat) : (d.putAdcs v).rd r = d.rd r := rfl
@[simp] theorem Dev.putAdcs_fld (v : SMap Adc) (r lo w : Nat) : (d.putAdcs v).fld r lo w = d.fld r lo w := rfl
@[simp] theorem Dev.putAdcs_bit (v : SMap Adc) (r j : Nat) : (d.putAdcs v).bit r j = d.bit r j := rfl
@[simp] theorem Dev.putAdcs_fm (v : SMap Adc) : (d.putAdcs v).fm = d.fm := rfl
@[simp] theorem Dev.putAdcs_twinId (v : SMap Adc) : (d.putAdcs v).twinId = d.twinId := rfl
@[simp] theorem Dev.putAdcs_regs (v : SMap Adc) : (d.putAdcs v).regs = d.regs := rfl
@[simp] theorem Dev.putAdcs_mem (v : SMap Adc) : (d.putAdcs v).mem = d.mem := rfl
@[simp] theorem Dev.putAdcs_ecc (v : SMap Adc) : (d.putAdcs v).ecc = d.ecc := rfl
@[simp] theorem Dev.putAdcs_shadow (v : SMap Adc) : (d.putAdcs v).shadow = d.shadow := rfl
@[simp] theorem Dev.putAdcs_scrubPos (v : SMap Adc) : (d.putAdcs v).scrubPos = d.scrubPos := rfl
@[simp] theorem Dev.putAdcs_outbox (v : SMap Adc) : (d.putAdcs v).outbox = d.outbox := rfl
@[simp] theorem Dev.putAdcs_busResp (v : SMap Adc) : (d.putAdcs v).busResp = d.busResp := rfl
@[simp] theorem Dev.putAdcs_freeCtr (v : SMap Adc) : (d.putAdcs v).freeCtr = d.freeCtr := rfl
@[simp] theorem Dev.putAdcs_tb (v : SMap Adc) : (d.putAdcs v).tb = d.tb := rfl
@[simp] theorem Dev.putAdcs_pwr (v : SMap Adc) : (d.putAdcs v).pwr = d.pwr := rfl
@[simp] theorem Dev.putAdcs_amb (v : SMap Adc) : (d.putAdcs v).amb = d.amb := rfl
@[simp] theorem Dev.putAdcs_fc (v : SMap Adc) : (d.putAdcs v).fc = d.fc := rfl
@[simp] theorem Dev.putAdcs_pdrvLow (v : SMap Adc) : (d.putAdcs v).pdrvLow = d.pdrvLow := rfl
@[simp] theorem Dev.putAdcs_grdyBad (v : SMap Adc) : (d.putAdcs v).grdyBad = d.grdyBad := rfl
@[simp] theorem Dev.putAdcs_gates (v : SMap Adc) : (d.putAdcs v).gates = d.gates := rfl
@[simp] theorem Dev.putAdcs_rearmP (v : SMap Adc) : (d.putAdcs v).rearmP = d.rearmP := rfl
@[simp] theorem Dev.putAdcs_atm (v : SMap Adc) : (d.putAdcs v).atm = d.atm := rfl
@[simp] theorem Dev.putAdcs_lanes (v : SMap Adc) : (d.putAdcs v).lanes = d.lanes := rfl
@[simp] theorem Dev.putAdcs_ports (v : SMap Adc) : (d.putAdcs v).ports = d.ports := rfl
@[simp] theorem Dev.putAdcs_cells (v : SMap Adc) : (d.putAdcs v).cells = d.cells := rfl
@[simp] theorem Dev.putAdcs_safe (v : SMap Adc) : (d.putAdcs v).safe = d.safe := rfl
@[simp] theorem Dev.putAdcs_clk (v : SMap Adc) : (d.putAdcs v).clk = d.clk := rfl
@[simp] theorem Dev.putAdcs_servos (v : SMap Adc) : (d.putAdcs v).servos = d.servos := rfl
@[simp] theorem Dev.putAdcs_tsrv (v : SMap Adc) : (d.putAdcs v).tsrv = d.tsrv := rfl
@[simp] theorem Dev.putAdcs_boot (v : SMap Adc) : (d.putAdcs v).boot = d.boot := rfl
@[simp] theorem Dev.putAdcs_twin (v : SMap Adc) : (d.putAdcs v).twin = d.twin := rfl
@[simp] theorem Dev.putAdcs_net (v : SMap Adc) : (d.putAdcs v).net = d.net := rfl
@[simp] theorem Dev.putAdcs_engs (v : SMap Adc) : (d.putAdcs v).engs = d.engs := rfl
@[simp] theorem Dev.putAdcs_xq (v : SMap Adc) : (d.putAdcs v).xq = d.xq := rfl
@[simp] theorem Dev.putAdcs_outQ (v : SMap Adc) : (d.putAdcs v).outQ = d.outQ := rfl
@[simp] theorem Dev.putAdcs_sorts (v : SMap Adc) : (d.putAdcs v).sorts = d.sorts := rfl
@[simp] theorem Dev.putAdcs_sils (v : SMap Adc) : (d.putAdcs v).sils = d.sils := rfl
@[simp] theorem Dev.putAdcs_img (v : SMap Adc) : (d.putAdcs v).img = d.img := rfl
@[simp] theorem Dev.putAdcs_fused (v : SMap Adc) : (d.putAdcs v).fused = d.fused := rfl
@[simp] theorem Dev.putAdcs_fmCal (v : SMap Adc) : (d.putAdcs v).fmCal = d.fmCal := rfl
@[simp] theorem Dev.putAdcs_cmp (v : SMap Adc) : (d.putAdcs v).cmp = d.cmp := rfl
@[simp] theorem Dev.putAdcs_tmon (v : SMap Adc) : (d.putAdcs v).tmon = d.tmon := rfl
@[simp] theorem Dev.putAdcs_met (v : SMap Adc) : (d.putAdcs v).met = d.met := rfl
@[simp] theorem Dev.putAdcs_sup (v : SMap Adc) : (d.putAdcs v).sup = d.sup := rfl
@[simp] theorem Dev.putAdcs_per (v : SMap Adc) : (d.putAdcs v).per = d.per := rfl
@[simp] theorem Dev.putAdcs_snap (v : SMap Adc) : (d.putAdcs v).snap = d.snap := rfl
@[simp] theorem Dev.putCmp_cmp (v : Cmp) : (d.putCmp v).cmp = v := rfl
@[simp] theorem Dev.putCmp_rd (v : Cmp) (r : Nat) : (d.putCmp v).rd r = d.rd r := rfl
@[simp] theorem Dev.putCmp_fld (v : Cmp) (r lo w : Nat) : (d.putCmp v).fld r lo w = d.fld r lo w := rfl
@[simp] theorem Dev.putCmp_bit (v : Cmp) (r j : Nat) : (d.putCmp v).bit r j = d.bit r j := rfl
@[simp] theorem Dev.putCmp_fm (v : Cmp) : (d.putCmp v).fm = d.fm := rfl
@[simp] theorem Dev.putCmp_twinId (v : Cmp) : (d.putCmp v).twinId = d.twinId := rfl
@[simp] theorem Dev.putCmp_regs (v : Cmp) : (d.putCmp v).regs = d.regs := rfl
@[simp] theorem Dev.putCmp_mem (v : Cmp) : (d.putCmp v).mem = d.mem := rfl
@[simp] theorem Dev.putCmp_ecc (v : Cmp) : (d.putCmp v).ecc = d.ecc := rfl
@[simp] theorem Dev.putCmp_shadow (v : Cmp) : (d.putCmp v).shadow = d.shadow := rfl
@[simp] theorem Dev.putCmp_scrubPos (v : Cmp) : (d.putCmp v).scrubPos = d.scrubPos := rfl
@[simp] theorem Dev.putCmp_outbox (v : Cmp) : (d.putCmp v).outbox = d.outbox := rfl
@[simp] theorem Dev.putCmp_busResp (v : Cmp) : (d.putCmp v).busResp = d.busResp := rfl
@[simp] theorem Dev.putCmp_freeCtr (v : Cmp) : (d.putCmp v).freeCtr = d.freeCtr := rfl
@[simp] theorem Dev.putCmp_tb (v : Cmp) : (d.putCmp v).tb = d.tb := rfl
@[simp] theorem Dev.putCmp_pwr (v : Cmp) : (d.putCmp v).pwr = d.pwr := rfl
@[simp] theorem Dev.putCmp_amb (v : Cmp) : (d.putCmp v).amb = d.amb := rfl
@[simp] theorem Dev.putCmp_fc (v : Cmp) : (d.putCmp v).fc = d.fc := rfl
@[simp] theorem Dev.putCmp_pdrvLow (v : Cmp) : (d.putCmp v).pdrvLow = d.pdrvLow := rfl
@[simp] theorem Dev.putCmp_grdyBad (v : Cmp) : (d.putCmp v).grdyBad = d.grdyBad := rfl
@[simp] theorem Dev.putCmp_gates (v : Cmp) : (d.putCmp v).gates = d.gates := rfl
@[simp] theorem Dev.putCmp_rearmP (v : Cmp) : (d.putCmp v).rearmP = d.rearmP := rfl
@[simp] theorem Dev.putCmp_atm (v : Cmp) : (d.putCmp v).atm = d.atm := rfl
@[simp] theorem Dev.putCmp_lanes (v : Cmp) : (d.putCmp v).lanes = d.lanes := rfl
@[simp] theorem Dev.putCmp_ports (v : Cmp) : (d.putCmp v).ports = d.ports := rfl
@[simp] theorem Dev.putCmp_cells (v : Cmp) : (d.putCmp v).cells = d.cells := rfl
@[simp] theorem Dev.putCmp_safe (v : Cmp) : (d.putCmp v).safe = d.safe := rfl
@[simp] theorem Dev.putCmp_clk (v : Cmp) : (d.putCmp v).clk = d.clk := rfl
@[simp] theorem Dev.putCmp_servos (v : Cmp) : (d.putCmp v).servos = d.servos := rfl
@[simp] theorem Dev.putCmp_tsrv (v : Cmp) : (d.putCmp v).tsrv = d.tsrv := rfl
@[simp] theorem Dev.putCmp_boot (v : Cmp) : (d.putCmp v).boot = d.boot := rfl
@[simp] theorem Dev.putCmp_twin (v : Cmp) : (d.putCmp v).twin = d.twin := rfl
@[simp] theorem Dev.putCmp_net (v : Cmp) : (d.putCmp v).net = d.net := rfl
@[simp] theorem Dev.putCmp_engs (v : Cmp) : (d.putCmp v).engs = d.engs := rfl
@[simp] theorem Dev.putCmp_xq (v : Cmp) : (d.putCmp v).xq = d.xq := rfl
@[simp] theorem Dev.putCmp_outQ (v : Cmp) : (d.putCmp v).outQ = d.outQ := rfl
@[simp] theorem Dev.putCmp_sorts (v : Cmp) : (d.putCmp v).sorts = d.sorts := rfl
@[simp] theorem Dev.putCmp_sils (v : Cmp) : (d.putCmp v).sils = d.sils := rfl
@[simp] theorem Dev.putCmp_img (v : Cmp) : (d.putCmp v).img = d.img := rfl
@[simp] theorem Dev.putCmp_fused (v : Cmp) : (d.putCmp v).fused = d.fused := rfl
@[simp] theorem Dev.putCmp_fmCal (v : Cmp) : (d.putCmp v).fmCal = d.fmCal := rfl
@[simp] theorem Dev.putCmp_adcs (v : Cmp) : (d.putCmp v).adcs = d.adcs := rfl
@[simp] theorem Dev.putCmp_tmon (v : Cmp) : (d.putCmp v).tmon = d.tmon := rfl
@[simp] theorem Dev.putCmp_met (v : Cmp) : (d.putCmp v).met = d.met := rfl
@[simp] theorem Dev.putCmp_sup (v : Cmp) : (d.putCmp v).sup = d.sup := rfl
@[simp] theorem Dev.putCmp_per (v : Cmp) : (d.putCmp v).per = d.per := rfl
@[simp] theorem Dev.putCmp_snap (v : Cmp) : (d.putCmp v).snap = d.snap := rfl
@[simp] theorem Dev.putTmon_tmon (v : Tmon) : (d.putTmon v).tmon = v := rfl
@[simp] theorem Dev.putTmon_rd (v : Tmon) (r : Nat) : (d.putTmon v).rd r = d.rd r := rfl
@[simp] theorem Dev.putTmon_fld (v : Tmon) (r lo w : Nat) : (d.putTmon v).fld r lo w = d.fld r lo w := rfl
@[simp] theorem Dev.putTmon_bit (v : Tmon) (r j : Nat) : (d.putTmon v).bit r j = d.bit r j := rfl
@[simp] theorem Dev.putTmon_fm (v : Tmon) : (d.putTmon v).fm = d.fm := rfl
@[simp] theorem Dev.putTmon_twinId (v : Tmon) : (d.putTmon v).twinId = d.twinId := rfl
@[simp] theorem Dev.putTmon_regs (v : Tmon) : (d.putTmon v).regs = d.regs := rfl
@[simp] theorem Dev.putTmon_mem (v : Tmon) : (d.putTmon v).mem = d.mem := rfl
@[simp] theorem Dev.putTmon_ecc (v : Tmon) : (d.putTmon v).ecc = d.ecc := rfl
@[simp] theorem Dev.putTmon_shadow (v : Tmon) : (d.putTmon v).shadow = d.shadow := rfl
@[simp] theorem Dev.putTmon_scrubPos (v : Tmon) : (d.putTmon v).scrubPos = d.scrubPos := rfl
@[simp] theorem Dev.putTmon_outbox (v : Tmon) : (d.putTmon v).outbox = d.outbox := rfl
@[simp] theorem Dev.putTmon_busResp (v : Tmon) : (d.putTmon v).busResp = d.busResp := rfl
@[simp] theorem Dev.putTmon_freeCtr (v : Tmon) : (d.putTmon v).freeCtr = d.freeCtr := rfl
@[simp] theorem Dev.putTmon_tb (v : Tmon) : (d.putTmon v).tb = d.tb := rfl
@[simp] theorem Dev.putTmon_pwr (v : Tmon) : (d.putTmon v).pwr = d.pwr := rfl
@[simp] theorem Dev.putTmon_amb (v : Tmon) : (d.putTmon v).amb = d.amb := rfl
@[simp] theorem Dev.putTmon_fc (v : Tmon) : (d.putTmon v).fc = d.fc := rfl
@[simp] theorem Dev.putTmon_pdrvLow (v : Tmon) : (d.putTmon v).pdrvLow = d.pdrvLow := rfl
@[simp] theorem Dev.putTmon_grdyBad (v : Tmon) : (d.putTmon v).grdyBad = d.grdyBad := rfl
@[simp] theorem Dev.putTmon_gates (v : Tmon) : (d.putTmon v).gates = d.gates := rfl
@[simp] theorem Dev.putTmon_rearmP (v : Tmon) : (d.putTmon v).rearmP = d.rearmP := rfl
@[simp] theorem Dev.putTmon_atm (v : Tmon) : (d.putTmon v).atm = d.atm := rfl
@[simp] theorem Dev.putTmon_lanes (v : Tmon) : (d.putTmon v).lanes = d.lanes := rfl
@[simp] theorem Dev.putTmon_ports (v : Tmon) : (d.putTmon v).ports = d.ports := rfl
@[simp] theorem Dev.putTmon_cells (v : Tmon) : (d.putTmon v).cells = d.cells := rfl
@[simp] theorem Dev.putTmon_safe (v : Tmon) : (d.putTmon v).safe = d.safe := rfl
@[simp] theorem Dev.putTmon_clk (v : Tmon) : (d.putTmon v).clk = d.clk := rfl
@[simp] theorem Dev.putTmon_servos (v : Tmon) : (d.putTmon v).servos = d.servos := rfl
@[simp] theorem Dev.putTmon_tsrv (v : Tmon) : (d.putTmon v).tsrv = d.tsrv := rfl
@[simp] theorem Dev.putTmon_boot (v : Tmon) : (d.putTmon v).boot = d.boot := rfl
@[simp] theorem Dev.putTmon_twin (v : Tmon) : (d.putTmon v).twin = d.twin := rfl
@[simp] theorem Dev.putTmon_net (v : Tmon) : (d.putTmon v).net = d.net := rfl
@[simp] theorem Dev.putTmon_engs (v : Tmon) : (d.putTmon v).engs = d.engs := rfl
@[simp] theorem Dev.putTmon_xq (v : Tmon) : (d.putTmon v).xq = d.xq := rfl
@[simp] theorem Dev.putTmon_outQ (v : Tmon) : (d.putTmon v).outQ = d.outQ := rfl
@[simp] theorem Dev.putTmon_sorts (v : Tmon) : (d.putTmon v).sorts = d.sorts := rfl
@[simp] theorem Dev.putTmon_sils (v : Tmon) : (d.putTmon v).sils = d.sils := rfl
@[simp] theorem Dev.putTmon_img (v : Tmon) : (d.putTmon v).img = d.img := rfl
@[simp] theorem Dev.putTmon_fused (v : Tmon) : (d.putTmon v).fused = d.fused := rfl
@[simp] theorem Dev.putTmon_fmCal (v : Tmon) : (d.putTmon v).fmCal = d.fmCal := rfl
@[simp] theorem Dev.putTmon_adcs (v : Tmon) : (d.putTmon v).adcs = d.adcs := rfl
@[simp] theorem Dev.putTmon_cmp (v : Tmon) : (d.putTmon v).cmp = d.cmp := rfl
@[simp] theorem Dev.putTmon_met (v : Tmon) : (d.putTmon v).met = d.met := rfl
@[simp] theorem Dev.putTmon_sup (v : Tmon) : (d.putTmon v).sup = d.sup := rfl
@[simp] theorem Dev.putTmon_per (v : Tmon) : (d.putTmon v).per = d.per := rfl
@[simp] theorem Dev.putTmon_snap (v : Tmon) : (d.putTmon v).snap = d.snap := rfl
@[simp] theorem Dev.putMet_met (v : Met) : (d.putMet v).met = v := rfl
@[simp] theorem Dev.putMet_rd (v : Met) (r : Nat) : (d.putMet v).rd r = d.rd r := rfl
@[simp] theorem Dev.putMet_fld (v : Met) (r lo w : Nat) : (d.putMet v).fld r lo w = d.fld r lo w := rfl
@[simp] theorem Dev.putMet_bit (v : Met) (r j : Nat) : (d.putMet v).bit r j = d.bit r j := rfl
@[simp] theorem Dev.putMet_fm (v : Met) : (d.putMet v).fm = d.fm := rfl
@[simp] theorem Dev.putMet_twinId (v : Met) : (d.putMet v).twinId = d.twinId := rfl
@[simp] theorem Dev.putMet_regs (v : Met) : (d.putMet v).regs = d.regs := rfl
@[simp] theorem Dev.putMet_mem (v : Met) : (d.putMet v).mem = d.mem := rfl
@[simp] theorem Dev.putMet_ecc (v : Met) : (d.putMet v).ecc = d.ecc := rfl
@[simp] theorem Dev.putMet_shadow (v : Met) : (d.putMet v).shadow = d.shadow := rfl
@[simp] theorem Dev.putMet_scrubPos (v : Met) : (d.putMet v).scrubPos = d.scrubPos := rfl
@[simp] theorem Dev.putMet_outbox (v : Met) : (d.putMet v).outbox = d.outbox := rfl
@[simp] theorem Dev.putMet_busResp (v : Met) : (d.putMet v).busResp = d.busResp := rfl
@[simp] theorem Dev.putMet_freeCtr (v : Met) : (d.putMet v).freeCtr = d.freeCtr := rfl
@[simp] theorem Dev.putMet_tb (v : Met) : (d.putMet v).tb = d.tb := rfl
@[simp] theorem Dev.putMet_pwr (v : Met) : (d.putMet v).pwr = d.pwr := rfl
@[simp] theorem Dev.putMet_amb (v : Met) : (d.putMet v).amb = d.amb := rfl
@[simp] theorem Dev.putMet_fc (v : Met) : (d.putMet v).fc = d.fc := rfl
@[simp] theorem Dev.putMet_pdrvLow (v : Met) : (d.putMet v).pdrvLow = d.pdrvLow := rfl
@[simp] theorem Dev.putMet_grdyBad (v : Met) : (d.putMet v).grdyBad = d.grdyBad := rfl
@[simp] theorem Dev.putMet_gates (v : Met) : (d.putMet v).gates = d.gates := rfl
@[simp] theorem Dev.putMet_rearmP (v : Met) : (d.putMet v).rearmP = d.rearmP := rfl
@[simp] theorem Dev.putMet_atm (v : Met) : (d.putMet v).atm = d.atm := rfl
@[simp] theorem Dev.putMet_lanes (v : Met) : (d.putMet v).lanes = d.lanes := rfl
@[simp] theorem Dev.putMet_ports (v : Met) : (d.putMet v).ports = d.ports := rfl
@[simp] theorem Dev.putMet_cells (v : Met) : (d.putMet v).cells = d.cells := rfl
@[simp] theorem Dev.putMet_safe (v : Met) : (d.putMet v).safe = d.safe := rfl
@[simp] theorem Dev.putMet_clk (v : Met) : (d.putMet v).clk = d.clk := rfl
@[simp] theorem Dev.putMet_servos (v : Met) : (d.putMet v).servos = d.servos := rfl
@[simp] theorem Dev.putMet_tsrv (v : Met) : (d.putMet v).tsrv = d.tsrv := rfl
@[simp] theorem Dev.putMet_boot (v : Met) : (d.putMet v).boot = d.boot := rfl
@[simp] theorem Dev.putMet_twin (v : Met) : (d.putMet v).twin = d.twin := rfl
@[simp] theorem Dev.putMet_net (v : Met) : (d.putMet v).net = d.net := rfl
@[simp] theorem Dev.putMet_engs (v : Met) : (d.putMet v).engs = d.engs := rfl
@[simp] theorem Dev.putMet_xq (v : Met) : (d.putMet v).xq = d.xq := rfl
@[simp] theorem Dev.putMet_outQ (v : Met) : (d.putMet v).outQ = d.outQ := rfl
@[simp] theorem Dev.putMet_sorts (v : Met) : (d.putMet v).sorts = d.sorts := rfl
@[simp] theorem Dev.putMet_sils (v : Met) : (d.putMet v).sils = d.sils := rfl
@[simp] theorem Dev.putMet_img (v : Met) : (d.putMet v).img = d.img := rfl
@[simp] theorem Dev.putMet_fused (v : Met) : (d.putMet v).fused = d.fused := rfl
@[simp] theorem Dev.putMet_fmCal (v : Met) : (d.putMet v).fmCal = d.fmCal := rfl
@[simp] theorem Dev.putMet_adcs (v : Met) : (d.putMet v).adcs = d.adcs := rfl
@[simp] theorem Dev.putMet_cmp (v : Met) : (d.putMet v).cmp = d.cmp := rfl
@[simp] theorem Dev.putMet_tmon (v : Met) : (d.putMet v).tmon = d.tmon := rfl
@[simp] theorem Dev.putMet_sup (v : Met) : (d.putMet v).sup = d.sup := rfl
@[simp] theorem Dev.putMet_per (v : Met) : (d.putMet v).per = d.per := rfl
@[simp] theorem Dev.putMet_snap (v : Met) : (d.putMet v).snap = d.snap := rfl
@[simp] theorem Dev.putSup_sup (v : Sup) : (d.putSup v).sup = v := rfl
@[simp] theorem Dev.putSup_rd (v : Sup) (r : Nat) : (d.putSup v).rd r = d.rd r := rfl
@[simp] theorem Dev.putSup_fld (v : Sup) (r lo w : Nat) : (d.putSup v).fld r lo w = d.fld r lo w := rfl
@[simp] theorem Dev.putSup_bit (v : Sup) (r j : Nat) : (d.putSup v).bit r j = d.bit r j := rfl
@[simp] theorem Dev.putSup_fm (v : Sup) : (d.putSup v).fm = d.fm := rfl
@[simp] theorem Dev.putSup_twinId (v : Sup) : (d.putSup v).twinId = d.twinId := rfl
@[simp] theorem Dev.putSup_regs (v : Sup) : (d.putSup v).regs = d.regs := rfl
@[simp] theorem Dev.putSup_mem (v : Sup) : (d.putSup v).mem = d.mem := rfl
@[simp] theorem Dev.putSup_ecc (v : Sup) : (d.putSup v).ecc = d.ecc := rfl
@[simp] theorem Dev.putSup_shadow (v : Sup) : (d.putSup v).shadow = d.shadow := rfl
@[simp] theorem Dev.putSup_scrubPos (v : Sup) : (d.putSup v).scrubPos = d.scrubPos := rfl
@[simp] theorem Dev.putSup_outbox (v : Sup) : (d.putSup v).outbox = d.outbox := rfl
@[simp] theorem Dev.putSup_busResp (v : Sup) : (d.putSup v).busResp = d.busResp := rfl
@[simp] theorem Dev.putSup_freeCtr (v : Sup) : (d.putSup v).freeCtr = d.freeCtr := rfl
@[simp] theorem Dev.putSup_tb (v : Sup) : (d.putSup v).tb = d.tb := rfl
@[simp] theorem Dev.putSup_pwr (v : Sup) : (d.putSup v).pwr = d.pwr := rfl
@[simp] theorem Dev.putSup_amb (v : Sup) : (d.putSup v).amb = d.amb := rfl
@[simp] theorem Dev.putSup_fc (v : Sup) : (d.putSup v).fc = d.fc := rfl
@[simp] theorem Dev.putSup_pdrvLow (v : Sup) : (d.putSup v).pdrvLow = d.pdrvLow := rfl
@[simp] theorem Dev.putSup_grdyBad (v : Sup) : (d.putSup v).grdyBad = d.grdyBad := rfl
@[simp] theorem Dev.putSup_gates (v : Sup) : (d.putSup v).gates = d.gates := rfl
@[simp] theorem Dev.putSup_rearmP (v : Sup) : (d.putSup v).rearmP = d.rearmP := rfl
@[simp] theorem Dev.putSup_atm (v : Sup) : (d.putSup v).atm = d.atm := rfl
@[simp] theorem Dev.putSup_lanes (v : Sup) : (d.putSup v).lanes = d.lanes := rfl
@[simp] theorem Dev.putSup_ports (v : Sup) : (d.putSup v).ports = d.ports := rfl
@[simp] theorem Dev.putSup_cells (v : Sup) : (d.putSup v).cells = d.cells := rfl
@[simp] theorem Dev.putSup_safe (v : Sup) : (d.putSup v).safe = d.safe := rfl
@[simp] theorem Dev.putSup_clk (v : Sup) : (d.putSup v).clk = d.clk := rfl
@[simp] theorem Dev.putSup_servos (v : Sup) : (d.putSup v).servos = d.servos := rfl
@[simp] theorem Dev.putSup_tsrv (v : Sup) : (d.putSup v).tsrv = d.tsrv := rfl
@[simp] theorem Dev.putSup_boot (v : Sup) : (d.putSup v).boot = d.boot := rfl
@[simp] theorem Dev.putSup_twin (v : Sup) : (d.putSup v).twin = d.twin := rfl
@[simp] theorem Dev.putSup_net (v : Sup) : (d.putSup v).net = d.net := rfl
@[simp] theorem Dev.putSup_engs (v : Sup) : (d.putSup v).engs = d.engs := rfl
@[simp] theorem Dev.putSup_xq (v : Sup) : (d.putSup v).xq = d.xq := rfl
@[simp] theorem Dev.putSup_outQ (v : Sup) : (d.putSup v).outQ = d.outQ := rfl
@[simp] theorem Dev.putSup_sorts (v : Sup) : (d.putSup v).sorts = d.sorts := rfl
@[simp] theorem Dev.putSup_sils (v : Sup) : (d.putSup v).sils = d.sils := rfl
@[simp] theorem Dev.putSup_img (v : Sup) : (d.putSup v).img = d.img := rfl
@[simp] theorem Dev.putSup_fused (v : Sup) : (d.putSup v).fused = d.fused := rfl
@[simp] theorem Dev.putSup_fmCal (v : Sup) : (d.putSup v).fmCal = d.fmCal := rfl
@[simp] theorem Dev.putSup_adcs (v : Sup) : (d.putSup v).adcs = d.adcs := rfl
@[simp] theorem Dev.putSup_cmp (v : Sup) : (d.putSup v).cmp = d.cmp := rfl
@[simp] theorem Dev.putSup_tmon (v : Sup) : (d.putSup v).tmon = d.tmon := rfl
@[simp] theorem Dev.putSup_met (v : Sup) : (d.putSup v).met = d.met := rfl
@[simp] theorem Dev.putSup_per (v : Sup) : (d.putSup v).per = d.per := rfl
@[simp] theorem Dev.putSup_snap (v : Sup) : (d.putSup v).snap = d.snap := rfl
@[simp] theorem Dev.putPer_per (v : Periph) : (d.putPer v).per = v := rfl
@[simp] theorem Dev.putPer_rd (v : Periph) (r : Nat) : (d.putPer v).rd r = d.rd r := rfl
@[simp] theorem Dev.putPer_fld (v : Periph) (r lo w : Nat) : (d.putPer v).fld r lo w = d.fld r lo w := rfl
@[simp] theorem Dev.putPer_bit (v : Periph) (r j : Nat) : (d.putPer v).bit r j = d.bit r j := rfl
@[simp] theorem Dev.putPer_fm (v : Periph) : (d.putPer v).fm = d.fm := rfl
@[simp] theorem Dev.putPer_twinId (v : Periph) : (d.putPer v).twinId = d.twinId := rfl
@[simp] theorem Dev.putPer_regs (v : Periph) : (d.putPer v).regs = d.regs := rfl
@[simp] theorem Dev.putPer_mem (v : Periph) : (d.putPer v).mem = d.mem := rfl
@[simp] theorem Dev.putPer_ecc (v : Periph) : (d.putPer v).ecc = d.ecc := rfl
@[simp] theorem Dev.putPer_shadow (v : Periph) : (d.putPer v).shadow = d.shadow := rfl
@[simp] theorem Dev.putPer_scrubPos (v : Periph) : (d.putPer v).scrubPos = d.scrubPos := rfl
@[simp] theorem Dev.putPer_outbox (v : Periph) : (d.putPer v).outbox = d.outbox := rfl
@[simp] theorem Dev.putPer_busResp (v : Periph) : (d.putPer v).busResp = d.busResp := rfl
@[simp] theorem Dev.putPer_freeCtr (v : Periph) : (d.putPer v).freeCtr = d.freeCtr := rfl
@[simp] theorem Dev.putPer_tb (v : Periph) : (d.putPer v).tb = d.tb := rfl
@[simp] theorem Dev.putPer_pwr (v : Periph) : (d.putPer v).pwr = d.pwr := rfl
@[simp] theorem Dev.putPer_amb (v : Periph) : (d.putPer v).amb = d.amb := rfl
@[simp] theorem Dev.putPer_fc (v : Periph) : (d.putPer v).fc = d.fc := rfl
@[simp] theorem Dev.putPer_pdrvLow (v : Periph) : (d.putPer v).pdrvLow = d.pdrvLow := rfl
@[simp] theorem Dev.putPer_grdyBad (v : Periph) : (d.putPer v).grdyBad = d.grdyBad := rfl
@[simp] theorem Dev.putPer_gates (v : Periph) : (d.putPer v).gates = d.gates := rfl
@[simp] theorem Dev.putPer_rearmP (v : Periph) : (d.putPer v).rearmP = d.rearmP := rfl
@[simp] theorem Dev.putPer_atm (v : Periph) : (d.putPer v).atm = d.atm := rfl
@[simp] theorem Dev.putPer_lanes (v : Periph) : (d.putPer v).lanes = d.lanes := rfl
@[simp] theorem Dev.putPer_ports (v : Periph) : (d.putPer v).ports = d.ports := rfl
@[simp] theorem Dev.putPer_cells (v : Periph) : (d.putPer v).cells = d.cells := rfl
@[simp] theorem Dev.putPer_safe (v : Periph) : (d.putPer v).safe = d.safe := rfl
@[simp] theorem Dev.putPer_clk (v : Periph) : (d.putPer v).clk = d.clk := rfl
@[simp] theorem Dev.putPer_servos (v : Periph) : (d.putPer v).servos = d.servos := rfl
@[simp] theorem Dev.putPer_tsrv (v : Periph) : (d.putPer v).tsrv = d.tsrv := rfl
@[simp] theorem Dev.putPer_boot (v : Periph) : (d.putPer v).boot = d.boot := rfl
@[simp] theorem Dev.putPer_twin (v : Periph) : (d.putPer v).twin = d.twin := rfl
@[simp] theorem Dev.putPer_net (v : Periph) : (d.putPer v).net = d.net := rfl
@[simp] theorem Dev.putPer_engs (v : Periph) : (d.putPer v).engs = d.engs := rfl
@[simp] theorem Dev.putPer_xq (v : Periph) : (d.putPer v).xq = d.xq := rfl
@[simp] theorem Dev.putPer_outQ (v : Periph) : (d.putPer v).outQ = d.outQ := rfl
@[simp] theorem Dev.putPer_sorts (v : Periph) : (d.putPer v).sorts = d.sorts := rfl
@[simp] theorem Dev.putPer_sils (v : Periph) : (d.putPer v).sils = d.sils := rfl
@[simp] theorem Dev.putPer_img (v : Periph) : (d.putPer v).img = d.img := rfl
@[simp] theorem Dev.putPer_fused (v : Periph) : (d.putPer v).fused = d.fused := rfl
@[simp] theorem Dev.putPer_fmCal (v : Periph) : (d.putPer v).fmCal = d.fmCal := rfl
@[simp] theorem Dev.putPer_adcs (v : Periph) : (d.putPer v).adcs = d.adcs := rfl
@[simp] theorem Dev.putPer_cmp (v : Periph) : (d.putPer v).cmp = d.cmp := rfl
@[simp] theorem Dev.putPer_tmon (v : Periph) : (d.putPer v).tmon = d.tmon := rfl
@[simp] theorem Dev.putPer_met (v : Periph) : (d.putPer v).met = d.met := rfl
@[simp] theorem Dev.putPer_sup (v : Periph) : (d.putPer v).sup = d.sup := rfl
@[simp] theorem Dev.putPer_snap (v : Periph) : (d.putPer v).snap = d.snap := rfl
@[simp] theorem Dev.putSnap_snap (v : SMap (Word × Word)) : (d.putSnap v).snap = v := rfl
@[simp] theorem Dev.putSnap_rd (v : SMap (Word × Word)) (r : Nat) : (d.putSnap v).rd r = d.rd r := rfl
@[simp] theorem Dev.putSnap_fld (v : SMap (Word × Word)) (r lo w : Nat) : (d.putSnap v).fld r lo w = d.fld r lo w := rfl
@[simp] theorem Dev.putSnap_bit (v : SMap (Word × Word)) (r j : Nat) : (d.putSnap v).bit r j = d.bit r j := rfl
@[simp] theorem Dev.putSnap_fm (v : SMap (Word × Word)) : (d.putSnap v).fm = d.fm := rfl
@[simp] theorem Dev.putSnap_twinId (v : SMap (Word × Word)) : (d.putSnap v).twinId = d.twinId := rfl
@[simp] theorem Dev.putSnap_regs (v : SMap (Word × Word)) : (d.putSnap v).regs = d.regs := rfl
@[simp] theorem Dev.putSnap_mem (v : SMap (Word × Word)) : (d.putSnap v).mem = d.mem := rfl
@[simp] theorem Dev.putSnap_ecc (v : SMap (Word × Word)) : (d.putSnap v).ecc = d.ecc := rfl
@[simp] theorem Dev.putSnap_shadow (v : SMap (Word × Word)) : (d.putSnap v).shadow = d.shadow := rfl
@[simp] theorem Dev.putSnap_scrubPos (v : SMap (Word × Word)) : (d.putSnap v).scrubPos = d.scrubPos := rfl
@[simp] theorem Dev.putSnap_outbox (v : SMap (Word × Word)) : (d.putSnap v).outbox = d.outbox := rfl
@[simp] theorem Dev.putSnap_busResp (v : SMap (Word × Word)) : (d.putSnap v).busResp = d.busResp := rfl
@[simp] theorem Dev.putSnap_freeCtr (v : SMap (Word × Word)) : (d.putSnap v).freeCtr = d.freeCtr := rfl
@[simp] theorem Dev.putSnap_tb (v : SMap (Word × Word)) : (d.putSnap v).tb = d.tb := rfl
@[simp] theorem Dev.putSnap_pwr (v : SMap (Word × Word)) : (d.putSnap v).pwr = d.pwr := rfl
@[simp] theorem Dev.putSnap_amb (v : SMap (Word × Word)) : (d.putSnap v).amb = d.amb := rfl
@[simp] theorem Dev.putSnap_fc (v : SMap (Word × Word)) : (d.putSnap v).fc = d.fc := rfl
@[simp] theorem Dev.putSnap_pdrvLow (v : SMap (Word × Word)) : (d.putSnap v).pdrvLow = d.pdrvLow := rfl
@[simp] theorem Dev.putSnap_grdyBad (v : SMap (Word × Word)) : (d.putSnap v).grdyBad = d.grdyBad := rfl
@[simp] theorem Dev.putSnap_gates (v : SMap (Word × Word)) : (d.putSnap v).gates = d.gates := rfl
@[simp] theorem Dev.putSnap_rearmP (v : SMap (Word × Word)) : (d.putSnap v).rearmP = d.rearmP := rfl
@[simp] theorem Dev.putSnap_atm (v : SMap (Word × Word)) : (d.putSnap v).atm = d.atm := rfl
@[simp] theorem Dev.putSnap_lanes (v : SMap (Word × Word)) : (d.putSnap v).lanes = d.lanes := rfl
@[simp] theorem Dev.putSnap_ports (v : SMap (Word × Word)) : (d.putSnap v).ports = d.ports := rfl
@[simp] theorem Dev.putSnap_cells (v : SMap (Word × Word)) : (d.putSnap v).cells = d.cells := rfl
@[simp] theorem Dev.putSnap_safe (v : SMap (Word × Word)) : (d.putSnap v).safe = d.safe := rfl
@[simp] theorem Dev.putSnap_clk (v : SMap (Word × Word)) : (d.putSnap v).clk = d.clk := rfl
@[simp] theorem Dev.putSnap_servos (v : SMap (Word × Word)) : (d.putSnap v).servos = d.servos := rfl
@[simp] theorem Dev.putSnap_tsrv (v : SMap (Word × Word)) : (d.putSnap v).tsrv = d.tsrv := rfl
@[simp] theorem Dev.putSnap_boot (v : SMap (Word × Word)) : (d.putSnap v).boot = d.boot := rfl
@[simp] theorem Dev.putSnap_twin (v : SMap (Word × Word)) : (d.putSnap v).twin = d.twin := rfl
@[simp] theorem Dev.putSnap_net (v : SMap (Word × Word)) : (d.putSnap v).net = d.net := rfl
@[simp] theorem Dev.putSnap_engs (v : SMap (Word × Word)) : (d.putSnap v).engs = d.engs := rfl
@[simp] theorem Dev.putSnap_xq (v : SMap (Word × Word)) : (d.putSnap v).xq = d.xq := rfl
@[simp] theorem Dev.putSnap_outQ (v : SMap (Word × Word)) : (d.putSnap v).outQ = d.outQ := rfl
@[simp] theorem Dev.putSnap_sorts (v : SMap (Word × Word)) : (d.putSnap v).sorts = d.sorts := rfl
@[simp] theorem Dev.putSnap_sils (v : SMap (Word × Word)) : (d.putSnap v).sils = d.sils := rfl
@[simp] theorem Dev.putSnap_img (v : SMap (Word × Word)) : (d.putSnap v).img = d.img := rfl
@[simp] theorem Dev.putSnap_fused (v : SMap (Word × Word)) : (d.putSnap v).fused = d.fused := rfl
@[simp] theorem Dev.putSnap_fmCal (v : SMap (Word × Word)) : (d.putSnap v).fmCal = d.fmCal := rfl
@[simp] theorem Dev.putSnap_adcs (v : SMap (Word × Word)) : (d.putSnap v).adcs = d.adcs := rfl
@[simp] theorem Dev.putSnap_cmp (v : SMap (Word × Word)) : (d.putSnap v).cmp = d.cmp := rfl
@[simp] theorem Dev.putSnap_tmon (v : SMap (Word × Word)) : (d.putSnap v).tmon = d.tmon := rfl
@[simp] theorem Dev.putSnap_met (v : SMap (Word × Word)) : (d.putSnap v).met = d.met := rfl
@[simp] theorem Dev.putSnap_sup (v : SMap (Word × Word)) : (d.putSnap v).sup = d.sup := rfl
@[simp] theorem Dev.putSnap_per (v : SMap (Word × Word)) : (d.putSnap v).per = d.per := rfl

/-! ### What indexed state reads -/

@[simp] theorem Dev.lane_setLane_same (n : Nat) (f : Lane → Lane) : (d.setLane n f).lane n = f (d.lane n) := by
  simp [Dev.setLane, Dev.lane, Dev.putLanes]
theorem Dev.lane_setLane_other (n m : Nat) (f : Lane → Lane) (h : m ≠ n) : (d.setLane n f).lane m = d.lane m := by
  simp [Dev.setLane, Dev.lane, Dev.putLanes, SMap.getD_put_other _ _ _ _ _ _ h]
@[simp] theorem Dev.port_setPort_same (n : Nat) (f : Port → Port) : (d.setPort n f).port n = f (d.port n) := by
  simp [Dev.setPort, Dev.port, Dev.putPorts]
theorem Dev.port_setPort_other (n m : Nat) (f : Port → Port) (h : m ≠ n) : (d.setPort n f).port m = d.port m := by
  simp [Dev.setPort, Dev.port, Dev.putPorts, SMap.getD_put_other _ _ _ _ _ _ h]
@[simp] theorem Dev.cell_setCell_same (n : Nat) (f : Cell → Cell) : (d.setCell n f).cell n = f (d.cell n) := by
  simp [Dev.setCell, Dev.cell, Dev.putCells]
theorem Dev.cell_setCell_other (n m : Nat) (f : Cell → Cell) (h : m ≠ n) : (d.setCell n f).cell m = d.cell m := by
  simp [Dev.setCell, Dev.cell, Dev.putCells, SMap.getD_put_other _ _ _ _ _ _ h]
@[simp] theorem Dev.gate_setGate_same (n : Nat) (f : Gate → Gate) : (d.setGate n f).gate n = f (d.gate n) := by
  simp [Dev.setGate, Dev.gate, Dev.putGates]
theorem Dev.gate_setGate_other (n m : Nat) (f : Gate → Gate) (h : m ≠ n) : (d.setGate n f).gate m = d.gate m := by
  simp [Dev.setGate, Dev.gate, Dev.putGates, SMap.getD_put_other _ _ _ _ _ _ h]
@[simp] theorem Dev.servo_setServo_same (n : Nat) (f : Servo → Servo) : (d.setServo n f).servo n = f (d.servo n) := by
  simp [Dev.setServo, Dev.servo, Dev.putServos]
theorem Dev.servo_setServo_other (n m : Nat) (f : Servo → Servo) (h : m ≠ n) : (d.setServo n f).servo m = d.servo m := by
  simp [Dev.setServo, Dev.servo, Dev.putServos, SMap.getD_put_other _ _ _ _ _ _ h]
@[simp] theorem Dev.leg_setLeg_same (n : Nat) (f : Leg → Leg) : (d.setLeg n f).leg n = f (d.leg n) := by
  simp [Dev.setLeg, Dev.leg, Dev.putAtm, Dev.leg]
theorem Dev.leg_setLeg_other (n m : Nat) (f : Leg → Leg) (h : m ≠ n) : (d.setLeg n f).leg m = d.leg m := by
  simp [Dev.setLeg, Dev.leg, Dev.putAtm, SMap.getD_put_other _ _ _ _ _ _ h]

/-- Reads of registers depend on the register table alone. -/
theorem Dev.rd_congr (e : Dev) (h : d.regs = e.regs) (a : Nat) : d.rd a = e.rd a := by simp [Dev.rd, h]

end Sys2Proof.Machine
end

