-- ==== Sys2Proof/Laws/Ops.lean ====
section
/-! SUPPORT. What the shared operations can do, said once: a command's outcome, a write through the bus, a bus error, a loop over
indices, readiness. -/

namespace Sys2Proof.Machine

/-! ### A command -/

/-- A command that runs a function of the device answers its next state. -/
theorem run_eq (f : Dev → Dev) (s : State) : run f s = .next (s.upd f) := rfl

/-- A command on an empty queue is the idle tick; else the front command runs with the queue's rest. -/
theorem step_nil (s : State) (h : s.pending = []) : step s = run idleTick s := by simp [step, h]

theorem step_cons (s : State) (i : Instr) (rest : List Instr) (h : s.pending = i :: rest) :
    step s = exec i { s with pending := rest } := by simp [step, h]

/-! ### The bus -/

/-- A write that reaches its register has its own effect and answers no error. -/
theorem Dev.viaBus_open (m : Master) (a : Nat) (f : Dev → Dev) (d : Dev) (h : d.BusOpen m a) :
    d.viaBus m a f = (f d).putBusResp ⟨0, 0⟩ := by
  obtain ⟨h1, h2⟩ := h
  unfold Dev.viaBus
  by_cases hm : m = .debug
  · simp [hm, h1 hm, h2]
  · have : (m == Master.debug) = false := by simpa using hm
    simp [this, h2]

/-- A debugger without access is answered DEBUG_DENIED. -/
theorem Dev.viaBus_denied (a : Nat) (f : Dev → Dev) (d : Dev) (h : d.debugOk = false) :
    d.viaBus .debug a f = d.busError 7 .debug true a := by simp [Dev.viaBus, h]

/-- Past the debugger's check, a register whose domain is off answers DOMAIN_OFF. -/
theorem Dev.viaBus_off (m : Master) (a : Nat) (f : Dev → Dev) (d : Dev) (hm : m = .debug → d.debugOk = true)
    (h : d.domainOn (regDomain a) = false) : d.viaBus m a f = d.busError 4 m true a := by
  unfold Dev.viaBus
  by_cases h1 : m = .debug
  · simp [h1, hm h1, h]
  · have : (m == Master.debug) = false := by simpa using h1
    simp [this, h]

/-- A bus error touches the log's two registers only, beside the answer. -/
theorem Dev.busError_rd (code : Nat) (m : Master) (w : Bool) (x : Nat) (d : Dev) (a : Nat) (h1 : a ≠ Reg.SCRUB_BERR_ADDR)
    (h2 : a ≠ Reg.SCRUB_BERR_INFO) : (d.busError code m w x).rd a = d.rd a := by
  unfold Dev.busError
  simp only
  split
  · rw [Dev.rd_setB_other _ _ _ _ _ h2]; rfl
  · rw [Dev.rd_setF_other _ _ _ _ _ _ h2, Dev.rd_wr_other _ _ _ _ h1]; rfl

/-- The answer of a bus error is its code and the datum zero. -/
@[simp] theorem Dev.busError_resp (code : Nat) (m : Master) (w : Bool) (x : Nat) (d : Dev) :
    (d.busError code m w x).busResp = ⟨0, code⟩ := by
  unfold Dev.busError
  simp only
  split <;> rfl

@[simp] theorem Dev.busError_mem (code : Nat) (m : Master) (w : Bool) (x : Nat) (d : Dev) :
    (d.busError code m w x).mem = d.mem := by
  unfold Dev.busError
  simp only
  split <;> rfl

/-! ### Loops -/

theorem forN_zero {α : Type} (f : Nat → α → α) (a : α) : forN 0 f a = a := rfl

theorem forN_succ {α : Type} (n : Nat) (f : Nat → α → α) (a : α) : forN (n + 1) f a = f n (forN n f a) := by
  simp [forN, List.range_succ]

/-- What every round keeps, the loop keeps. -/
theorem forN_inv {α : Type} (P : α → Prop) (n : Nat) (f : Nat → α → α) (a : α) (h : P a) (hf : ∀ i x, P x → P (f i x)) :
    P (forN n f a) := by
  induction n with
  | zero => simpa [forN_zero] using h
  | succ n ih => rw [forN_succ]; exact hf _ _ ih

/-- What no round changes, the loop does not change. -/
theorem forN_keeps {α β : Type} (g : α → β) (n : Nat) (f : Nat → α → α) (a : α) (hf : ∀ i x, g (f i x) = g x) :
    g (forN n f a) = g a := by
  induction n with
  | zero => rfl
  | succ n ih => rw [forN_succ, hf, ih]

/-! ### Counters and readiness -/

/-- A counter changes its own register only. -/
theorem Dev.inc_rd_other (a w b : Nat) (d : Dev) (h : b ≠ a) : (d.inc a w).rd b = d.rd b := by
  unfold Dev.inc
  simp only
  split
  · exact Dev.rd_setF_other _ _ _ _ _ _ h
  · rfl

/-- A counter counts one and stays at its greatest value. -/
theorem Dev.inc_fld (a w : Nat) (d : Dev) (h : w ≤ 32) : (d.inc a w).fld a 0 w = min (2 ^ w - 1) (d.fld a 0 w + 1) := by
  have hlt : d.fld a 0 w < 2 ^ w := Nat.mod_lt _ (Nat.two_pow_pos w)
  unfold Dev.inc
  simp only
  split
  · rename_i h1
    rw [Dev.fld_setF_same _ _ _ _ _ (by omega), Nat.mod_eq_of_lt h1]; omega
  · rename_i h1
    omega

@[simp] theorem Dev.inc_mem (a w : Nat) (d : Dev) : (d.inc a w).mem = d.mem := by
  unfold Dev.inc; simp only; split <;> rfl

/-- SYS_READY and its event register are all that readiness touches. -/
theorem Dev.setReady_rd_other (i : Nat) (b : Bool) (d : Dev) (a : Nat) (h1 : a ≠ Reg.SYS_READY) (h2 : a ≠ Reg.SYS_READY_EVT) :
    (d.setReady i b).rd a = d.rd a := by
  unfold Dev.setReady
  split
  · rfl
  · rw [Dev.rd_setB_other _ _ _ _ _ h2, Dev.rd_setB_other _ _ _ _ _ h1]

/-- The readiness bit stands as set. -/
theorem Dev.setReady_bit (i : Nat) (b : Bool) (d : Dev) (h : i < 32) : (d.setReady i b).bit Reg.SYS_READY i = b := by
  unfold Dev.setReady
  split
  · rename_i h1; simpa using h1
  · rw [Dev.bit_setB_other _ _ _ _ _ _ (by decide), Dev.bit_setB_same _ _ _ _ h]

/-- A change of readiness sets its event. -/
theorem Dev.setReady_event (i : Nat) (b : Bool) (d : Dev) (h : i < 32) (hc : d.bit Reg.SYS_READY i ≠ b) :
    (d.setReady i b).bit Reg.SYS_READY_EVT i = true := by
  unfold Dev.setReady
  rw [if_neg (by simpa using hc), Dev.bit_setB_same _ _ _ _ h]

/-! ### Events that the device places -/

/-- Device time moved up touches the time base only, and there the time alone. -/
theorem Dev.advTo_eq (t : Nat) (d : Dev) : d.advTo t = d.putTb { d.tb with dt := (d.advTo t).tb.dt } := by
  unfold Dev.advTo; split <;> rfl

/-- Device time reaches the instant, and never moves back. -/
theorem Dev.advTo_now (t : Nat) (d : Dev) : (d.advTo t).now = max d.now t := by
  unfold Dev.advTo Dev.now
  split
  · rename_i h; simp only [Dev.putTb, Nat.mul_div_cancel _ (Nat.two_pow_pos 48)]; exact (Nat.max_eq_right (Nat.le_of_lt h)).symm
  · rename_i h; exact (Nat.max_eq_left (Nat.le_of_not_lt h)).symm

/-- An event is made at its instant, is not yet due, or comes while device time stands still. -/
theorem Dev.dueAt_cases (t : Nat) (f : Dev → Dev) (d : Dev) :
    (d.tb.counting = false ∧ d.dueAt t f = f d) ∨ (d.tb.counting = true ∧ d.nextSeq < t ∧ d.dueAt t f = d) ∨
      (d.tb.counting = true ∧ t ≤ d.nextSeq ∧ d.dueAt t f = f (d.advTo t)) := by
  unfold Dev.dueAt
  by_cases hc : d.tb.counting = true
  · by_cases h : d.nextSeq < t
    · exact .inr (.inl ⟨hc, h, by simp [hc, h]⟩)
    · exact .inr (.inr ⟨hc, Nat.le_of_not_lt h, by simp [hc, h]⟩)
  · exact .inl ⟨by simpa using hc, by simp [hc]⟩

end Sys2Proof.Machine
end

