-- ==== Sys2Proof/Laws/Trip.lean ====
section
/-! SUPPORT. The gate trip, TRIP blocks, raising a source, the lock-out: what each leaves as it was, and what each leaves behind. -/

namespace Sys2Proof.Machine

/-- The device without what the reactions to a fault can touch: registers, collector, legs, a waiting REARM, safety logic, wires. -/
def Dev.pastFaults (d : Dev) : Dev := { d with regs := [], fc := {}, gates := [], rearmP := false, safe := {}, outbox := [] }

@[simp] theorem Dev.pastFaults_fm (d : Dev) : d.pastFaults.fm = d.fm := rfl
@[simp] theorem Dev.pastFaults_twinId (d : Dev) : d.pastFaults.twinId = d.twinId := rfl
@[simp] theorem Dev.pastFaults_mem (d : Dev) : d.pastFaults.mem = d.mem := rfl
@[simp] theorem Dev.pastFaults_ecc (d : Dev) : d.pastFaults.ecc = d.ecc := rfl
@[simp] theorem Dev.pastFaults_shadow (d : Dev) : d.pastFaults.shadow = d.shadow := rfl
@[simp] theorem Dev.pastFaults_scrubPos (d : Dev) : d.pastFaults.scrubPos = d.scrubPos := rfl
@[simp] theorem Dev.pastFaults_busResp (d : Dev) : d.pastFaults.busResp = d.busResp := rfl
@[simp] theorem Dev.pastFaults_freeCtr (d : Dev) : d.pastFaults.freeCtr = d.freeCtr := rfl
@[simp] theorem Dev.pastFaults_tb (d : Dev) : d.pastFaults.tb = d.tb := rfl
@[simp] theorem Dev.pastFaults_pwr (d : Dev) : d.pastFaults.pwr = d.pwr := rfl
@[simp] theorem Dev.pastFaults_amb (d : Dev) : d.pastFaults.amb = d.amb := rfl
@[simp] theorem Dev.pastFaults_pdrvLow (d : Dev) : d.pastFaults.pdrvLow = d.pdrvLow := rfl
@[simp] theorem Dev.pastFaults_grdyBad (d : Dev) : d.pastFaults.grdyBad = d.grdyBad := rfl
@[simp] theorem Dev.pastFaults_atm (d : Dev) : d.pastFaults.atm = d.atm := rfl
@[simp] theorem Dev.pastFaults_lanes (d : Dev) : d.pastFaults.lanes = d.lanes := rfl
@[simp] theorem Dev.pastFaults_ports (d : Dev) : d.pastFaults.ports = d.ports := rfl
@[simp] theorem Dev.pastFaults_cells (d : Dev) : d.pastFaults.cells = d.cells := rfl
@[simp] theorem Dev.pastFaults_clk (d : Dev) : d.pastFaults.clk = d.clk := rfl
@[simp] theorem Dev.pastFaults_servos (d : Dev) : d.pastFaults.servos = d.servos := rfl
@[simp] theorem Dev.pastFaults_tsrv (d : Dev) : d.pastFaults.tsrv = d.tsrv := rfl
@[simp] theorem Dev.pastFaults_boot (d : Dev) : d.pastFaults.boot = d.boot := rfl
@[simp] theorem Dev.pastFaults_twin (d : Dev) : d.pastFaults.twin = d.twin := rfl
@[simp] theorem Dev.pastFaults_net (d : Dev) : d.pastFaults.net = d.net := rfl
@[simp] theorem Dev.pastFaults_engs (d : Dev) : d.pastFaults.engs = d.engs := rfl
@[simp] theorem Dev.pastFaults_xq (d : Dev) : d.pastFaults.xq = d.xq := rfl
@[simp] theorem Dev.pastFaults_outQ (d : Dev) : d.pastFaults.outQ = d.outQ := rfl
@[simp] theorem Dev.pastFaults_sorts (d : Dev) : d.pastFaults.sorts = d.sorts := rfl
@[simp] theorem Dev.pastFaults_sils (d : Dev) : d.pastFaults.sils = d.sils := rfl
@[simp] theorem Dev.pastFaults_img (d : Dev) : d.pastFaults.img = d.img := rfl
@[simp] theorem Dev.pastFaults_fused (d : Dev) : d.pastFaults.fused = d.fused := rfl
@[simp] theorem Dev.pastFaults_fmCal (d : Dev) : d.pastFaults.fmCal = d.fmCal := rfl
@[simp] theorem Dev.pastFaults_adcs (d : Dev) : d.pastFaults.adcs = d.adcs := rfl
@[simp] theorem Dev.pastFaults_cmp (d : Dev) : d.pastFaults.cmp = d.cmp := rfl
@[simp] theorem Dev.pastFaults_tmon (d : Dev) : d.pastFaults.tmon = d.tmon := rfl
@[simp] theorem Dev.pastFaults_met (d : Dev) : d.pastFaults.met = d.met := rfl
@[simp] theorem Dev.pastFaults_sup (d : Dev) : d.pastFaults.sup = d.sup := rfl
@[simp] theorem Dev.pastFaults_per (d : Dev) : d.pastFaults.per = d.per := rfl
@[simp] theorem Dev.pastFaults_snap (d : Dev) : d.pastFaults.snap = d.snap := rfl
@[simp] theorem Dev.putFc_past (v : FaultCol) (d : Dev) : (d.putFc v).pastFaults = d.pastFaults := rfl
@[simp] theorem Dev.wr_past (a : Nat) (v : Word) (d : Dev) : (d.wr a v).pastFaults = d.pastFaults := rfl
@[simp] theorem Dev.setF_past (a lo w x : Nat) (d : Dev) : (d.setF a lo w x).pastFaults = d.pastFaults := rfl
@[simp] theorem Dev.setB_past (a i : Nat) (b : Bool) (d : Dev) : (d.setB a i b).pastFaults = d.pastFaults := rfl
@[simp] theorem Dev.orW_past (a : Nat) (m : Word) (d : Dev) : (d.orW a m).pastFaults = d.pastFaults := rfl
@[simp] theorem Dev.putSafe_past (v : Safe) (d : Dev) : (d.putSafe v).pastFaults = d.pastFaults := rfl
@[simp] theorem Dev.putRearmP_past (b : Bool) (d : Dev) : (d.putRearmP b).pastFaults = d.pastFaults := rfl
@[simp] theorem Dev.setGate_past (k : Nat) (f : Gate → Gate) (d : Dev) : (d.setGate k f).pastFaults = d.pastFaults := rfl
@[simp] theorem Dev.send_past (o : Out) (d : Dev) : (d.send o).pastFaults = d.pastFaults := rfl
@[simp] theorem Dev.inc_past (a w : Nat) (d : Dev) : (d.inc a w).pastFaults = d.pastFaults := by
  unfold Dev.inc; simp only; split <;> rfl
@[simp] theorem Dev.inc_fc (a w : Nat) (d : Dev) : (d.inc a w).fc = d.fc := by unfold Dev.inc; simp only; split <;> rfl
@[simp] theorem Dev.inc_gates (a w : Nat) (d : Dev) : (d.inc a w).gates = d.gates := by unfold Dev.inc; simp only; split <;> rfl
@[simp] theorem Dev.setB_gate (a i k : Nat) (b : Bool) (d : Dev) : (d.setB a i b).gate k = d.gate k := rfl
@[simp] theorem Dev.orW_gate (a k : Nat) (m : Word) (d : Dev) : (d.orW a m).gate k = d.gate k := rfl
@[simp] theorem Dev.putRearmP_gate (b : Bool) (k : Nat) (d : Dev) : (d.putRearmP b).gate k = d.gate k := rfl
@[simp] theorem Dev.putFc_gate (v : FaultCol) (k : Nat) (d : Dev) : (d.putFc v).gate k = d.gate k := rfl

/-! ### Gate channels -/

theorem Dev.legOff_past (k : Nat) (d : Dev) : (d.legOff k).pastFaults = d.pastFaults := by
  unfold Dev.legOff; simp only; split <;> simp

theorem Dev.legOff_fc (k : Nat) (d : Dev) : (d.legOff k).fc = d.fc := by
  unfold Dev.legOff; simp only; split <;> simp

theorem Dev.legOff_rd (k a : Nat) (d : Dev) (h : a ≠ Reg.GATE_EVT) : (d.legOff k).rd a = d.rd a := by
  unfold Dev.legOff; simp only; split
  · simp
  · rw [Dev.setGate_rd, Dev.rd_setB_other _ _ _ _ _ h]

/-- Both channels of the leg are off, no turn-on waits. -/
theorem Dev.legOff_gate (k : Nat) (d : Dev) : ((d.legOff k).gate k).on = .off ∧ ((d.legOff k).gate k).pend = .off := by
  unfold Dev.legOff; simp only; split <;> simp

theorem Dev.legOff_gate_other (k j : Nat) (d : Dev) (h : j ≠ k) : (d.legOff k).gate j = d.gate j := by
  unfold Dev.legOff; simp only; split <;> rw [Dev.gate_setGate_other _ _ _ _ h]; simp

theorem Dev.allOff_past (d : Dev) : d.allOff.pastFaults = d.pastFaults := by
  apply forN_keeps Dev.pastFaults
  intro i x
  rw [Dev.setB_past, Dev.legOff_past]

theorem Dev.allOff_fc (d : Dev) : d.allOff.fc = d.fc := by
  apply forN_keeps (fun d : Dev => d.fc)
  intro i x
  rw [Dev.setB_fc, Dev.legOff_fc]

theorem Dev.allOff_rd (a : Nat) (d : Dev) (h1 : a ≠ Reg.GATE_EVT) (h2 : a ≠ Reg.GATE_STAT) : d.allOff.rd a = d.rd a := by
  apply forN_keeps (fun d : Dev => d.rd a)
  intro i x
  rw [Dev.rd_setB_other _ _ _ _ _ h2, Dev.legOff_rd _ _ _ h1]

theorem Dev.offLoop_off (n : Nat) (d : Dev) (k : Nat) (hk : k < n) :
    ((forN n (fun k d => (d.legOff k).setB Reg.GATE_STAT (24 + k) false) d).gate k).on = .off := by
  induction n with
  | zero => omega
  | succ n ih =>
    rw [forN_succ]
    rw [Dev.setB_gate]
    by_cases h : k = n
    · subst h; exact (Dev.legOff_gate _ _).1
    · rw [Dev.legOff_gate_other _ _ _ h]; exact ih (by omega)

theorem Dev.gateTrip_past (d : Dev) : d.gateTrip.pastFaults = d.pastFaults := by
  rw [← Dev.allOff_past d]
  unfold Dev.gateTrip
  generalize d.allOff = e
  simp only
  split <;> simp

theorem Dev.gateTrip_fc (d : Dev) : d.gateTrip.fc = d.fc := by
  rw [← Dev.allOff_fc d]
  unfold Dev.gateTrip
  generalize d.allOff = e
  simp only
  split <;> simp

theorem Dev.gateTrip_rd (a : Nat) (d : Dev) (h1 : a ≠ Reg.GATE_EVT) (h2 : a ≠ Reg.GATE_STAT) : d.gateTrip.rd a = d.rd a := by
  rw [← Dev.allOff_rd a d h1 h2]
  unfold Dev.gateTrip
  generalize d.allOff = e
  simp only
  split
  · rw [Dev.putRearmP_rd, Dev.rd_setB_other _ _ _ _ _ h1, Dev.orW, Dev.rd_wr_other _ _ _ _ h2]
  · rw [Dev.orW, Dev.rd_wr_other _ _ _ _ h2]

theorem gateMask_bit (k : Nat) (hk : k < 8) : (0xFF#32).getLsbD k = true := by
  have : k = 0 ∨ k = 1 ∨ k = 2 ∨ k = 3 ∨ k = 4 ∨ k = 5 ∨ k = 6 ∨ k = 7 := by omega
  rcases this with h | h | h | h | h | h | h | h <;> subst h <;> rfl

/-- After the gate trip every leg is tripped. -/
theorem Dev.gateTrip_tripped (d : Dev) (k : Nat) (hk : k < 8) : d.gateTrip.bit Reg.GATE_STAT k = true := by
  unfold Dev.gateTrip
  generalize d.allOff = e
  simp only
  split
  · rw [Dev.putRearmP_bit, Dev.bit_setB_other _ _ _ _ _ _ (by decide), Dev.orW, Dev.bit_wr_same, BitVec.getLsbD_or, gateMask_bit k hk,
      Bool.or_true]
  · rw [Dev.orW, Dev.bit_wr_same, BitVec.getLsbD_or, gateMask_bit k hk, Bool.or_true]

/-- After the gate trip every channel is off. -/
theorem Dev.gateTrip_off (d : Dev) (k : Nat) (hk : k < 8) : (d.gateTrip.gate k).on = .off := by
  have key : (d.allOff.gate k).on = .off := Dev.offLoop_off 8 d k hk
  unfold Dev.gateTrip
  generalize d.allOff = e at key ⊢
  simp only
  split <;> simpa using key

/-! ### TRIP blocks -/

theorem Dev.sendTrip_past (p : Nat) (b : List Byte) (d : Dev) : (d.sendTrip p b).pastFaults = d.pastFaults := by
  simp [Dev.sendTrip]

theorem Dev.sendTrip_fc (p : Nat) (b : List Byte) (d : Dev) : (d.sendTrip p b).fc = d.fc := by
  simp [Dev.sendTrip]

theorem Dev.sendTrip_rd (p : Nat) (b : List Byte) (a : Nat) (d : Dev) (h : a ≠ Reg.RING_CNT_TRIP p) : (d.sendTrip p b).rd a = d.rd a := by
  unfold Dev.sendTrip; rw [Dev.inc_rd_other _ _ _ _ h, Dev.send_rd]

theorem Dev.sendTrip_gates (p : Nat) (b : List Byte) (d : Dev) : (d.sendTrip p b).gates = d.gates := by
  simp [Dev.sendTrip]

/-- What every TRIP block keeps, a launch keeps. -/
theorem Dev.tripLaunch_keeps {β : Type} (g : Dev → β) (src : Nat) (d : Dev) (h : ∀ p b x, g (Dev.sendTrip p b x) = g x) :
    g (d.tripLaunch src) = g (d.tripMark src) := by
  unfold Dev.tripLaunch
  generalize d.tripMark src = e
  simp only
  apply forN_keeps g
  intro i x
  show g (if _ then _ else _) = g x
  split
  · exact h i _ x
  · rfl

theorem Dev.tripLaunch_past (src : Nat) (d : Dev) : (d.tripLaunch src).pastFaults = d.pastFaults :=
  Dev.tripLaunch_keeps Dev.pastFaults src d Dev.sendTrip_past

theorem Dev.tripLaunch_gates (src : Nat) (d : Dev) : (d.tripLaunch src).gates = d.gates :=
  Dev.tripLaunch_keeps (fun d => d.gates) src d Dev.sendTrip_gates

theorem Dev.tripLaunch_gate (src k : Nat) (d : Dev) : (d.tripLaunch src).gate k = d.gate k := by
  have h := Dev.tripLaunch_gates src d
  unfold Dev.gate
  rw [h]

/-- The collector after a launch: TSEQ advances by 1 and the repeats carry it. -/
theorem Dev.tripLaunch_fc (src : Nat) (d : Dev) : (d.tripLaunch src).fc =
    { d.fc with tseq := (d.fc.tseq + 1) % 256, trip := some (src, (d.fc.tseq + 1) % 256), tripSrc := some src } :=
  Dev.tripLaunch_keeps (fun d => d.fc) src d Dev.sendTrip_fc

theorem Dev.tripLaunch_rd (src a : Nat) (d : Dev) (h : a ≠ Reg.FC_STAT) (h2 : ∀ p, a ≠ Reg.RING_CNT_TRIP p) :
    (d.tripLaunch src).rd a = d.rd a := by
  rw [Dev.tripLaunch_keeps (fun d => d.rd a) src d (fun p b x => Dev.sendTrip_rd p b a x (h2 p)), Dev.tripMark,
    Dev.rd_setF_other _ _ _ _ _ _ h, Dev.putFc_rd]

/-! ### Raising a source -/

/-- The fast path after its gate trip. -/
theorem Dev.fastPath_cases (d : Dev) :
    d.fastPath = d.gateTrip.putFc { d.gateTrip.fc with fast := true } ∨
      ∃ q, d.fastPath = (d.gateTrip.putFc { d.gateTrip.fc with fast := true }).tripLaunch q := by
  unfold Dev.fastPath
  generalize d.gateTrip = e
  by_cases h : (e.putFc { e.fc with fast := true }).fc.tripSrc.isSome = true
  · exact .inl (if_pos h)
  · exact .inr ⟨_, if_neg h⟩

theorem Dev.fastPath_past (d : Dev) : d.fastPath.pastFaults = d.pastFaults := by
  have h := Dev.gateTrip_past d
  rcases Dev.fastPath_cases d with e | ⟨q, e⟩
  · rw [e, Dev.putFc_past, h]
  · rw [e, Dev.tripLaunch_past, Dev.putFc_past, h]

theorem Dev.fastPath_rd (a : Nat) (d : Dev) (h1 : a ≠ Reg.GATE_EVT) (h2 : a ≠ Reg.GATE_STAT) (h3 : a ≠ Reg.FC_STAT)
    (h4 : ∀ p, a ≠ Reg.RING_CNT_TRIP p) : d.fastPath.rd a = d.rd a := by
  rcases Dev.fastPath_cases d with e | ⟨q, e⟩
  · rw [e, Dev.putFc_rd, Dev.gateTrip_rd _ _ h1 h2]
  · rw [e, Dev.tripLaunch_rd _ _ _ h3 h4, Dev.putFc_rd, Dev.gateTrip_rd _ _ h1 h2]

theorem Dev.fastPath_forming (d : Dev) : d.fastPath.fc.forming = d.fc.forming := by
  rcases Dev.fastPath_cases d with e | ⟨q, e⟩
  · rw [e, Dev.putFc_fc, Dev.gateTrip_fc]
  · rw [e, Dev.tripLaunch_fc, Dev.putFc_fc, Dev.gateTrip_fc]

/-- The fast path leaves every leg tripped and every channel off. -/
theorem Dev.fastPath_legs (d : Dev) (k : Nat) (hk : k < 8) :
    d.fastPath.bit Reg.GATE_STAT k = true ∧ (d.fastPath.gate k).on = .off := by
  have h1 := Dev.gateTrip_tripped d k hk
  have h2 := Dev.gateTrip_off d k hk
  rcases Dev.fastPath_cases d with e | ⟨q, e⟩
  · rw [e, Dev.putFc_bit, Dev.putFc_gate]; exact ⟨h1, h2⟩
  · rw [e]
    constructor
    · unfold Dev.bit
      rw [Dev.tripLaunch_rd _ _ _ (by decide) (fun p => by simp [Reg.GATE_STAT, Reg.RING_CNT_TRIP]; omega), Dev.putFc_rd]
      exact h1
    · rw [Dev.tripLaunch_gate, Dev.putFc_gate]
      exact h2

theorem Dev.srcEnabled_lt (d : Dev) (i : Nat) (h : d.srcEnabled i = true) : i < 102 := by
  simp only [Dev.srcEnabled, Bool.and_eq_true, decide_eq_true_eq] at h; exact h.1

/-- A raise touches nothing beside what reactions touch. -/
theorem Dev.raise_past (i : Nat) (d : Dev) : (d.raise i).pastFaults = d.pastFaults := by
  unfold Dev.raise
  split
  · rfl
  split
  · simp
  split <;> simp [Dev.fastPath_past, Dev.raiseMark]

/-- The registers a raise can change. -/
def raiseRegs (a : Nat) : Prop :=
  a = Reg.FC_CNT_REPEAT ∨ a = Reg.GATE_EVT ∨ a = Reg.GATE_STAT ∨ a = Reg.FC_STAT ∨ (∃ w, w < 4 ∧ a = Reg.FC_PEND w) ∨
    ∃ p, a = Reg.RING_CNT_TRIP p

theorem Dev.raise_rd (i a : Nat) (d : Dev) (h : ¬ raiseRegs a) : (d.raise i).rd a = d.rd a := by
  simp only [raiseRegs, not_or, not_exists, not_and] at h
  obtain ⟨h1, h2, h3, h4, h5, h6⟩ := h
  by_cases he : d.srcEnabled i = true
  · have hlt := Dev.srcEnabled_lt d i he
    have hm : (d.raiseMark i).rd a = d.rd a := by
      rw [Dev.raiseMark]; simp only
      rw [Dev.putFc_rd, Dev.rd_setB_other _ _ _ _ _ (h5 (i / 32) (by omega))]
    unfold Dev.raise
    rw [he]
    simp only [Bool.not_true, Bool.false_eq_true, if_false]
    split
    · exact Dev.inc_rd_other _ _ _ _ h1
    split
    · rw [Dev.fastPath_rd _ _ h2 h3 h4 h6, hm]
    · exact hm
  · unfold Dev.raise
    rw [if_pos (by simpa using he)]

theorem Dev.raise_mem (i : Nat) (d : Dev) : (d.raise i).mem = d.mem := by
  simpa using congrArg (fun d : Dev => d.mem) (Dev.raise_past i d)

/-! ### Lock-out -/

theorem Dev.lockOut_past (c : Nat) (d : Dev) : (d.lockOut c).pastFaults = d.pastFaults := by
  unfold Dev.lockOut; simp only; split <;> simp

/-- The lock-out: LOCKED; the cause is that of the last entry. -/
theorem Dev.lockOut_safe (c : Nat) (d : Dev) :
    (d.lockOut c).safe = { d.safe with state := 0, cause := if d.safe.state = 0 then d.safe.cause else c } := by
  unfold Dev.lockOut; by_cases h : d.safe.state = 0 <;> simp [h]

theorem Dev.lockOut_rd (c a : Nat) (d : Dev) (h1 : a ≠ Reg.SAFE_OUT_REQ) (h2 : a ≠ Reg.SAFE_EVT) : (d.lockOut c).rd a = d.rd a := by
  unfold Dev.lockOut; simp only; rw [Dev.putSafe_rd]; split
  · rw [Dev.rd_setB_other _ _ _ _ _ h2, Dev.rd_wr_other _ _ _ _ h1]
  · rw [Dev.rd_wr_other _ _ _ _ h1]

theorem Dev.lockOut_req (c : Nat) (d : Dev) : (d.lockOut c).rd Reg.SAFE_OUT_REQ = 0 := by
  unfold Dev.lockOut; simp only; rw [Dev.putSafe_rd]; split
  · rw [Dev.rd_setB_other _ _ _ _ _ (by decide), Dev.rd_wr_same]
  · rw [Dev.rd_wr_same]

end Sys2Proof.Machine
end

