-- ==== Sys2Proof/WellFormed.lean ====
section
/-! DEFINITION. Which commands a sender can send: operands that the constructors' types leave wider than the spec does. The
meanings are total and do not ask for it. -/

namespace Sys2Proof

/-- A frame on a lane: SOF carries bytes 1 to 7 (R137), the data are whole blocks of eight bytes (R137). -/
def Frame.wf (f : Frame) : Bool := f.sof.length == 7 && f.data.length % 8 == 0

/-- An image has its header of 256 bytes (R495). -/
def Image.wf (i : Image) : Bool := decide (256 ≤ i.bytes.length)

/-- A block read brings at most 32 bytes (R508). -/
def PmbEnd.wf : PmbEnd → Bool
  | .ok bytes => decide (bytes.length ≤ 32)
  | _ => true

/-- The commands a sender can send. -/
def Instr.wf : Instr → Bool
  | .collectFrameReceived _ f | .repollFrameReceived _ f | .serviceFrameReceived _ f | .discoverResult _ f => f.wf
  | .twinCommandReceived f | .twinCopyReceived f | .twinSnapReceived f | .twinMissReceived f
  | .twinServiceReceived f => f.wf
  | .twinStatusReceived x => x.frame.wf
  | .timeBlockReceived _ _ stamp16 _ => decide (stamp16 < 2 ^ 68)
  | .quickEyeDone _ w h | .eyeScanDone _ w h => decide (w ≤ 64) && decide (h ≤ 64)
  | .adcCalDone _ ofs gain skew => ofs.length == 4 && gain.length == 4 && skew.length == 4
  | .bwSecond rms => rms.length == 3
  | .bootImageStart _ ia ib _ => (ia.map Image.wf).getD true && (ib.map Image.wf).getD true
  | .recoveryImageReceived i => i.wf
  | .pmbDone e => e.wf
  | .ethFrameReceived _ bytes _ _ => !bytes.isEmpty
  | .testPulse _ pairs => pairs.length == 4
  | _ => true

end Sys2Proof
end

