-- ==== Sys2Proof/Tests/Slice0.lean ====
section
/-! SUPPORT. Tests: ill-formed commands, words, worked examples of the spec, and for every statement with hypotheses concrete states and operands
that meet the hypotheses of each of its clauses together. Every test is one step at most, on a small state. -/

namespace Sys2Proof.Tests

set_option Elab.async false

open Sys2Proof Sys2Proof.Machine

/-- A device in operation: SAFE runs, every domain is on. -/
def dv : Dev := { pwr := { mainGood := true, safeOn := true }, regs := [(Reg.SYS_PWR_STAT, 0xFE), (Reg.CLK_STAT, 7)] }
/-- It, with registers set. -/
def rg (l : List (Nat × Word)) : Dev := { dv with regs := l ++ dv.regs }
/-- A state of a device, with its pins. -/
def st (d : Dev) : State := { pending := [], dev := d, pins := pinsOf d }
/-- Device time counts, with every instant of the sequencer far off. -/
def tbF : TimeBase := { counting := true, notBefore := 10 ^ 12 }
/-- A block payload of eight bytes. -/
def pl (l : List Byte) : BitVec 64 := BitVec.ofNat 64 (beVal l)

/-- Registers of a core with edge values. -/
def gr (p : BitVec 4) : Regs :=
  { g := [(1, 5), (2, 0x80000000), (3, 0x7FFFFFFF), (4, 0xFFFFFFFF), (5, 0x1F4), (6, 33), (7, 0x10000)],
    acc := [(0, 5), (1, 2 ^ 71 + 3), (3, 0xFF0000000012345678)], p := p }

/-- An engine's memories hold no upset word where no word is upset. -/
theorem engClean_of_no_upset (n : Nat) (d : Dev) (h : d.ecc = []) : d.EngClean n := by
  intro w _ _
  simp [h, SMap.getD, SMap.get?]

/-- The device after one command. -/
def post (i : Instr) (d : Dev) : Dev :=
  match exec i (st d) with
  | .next t => t.dev
  | _ => d

/-! ### Ill-formed commands are refused by the check -/

theorem test_wf_frame_without_sof : (Instr.collectFrameReceived 0 (mkFrame [] [])).wf = false := by decide +kernel
theorem test_wf_frame_of_part_blocks : (Instr.twinSnapReceived (mkFrame [0xA0, 0, 0, 0, 0, 0, 0] [1])).wf = false := by decide +kernel
theorem test_wf_stamp_too_wide : (Instr.timeBlockReceived 0 0 (2 ^ 68) false).wf = false := by decide +kernel
theorem test_wf_eye_too_wide : (Instr.quickEyeDone 0 65 1).wf = false := by decide +kernel
theorem test_wf_eye_too_high : (Instr.eyeScanDone 0 1 65).wf = false := by decide +kernel
theorem test_wf_three_slices : (Instr.adcCalDone 0 [0, 0, 0] [0, 0, 0, 0] [0, 0, 0, 0]).wf = false := by decide +kernel
theorem test_wf_two_inputs : (Instr.bwSecond [1, 2]).wf = false := by decide +kernel
theorem test_wf_image_length :
    (Instr.recoveryImageReceived ⟨[1]⟩).wf = false := by decide +kernel
theorem test_wf_boot_image_length :
    (Instr.bootImageStart true none (some ⟨[1]⟩) 0).wf = false := by decide +kernel
theorem test_wf_block_read_too_long : (Instr.pmbDone (.ok (List.replicate 33 0))).wf = false := by decide +kernel
theorem test_wf_empty_ethernet_frame : (Instr.ethFrameReceived 0 [] true 0).wf = false := by decide +kernel
theorem test_wf_three_pairs : (Instr.testPulse false []).wf = false := by decide +kernel
theorem test_wf_frame_is_well_formed : (Instr.twinStatusReceived ⟨mkFrame [0xB0, 0, 0, 0, 0, 0, 0] [], false⟩).wf = true := by decide +kernel

/-! ### Words, from the fields of R224 to R245 -/

/-- MOVI g1, 5; ADD g1, g2, g3; with p1: ADD g1, g2, -1; HALT; LD g4, [g5 + 8]; LOOP 0, 100 rounds of 70 words; MFS g2, 0. -/
theorem test_accord_words (c : Core) :
    decodeAccord c 0b00001001000010000000000000000101#32 = some (.movi c ⟨0, false⟩ 1 5) ∧
    decodeAccord c 0b00000000100001001000110000000000#32 = some (.add c ⟨0, false⟩ (.r 1 2 3 0)) ∧
    decodeAccord c 0b01000000110001001011111111111111#32 = some (.add c ⟨1, false⟩ (.i 1 2 0x3FFF)) ∧
    decodeAccord c 0b00000000000000000000000000000000#32 = some (.halt c ⟨0, false⟩ 0) ∧
    decodeAccord c 0b00001100001000101000000000001000#32 = some (.ld c ⟨0, false⟩ ⟨4, 5, 0, 8⟩) ∧
    decodeAccord c 0b00011000100000000001100100000110#32 = some (.loop c ⟨0, false⟩ (.imm 0 100 70)) ∧
    decodeAccord c 0b00011100000100000000000000000000#32 = some (.mfs c ⟨0, false⟩ 2 0 0) :=
  ⟨rfl, rfl, rfl, rfl, rfl, rfl, rfl⟩

/-- The opcodes 0x3B to 0x3F are reserved. -/
theorem test_reserved_opcodes :
    [0x3B, 0x3C, 0x3D, 0x3E, 0x3F].all (fun o => (decodeAccord .supv (BitVec.ofNat 32 (o * 2 ^ 23))).isNone) = true := by decide +kernel

/-! ### Worked examples of the spec -/

/-- "123456789" under the parameters of R142 gives 0x29B1 (14_ports_queues_crc.md, after R477). -/
theorem test_crc_of_digits : crc16 [0x31, 0x32, 0x33, 0x34, 0x35, 0x36, 0x37, 0x38, 0x39] = 0x29B1 := by decide +kernel

/-- The same through CRC0: after 0x3433_3231 and 0x3837_3635, the byte 0x39 ends it; the register before it is the check of the first eight. -/
theorem test_crc_unit_last_byte :
    (post (.crcDin .supv 0 .d8 0x39) (rg [(Reg.CRC_CFG 0, 16), (Reg.CRC_POLY 0, 0x1021),
      (Reg.CRC_VAL 0, BitVec.ofNat 32 (crc16 [0x31, 0x32, 0x33, 0x34, 0x35, 0x36, 0x37, 0x38]))])).rd (Reg.CRC_VAL 0) = 0x29B1 := by decide +kernel

/-- MULQ of 2^-31 and 0.5 rounds the half up to 1, with -0.5 to 0 (07_accord_isa.md, after R231). -/
theorem test_mulq_rounds_half_up :
    (post (.mulq .supv ⟨0, false⟩ (.r 3 1 2 0)) { dv with
      boot := { runs := true }
      sup := { regs := { g := [(1, 1), (2, 0x40000000), (3, 7)] } } }).sup.regs.rg 3 = 1 ∧
    (post (.mulq .supv ⟨0, false⟩ (.r 3 1 2 0)) { dv with
      boot := { runs := true }
      sup := { regs := { g := [(1, 1), (2, 0xC0000000), (3, 7)] } } }).sup.regs.rg 3 = 0 := by decide +kernel

/-- +0.5 V reads 0x3333 (09_measurement.md, after R294). -/
theorem test_half_a_volt :
    (post (.conversionComplete 0 500000 50) { (rg [(Reg.ADC_CTL 0, 1)]) with adcs := [(0, { inj := [(3, 1, 0)] })] }).fld
      (Reg.ADC_INJ_RES 0 1) 0 16 = 0x3333 := by decide +kernel

/-- The descriptor entry of RING begins at 0xFFFF_F130 with 0x0004_182C (02_address_space.md, after R51). -/
theorem test_ring_descriptor :
    (post (.memoryAccess .supv 0xFFFFF130#32 .b32 .read) dv).busResp = ⟨0x0004182C, 0⟩ ∧
    (post (.memoryAccess .supv 0xFFFFF134#32 .b32 .read) dv).busResp = ⟨0x40100000, 0⟩ := by decide +kernel

/-- Ring port 11 stands at 0x401B_0000 (02_address_space.md, after R40). -/
theorem test_ring_port_11 : laneReg 11 0 = 0x401B0000 := by decide +kernel

/-- An address of no region is UNMAPPED, code 1 (R47). -/
theorem test_unmapped : (post (.memoryAccess .supv 0x00300000#32 .b32 .read) dv).busResp = ⟨0, 1⟩ := by decide +kernel

/-- The band entry 0 that the heart note writes (R433). -/
theorem test_heart_note_band :
    (post .heartNoteEntry (rg [(Reg.SYS_STAGE, 1)])).rd (Reg.CLK_BAND 0) = 0xBEAB86A0 := by decide +kernel

/-- KEY1 and KEY2 of the unlock sequence (R397). -/
theorem test_keys :
    (post (.key1 .supv 0xC3A5) { dv with safe := { state := 1 } }).safe.state = 2 ∧
    (post (.key2 .supv 0x5A3C) { dv with safe := { state := 2 } }).safe.state = 3 ∧
    (post (.key1 .supv 0x5A3C) { dv with safe := { state := 1 } }).safe.state = 0 := by decide +kernel

/-! ### The image's checks: the examples of FIPS 180-4 and RFC 6979 -/

theorem test_sha256_abc :
    sha256 [0x61, 0x62, 0x63] = [0xba7816bf, 0x8f01cfea, 0x414140de, 0x5dae2223, 0xb00361a3, 0x96177a9c, 0xb410ff61, 0xf20015ad] := by decide +kernel

theorem test_ecdsa_p256_sample :
    ecdsaOk 0x60fed4ba255a9d31c961eb74c6356d68c049b8923b61fa6ce669622e60f29fb6 0x7903fe1008b8bc99a41ae9e95628bc64f2f1b20c2d7e9f5177a3c294d4462299
      0xefd48b2aacb6a8fd1140dd9cd45e81d69d2c877b56aaf991c34d0ea84eaf3716 0xf7cb1c942d657c41d436c7a1b6e29f65f3e900dbb9aff4064dc4ab2f843acda8
      (wordsVal (sha256 [0x73, 0x61, 0x6d, 0x70, 0x6c, 0x65])) = true := by decide +kernel

/-! ### States that meet the hypotheses of the statements -/

/-- A command waits. -/
theorem test_witness_StepRunsFrontCommand :
    ({ st dv with pending := [.mainSupplyLoss, .resetNAssert] } : State).pending = .mainSupplyLoss :: [.resetNAssert] := rfl

/-- An empty queue, with SAFE off and with device time before the next instant. -/
theorem test_witness_EveryStepCompletes :
    State.reset.pending = [] ∧ State.reset.dev.pwr.safeOn = false ∧ State.reset.dev.tb.dt ≤ State.reset.dev.nextSeq * 2 ^ 48 := by decide +kernel

/-- A step whose result leaves the TAP off. -/
theorem test_witness_NoStepShootsThrough : ∃ t, step { st dv with pending := [.x32Recovered] } = .next t ∧ t.TapOff := ⟨_, rfl, rfl⟩

/-- A tripped leg after a command; a safe output that is energised after one. -/
theorem test_witness_HeldOutputsStayOff :
    (∃ t, exec .x32Recovered (st (rg [(Reg.GATE_STAT, 0x80)])) = .next t ∧ t.TapOff ∧ t.dev.bit Reg.GATE_STAT 7 = true) ∧
    (∃ t, exec .x32Recovered (st { rg [(Reg.SAFE_OUT 0, 1), (Reg.SAFE_OUT_REQ, 1)] with safe := { state := 3 } }) = .next t ∧ t.TapOff ∧
      t.pins.sout.getLsbD 0 = true) :=
  ⟨⟨_, rfl, rfl, by decide +kernel⟩, ⟨_, rfl, rfl, by decide +kernel⟩⟩

/-- An instruction with a word. -/
theorem test_witness_AccordWordRoundTrip :
    encodeAccord (.movi .supv ⟨0, false⟩ 1 5) = some 0b00001001000010000000000000000101#32 := rfl

def wFaultRaiseAndAcknowledge0 : State := st dv
def wFaultRaiseAndAcknowledge1 : State := st (rg [(Reg.FC_EN 0, 0xFFFFFFFF), (Reg.FC_PEND 0, 1), (Reg.FC_PEND 2, 0x80000000), (Reg.FC_EN 2, 0xFFFFFFFF), (Reg.FC_CLASS_0, 0xAAAAAAAA)])
def wFaultRaiseAndAcknowledge2 : State := st { rg [(Reg.FC_PEND 0, 1), (Reg.FC_EN 0, 1), (Reg.FC_CNT_REPEAT, 0xFFFFFFFF), (Reg.FC_PEND 2, 0x8000000), (Reg.FC_PEND 1, 0x400)] with fc := { forming := [0] }, safe := { inBad := 1 } }
/-- Hypotheses of `Obligations.FaultRaiseAndAcknowledge`, clause by clause. -/
theorem test_witness_FaultRaiseAndAcknowledge :
  (Dev.BusOpen Master.supv (Reg.FC_PEND 0) wFaultRaiseAndAcknowledge1.dev ∧ wFaultRaiseAndAcknowledge1.dev.srcPending (32 * 0 + 0) = true ∧
      wFaultRaiseAndAcknowledge1.dev.srcActive (32 * 0 + 0) = false ∧ ¬32 * 0 + 0 ∈ wFaultRaiseAndAcknowledge1.dev.fc.forming) ∧
  (Dev.BusOpen Master.supv (Reg.FC_PEND 2) wFaultRaiseAndAcknowledge2.dev ∧ wFaultRaiseAndAcknowledge2.dev.srcPending (32 * 2 + 27) = true ∧
      wFaultRaiseAndAcknowledge2.dev.srcActive (32 * 2 + 27) = true) ∧
  (wFaultRaiseAndAcknowledge0.dev.pwr.safeOn = true ∧ wFaultRaiseAndAcknowledge0.dev.srcEnabled 0 = true ∧ wFaultRaiseAndAcknowledge0.dev.srcPending 0 = false) ∧
  (wFaultRaiseAndAcknowledge1.dev.pwr.safeOn = true ∧ wFaultRaiseAndAcknowledge1.dev.srcEnabled 0 = true ∧ wFaultRaiseAndAcknowledge1.dev.srcPending 0 = true) ∧
  (wFaultRaiseAndAcknowledge2.dev.pwr.safeOn = true ∧ wFaultRaiseAndAcknowledge2.dev.srcEnabled 1 = false) := by
  repeat' apply And.intro
  all_goals decide +kernel

def wFaultReactions0 : State := st { rg [(Reg.FC_EN 0, 0xFFFFFFFF), (Reg.FC_CLASS_0, 0xAAAAAAAA), (Reg.FC_CLASS_0 + 8, 0xAAAAAAAA)] with fc := { forming := [0] } }
def wFaultReactions1 : State := st { rg [(Reg.FC_EN 1, 0xFFFF), (Reg.FC_CLASS_0 + 8, 0xFFFFFFFF), (Reg.SAFE_OUT_REQ, 5)] with fc := { forming := [47, 60] }, safe := { state := 3 } }
/-- Hypotheses of `Obligations.FaultReactions`, clause by clause. -/
theorem test_witness_FaultReactions :
  (wFaultReactions0.dev.fc.forming ≠ [] ∧ ∃ i, i ∈ wFaultReactions0.dev.fc.forming ∧ 2 ≤ wFaultReactions0.dev.srcClass i) ∧
  (wFaultReactions1.dev.fc.forming ≠ [] ∧ (∃ i, i ∈ wFaultReactions1.dev.fc.forming ∧ 2 ≤ wFaultReactions1.dev.srcClass i) ∧ ∃ i, i ∈ wFaultReactions1.dev.fc.forming ∧
      wFaultReactions1.dev.srcClass i = 3) ∧
  (wFaultReactions0.dev.pwr.safeOn = true ∧ 0 < 48 ∧ wFaultReactions0.dev.srcEnabled 0 = true ∧ wFaultReactions0.dev.srcPending 0 = false ∧
      2 ≤ wFaultReactions0.dev.srcClass 0) := by
  repeat' apply And.intro
  all_goals decide +kernel

def wReleaseAndErrorPin0 : State := st { dv with fc := { hold := 2, errn := true, errnMin := true, errnRel := true } }
def wReleaseAndErrorPin1 : State := st { rg [(Reg.FC_CTL, 0x100), (Reg.FC_STAT, 2), (Reg.FC_PEND 0, 1), (Reg.FC_EN 0, 1), (Reg.FC_CLASS_0, 2)] with fc := { hold := 2, errn := true } }
/-- Hypotheses of `Obligations.ReleaseAndErrorPin`, clause by clause. -/
theorem test_witness_ReleaseAndErrorPin :
  (wReleaseAndErrorPin0.dev.fc.errnMin = true) ∧
  (Dev.BusOpen Master.supv Reg.FC_ERRN wReleaseAndErrorPin0.dev ∧ wReleaseAndErrorPin0.dev.fc.forming = [] ∧ (4294967295#32).getLsbD 16 = true ∧
      wReleaseAndErrorPin0.dev.fc.errnMin = true) ∧
  (Dev.BusOpen Master.supv Reg.FC_ERRN wReleaseAndErrorPin1.dev ∧ wReleaseAndErrorPin1.dev.fc.forming = [] ∧ (4294967295#32).getLsbD 16 = true ∧
      ¬wReleaseAndErrorPin1.dev.fc.errnMin = true) ∧
  (Dev.BusOpen Master.supv Reg.FC_CTL wReleaseAndErrorPin0.dev) ∧
  (Dev.BusOpen Master.supv Reg.FC_CMD wReleaseAndErrorPin0.dev ∧ (4233756673#32).getLsbD 0 = true ∧ fieldOf (4233756673#32) 16 16 = 64602 ∧
      wReleaseAndErrorPin0.dev.tripPending = false) ∧
  (Dev.BusOpen Master.supv Reg.FC_CMD wReleaseAndErrorPin0.dev ∧ (1#32).getLsbD 0 = true ∧ ¬(fieldOf (1#32) 16 16 = 64602 ∧
      wReleaseAndErrorPin0.dev.tripPending = false)) := by
  repeat' apply And.intro
  all_goals decide +kernel

def wScheduledEdgesAndInterlock0 : State := st { rg [(Reg.GATE_STAT, 0x01000000)] with gates := [(0, { on := .high, en := true, pend := .low, evs := [(20, 1)] }), (7, { en := true, evs := [(0, 2), (5, 2)], on := .low })] }
def wScheduledEdgesAndInterlock2 : State := st { rg [(Reg.GATE_STAT, 0x00008000), (Reg.GATE_CUT_0 + 28, 0x00000101), (Reg.CMP_STAT, 1), (Reg.CMP_CTL, 0xFF)] with gates := [(7, { evs := [(0,3)] })], tb := tbF }
def wScheduledEdgesAndInterlock3 : State := st { rg [(Reg.GATE_STAT, 0x00000100), (Reg.ATM_CL_CTL 6, 1), (Reg.ATM_CL_CPER 6, 40000)] with gates := [(0, { sched := .high, en := true, cutAt := 77 })], tb := tbF }
/-- Hypotheses of `Obligations.ScheduledEdgesAndInterlock`, clause by clause. -/
theorem test_witness_ScheduledEdgesAndInterlock :
  (Dev.Due (wScheduledEdgesAndInterlock3.dev.cutEnd 0) wScheduledEdgesAndInterlock3.dev ∧
      (wScheduledEdgesAndInterlock3.dev.bit Reg.GATE_STAT (8 + 0) = true ∨ wScheduledEdgesAndInterlock3.dev.bit Reg.GATE_STAT (16 + 0) = true)) ∧
  ((wScheduledEdgesAndInterlock0.dev.gate 0).pend ≠ Chan.off) ∧
  ((wScheduledEdgesAndInterlock0.dev.gate 0).evs = [(20, 1)] ∧ wScheduledEdgesAndInterlock0.dev.bit (Reg.GATE_MODE 0) 0 = false ∧ 1 < 8 ∧ 1 ≠ 0) ∧
  ((wScheduledEdgesAndInterlock0.dev.gate 0).evs = [(20, 1)] ∧ wScheduledEdgesAndInterlock0.dev.bit (Reg.GATE_MODE 0) 0 = false ∧
      (wScheduledEdgesAndInterlock0.dev.gate 0).en = true ∧ wScheduledEdgesAndInterlock0.dev.legHeld 0 = false) ∧
  ((wScheduledEdgesAndInterlock2.dev.gate 7).evs = [(0, 3)] ∧ wScheduledEdgesAndInterlock2.dev.bit (Reg.GATE_MODE 7) 0 = false ∧
      ¬((wScheduledEdgesAndInterlock2.dev.gate 7).en = true ∧ wScheduledEdgesAndInterlock2.dev.legHeld 7 = false)) ∧
  (wScheduledEdgesAndInterlock0.dev.pwr.safeOn = true) := by
  repeat' apply And.intro
  all_goals decide +kernel

def wGateRegisters0 : State := st (rg [(Reg.GATE_CTL, 0xFF), (Reg.GATE_STAT, 0xF0000000)])
def wGateRegisters1 : State := st { rg [(Reg.GATE_CTL, 0x81)] with fc := { hold := 2 }, tb := { counting := true }, gates := [(0, { on := .high, en := true }), (7, { on := .low, pend := .high, en := true })] }
/-- Hypotheses of `Obligations.GateRegisters`, clause by clause. -/
theorem test_witness_GateRegisters :
  (wGateRegisters1.dev.tb.counting = true) ∧
  (Dev.BusOpen Master.supv (Reg.GATE_MODE 0) wGateRegisters0.dev ∧ wGateRegisters0.dev.bit Reg.GATE_CTL 0 = true) ∧
  (Dev.BusOpen Master.supv (Reg.GATE_MODE 1) wGateRegisters1.dev ∧ ¬wGateRegisters1.dev.bit Reg.GATE_CTL 1 = true) ∧
  (Dev.BusOpen Master.supv Reg.GATE_CTL wGateRegisters1.dev ∧ (256#32).getLsbD 8 = true ∧ 2 ≤ wGateRegisters1.dev.fc.hold) ∧
  (Dev.BusOpen Master.supv Reg.GATE_CTL wGateRegisters0.dev ∧ (256#32).getLsbD 8 = true ∧ ¬2 ≤ wGateRegisters0.dev.fc.hold) ∧
  (Dev.BusOpen Master.supv Reg.GATE_CTL wGateRegisters0.dev ∧ 0 < 8 ∧ wGateRegisters0.dev.bit Reg.GATE_CTL 0 = true ∧ (0#32).getLsbD 0 = false) := by
  repeat' apply And.intro
  all_goals decide +kernel

def wGateSupervision0 : State := st (rg [(Reg.GATE_SUP_CTL, 0xFFFFFFFF), (Reg.FC_EN 0, 0xFFFFFFFF), (Reg.GATE_SUP_STAT, 0), (Reg.GATE_SUP_CH 0, 100)])
def wGateSupervision1 : State := st { rg [(Reg.GATE_SUP_CTL, 0), (Reg.GATE_SUP_STAT, 0)] with gates := [] }
def wGateSupervision2 : State := st { rg [(Reg.GATE_SUP_CTL, 1), (Reg.GATE_SUP_STAT, 0), (Reg.GATE_SUP_CH 0, 100), (Reg.GATE_SUP_CH 1, 0xFFF)] with gates := [(0, { on := .high, en := true })] }
def wGateSupervision4 : State := st { rg [(Reg.GATE_SUP_CTL, 1), (Reg.GATE_SUP_STAT, 1), (Reg.FC_EN 0, 0xFFFFFFFF), (Reg.FC_CLASS_0, 3)] with fc := { blank := [(0, 40)] } }
/-- Hypotheses of `Obligations.GateSupervision`, clause by clause. -/
theorem test_witness_GateSupervision :
  (wGateSupervision0.dev.pwr.safeOn = true ∧ wGateSupervision0.dev.pdrvLow = false ∧ 0 < 16 ∧ wGateSupervision0.dev.srcEnabled (16 + 0) = true) ∧
  (wGateSupervision0.dev.pwr.safeOn = true ∧ wGateSupervision0.dev.grdyBad.getLsbD 0 = false ∧ wGateSupervision0.dev.bit Reg.GATE_SUP_CTL (16 + 0) = true ∧
      wGateSupervision0.dev.srcEnabled (16 + 0) = true) ∧
  (wGateSupervision1.dev.pwr.safeOn = true ∧ wGateSupervision1.dev.grdyBad.getLsbD 0 = false ∧ wGateSupervision1.dev.bit Reg.GATE_SUP_CTL (16 + 0) = false) ∧
  (wGateSupervision4.dev.fc.blank.getD 0 0 ≠ 0 ∧ wGateSupervision4.dev.bit Reg.GATE_SUP_STAT 0 = true ∧ wGateSupervision4.dev.bit Reg.GATE_SUP_CTL 0 = true ∧
      wGateSupervision4.dev.srcEnabled 0 = true ∧ wGateSupervision4.dev.srcPending 0 = false) ∧
  (wGateSupervision1.dev.pwr.safeOn = true ∧ wGateSupervision1.dev.bit Reg.GATE_SUP_CTL 0 = false) ∧
  (wGateSupervision2.dev.pwr.safeOn = true ∧ wGateSupervision2.dev.bit Reg.GATE_SUP_STAT 0 = false ∧ wGateSupervision2.dev.bit Reg.GATE_SUP_CTL 0 = true ∧
      wGateSupervision2.dev.gout 0 = true ∧ 0 < wGateSupervision2.dev.fld (Reg.GATE_SUP_CH 0) 0 12) := by
  repeat' apply And.intro
  all_goals decide +kernel

def wPeriodBoundary0 : State := st { dv with tb := { counting := true, dt := 12345 * 2 ^ 48, notBefore := 12346 } }
def wPeriodBoundary1 : State := st { rg [(Reg.TIME_PHASES, 0x06400190)] with tb := { counting := true, phPend := true, tP := 10000, anchor := 9990, engStart := 10000, outPhase := 9999, notBefore := 9990 }, atm := { new := { valid := true, stop := true }, running := true } }
/-- Hypotheses of `Obligations.PeriodBoundary`, clause by clause. -/
theorem test_witness_PeriodBoundary :
  (wPeriodBoundary1.dev.tb.counting = true ∧ wPeriodBoundary1.dev.tb.engAt = none ∧ wPeriodBoundary1.dev.tb.outAt = none ∧ wPeriodBoundary1.dev.atm.new.valid = true) ∧
  (wPeriodBoundary0.dev.tb.counting = true ∧ wPeriodBoundary0.dev.tb.engAt = none ∧ wPeriodBoundary0.dev.tb.outAt = none ∧ wPeriodBoundary0.dev.tb.stepPend = none ∧
      wPeriodBoundary0.dev.tb.gridPend = false ∧ 0 < wPeriodBoundary0.dev.tb.tP ∧ wPeriodBoundary0.dev.tb.phPend = false) ∧
  (wPeriodBoundary1.dev.tb.counting = true ∧ wPeriodBoundary1.dev.tb.engAt = none ∧ wPeriodBoundary1.dev.tb.outAt = none ∧ wPeriodBoundary1.dev.tb.stepPend = none ∧
      wPeriodBoundary1.dev.tb.gridPend = false ∧ 0 < wPeriodBoundary1.dev.tb.tP ∧ wPeriodBoundary1.dev.tb.phPend = true) := by
  repeat' apply And.intro
  all_goals decide +kernel

def wEngineStartAndOutPhase0 : State := st { rg [(Reg.CELL_MAP 0, 0x100), (Reg.CELL_MAP 143, 0x217)] with tb := { counting := true, engAt := some 4000, outAt := some 16000, k := 9 }, cells := [(0, { acc := true, fill := [1, 2], img := [3], age := 4 }), (1, { acc := true }), (143, { age := 15, img := [7] })] }
def wEngineStartAndOutPhase1 : State := st { dv with tb := { counting := true, outAt := some 16000, k := 7 }, atm := { stopP := true, running := true } }
def wEngineStartAndOutPhase2 : State := st { dv with tb := { counting := true, outAt := some 16000, k := 7 }, atm := { running := true } }
def wEngineStartAndOutPhase3 : State := st { dv with tb := { counting := true, outAt := some 16000, k := 7 }, atm := { startP := true } }
/-- Hypotheses of `Obligations.EngineStartAndOutPhase`, clause by clause. -/
theorem test_witness_EngineStartAndOutPhase :
  (wEngineStartAndOutPhase3.dev.tb.counting = true ∧ wEngineStartAndOutPhase3.dev.tb.engAt = none ∧ wEngineStartAndOutPhase3.dev.tb.outAt = some 16000 ∧
      wEngineStartAndOutPhase3.dev.domainOn 4 = true ∧ wEngineStartAndOutPhase3.dev.atm.stopP = false ∧ wEngineStartAndOutPhase3.dev.atm.running = false ∧
      wEngineStartAndOutPhase3.dev.atm.startP = true) ∧
  (wEngineStartAndOutPhase2.dev.tb.counting = true ∧ wEngineStartAndOutPhase2.dev.tb.engAt = none ∧ wEngineStartAndOutPhase2.dev.tb.outAt = some 16000 ∧
      wEngineStartAndOutPhase2.dev.domainOn 4 = true ∧ wEngineStartAndOutPhase2.dev.atm.stopP = false ∧ wEngineStartAndOutPhase2.dev.atm.running = true ∧
      wEngineStartAndOutPhase2.dev.atm.new.stop = false) ∧
  (wEngineStartAndOutPhase1.dev.tb.counting = true ∧ wEngineStartAndOutPhase1.dev.tb.engAt = none ∧ wEngineStartAndOutPhase1.dev.tb.outAt = some 16000 ∧
      wEngineStartAndOutPhase1.dev.domainOn 4 = true ∧ wEngineStartAndOutPhase1.dev.atm.stopP = true) ∧
  (wEngineStartAndOutPhase0.dev.tb.counting = true ∧ wEngineStartAndOutPhase0.dev.tb.engAt = some 4000 ∧ 0 < 144 ∧ wEngineStartAndOutPhase0.dev.mapped 0 = true) := by
  repeat' apply And.intro
  all_goals decide +kernel

def wCommandFramesAndAtomizer0 : State := st (rg [(Reg.SYS_STAGE, 3), (Reg.GATE_CAL, 1), (Reg.ATM_CL_CTL 6, 0x100), (Reg.ATM_CL_CPER 0, 40000), (Reg.ATM_CL_CPER 1, 40000), (Reg.ATM_CL_CPER 2, 40000), (Reg.ATM_CL_CPER 3, 40000), (Reg.ATM_CL_CPER 4, 40000), (Reg.ATM_CL_CPER 5, 10000000)])
def wCommandFramesAndAtomizer1 : State := st (rg [(Reg.ATM_CTL, 1), (Reg.ATM_STAT, 1)])
def wCommandFramesAndAtomizer2 : State := st { rg [(laneReg 0 4, 4), (laneReg 23 4, 4), (Reg.RING_LINK_CTL 0, 0x20101), (Reg.RING_LINK_CTL 23, 0xC1703)] with atm := { cmdDue := true }, tb := { k := 3 } }
/-- Hypotheses of `Obligations.CommandFramesAndAtomizer`, clause by clause. -/
theorem test_witness_CommandFramesAndAtomizer :
  (Dev.BusOpen Master.supv Reg.ATM_CTL wCommandFramesAndAtomizer1.dev ∧ (0#32).getLsbD 0 = false ∧ wCommandFramesAndAtomizer1.dev.bit Reg.ATM_CTL 0 = true) ∧
  (Dev.BusOpen Master.supv Reg.ATM_CTL wCommandFramesAndAtomizer0.dev ∧ (1#32).getLsbD 0 = true ∧ wCommandFramesAndAtomizer0.dev.bit Reg.ATM_CTL 0 = false ∧
      wCommandFramesAndAtomizer0.dev.startCause = 0) ∧
  (Dev.BusOpen Master.supv Reg.ATM_CTL wCommandFramesAndAtomizer2.dev ∧ (1#32).getLsbD 0 = true ∧ wCommandFramesAndAtomizer2.dev.bit Reg.ATM_CTL 0 = false ∧
      ¬wCommandFramesAndAtomizer2.dev.startCause = 0) ∧
  (wCommandFramesAndAtomizer2.dev.role = 0 ∧ wCommandFramesAndAtomizer2.dev.atm.cmdDue = true ∧ 0 < 24 ∧ wCommandFramesAndAtomizer2.dev.inRun 0 = true ∧
      wCommandFramesAndAtomizer2.dev.ringOf 0 < 24) ∧
  (wCommandFramesAndAtomizer0.dev.role = 0 ∧ wCommandFramesAndAtomizer0.dev.atm.cmdDue = false) := by
  repeat' apply And.intro
  all_goals decide +kernel

def wCarriersAndSync0 : State := st { rg [(Reg.ATM_SYNC_IN, 0x640101), (Reg.ATM_CL_CPER 0, 20000), (Reg.ATM_CL_CTL 0, 0x100)] with tb := tbF }
def wCarriersAndSync1 : State := st { rg [(Reg.ATM_CTL, 1), (Reg.ATM_SYNC_OUT, 0x640001), (Reg.ATM_CL_CPER 0, 20000), (Reg.ATM_CL_ANCH_ACT 0, 5)] with tb := tbF }
def wCarriersAndSync2 : State := st { rg [(Reg.ATM_CTL, 0)] with tb := { counting := true, engAt := some 4000000, notBefore := 4000000 }, atm := { clCtl := [(0, 2)], act := { valid := true, refs := [(0, 5), (295, 9)] } } }
/-- Hypotheses of `Obligations.CarriersAndSync`, clause by clause. -/
theorem test_witness_CarriersAndSync :
  (wCarriersAndSync0.dev.bit Reg.ATM_SYNC_IN 0 = true ∧ wCarriersAndSync0.dev.domainOn 4 = true ∧ 0 < 6 ∧ wCarriersAndSync0.dev.bit Reg.ATM_SYNC_IN (8 + 0) = true ∧
      (∀ (m : Nat), m < 0 → wCarriersAndSync0.dev.bit Reg.ATM_SYNC_IN (8 + m) = false) ∧
      Dev.Due (wCarriersAndSync0.dev.atm.syncSeen + 4 * wCarriersAndSync0.dev.cper 0) wCarriersAndSync0.dev) ∧
  (wCarriersAndSync0.dev.domainOn 4 = true ∧ wCarriersAndSync0.dev.fld Reg.ATM_SYNC_IN 0 14 = 257 ∧ wCarriersAndSync0.dev.atm.stampAt.getD 0 0 = 0) ∧
  (wCarriersAndSync1.dev.atmRuns = true ∧ wCarriersAndSync1.dev.bit (Reg.ATM_CL_CTL 0) 0 = false ∧ wCarriersAndSync1.dev.bit Reg.ATM_SYNC_OUT 0 = true ∧
      Dev.Due (gridFrom (max wCarriersAndSync1.dev.now wCarriersAndSync1.dev.atm.syncNext) (BitVec.toNat (wCarriersAndSync1.dev.rd (Reg.ATM_CL_ANCH_ACT 0)) + wCarriersAndSync1.dev.fld Reg.ATM_SYNC_OUT 16 16) (wCarriersAndSync1.dev.cper 0)) wCarriersAndSync1.dev) ∧
  (wCarriersAndSync2.dev.tb.counting = true ∧ wCarriersAndSync2.dev.carrierMode 0 = true ∧ wCarriersAndSync2.dev.atm.act.valid = true ∧
      wCarriersAndSync2.dev.atm.landAt = none ∧ (288 ≤ 0 → wCarriersAndSync2.dev.bit (Reg.ATM_CL_CTL 6) 0 = true) ∧
      gridFrom (max wCarriersAndSync2.dev.now (wCarriersAndSync2.dev.leg 0).lastLd) ((wCarriersAndSync2.dev.legAnchor 0 + ↑(wCarriersAndSync2.dev.cper (wCarriersAndSync2.dev.carrierOf 0) / 2)) % ↑(wCarriersAndSync2.dev.cper (wCarriersAndSync2.dev.carrierOf 0))).toNat (wCarriersAndSync2.dev.cper (wCarriersAndSync2.dev.carrierOf 0)) < wCarriersAndSync2.dev.nextSeq ∧
      7 ≠ 0) ∧
  (wCarriersAndSync2.dev.tb.counting = true ∧ wCarriersAndSync2.dev.carrierMode 0 = true ∧ wCarriersAndSync2.dev.atm.act.valid = true ∧
      wCarriersAndSync2.dev.atm.landAt = none ∧ (288 ≤ 0 → wCarriersAndSync2.dev.bit (Reg.ATM_CL_CTL 6) 0 = true) ∧
      gridFrom (max wCarriersAndSync2.dev.now (wCarriersAndSync2.dev.leg 0).lastLd) (wCarriersAndSync2.dev.legAnchor 0 % ↑(wCarriersAndSync2.dev.cper (wCarriersAndSync2.dev.carrierOf 0))).toNat (wCarriersAndSync2.dev.cper (wCarriersAndSync2.dev.carrierOf 0)) < wCarriersAndSync2.dev.nextSeq ∧
      7 ≠ 0) ∧
  (Dev.BusOpen Master.supv (Reg.ATM_CL_MINP 0) wCarriersAndSync0.dev ∧ wCarriersAndSync0.dev.clFree 0 = true) ∧
  (Dev.BusOpen Master.supv (Reg.ATM_CL_MINP 6) wCarriersAndSync1.dev ∧ ¬wCarriersAndSync1.dev.clFree 6 = true) ∧
  (Dev.BusOpen Master.supv (Reg.ATM_CL_ANCH 0) wCarriersAndSync0.dev ∧ wCarriersAndSync0.dev.clFree 0 = true ∧
      fieldOf (0#32) 0 24 < wCarriersAndSync0.dev.fld (Reg.ATM_CL_CPER 0) 0 24) ∧
  (Dev.BusOpen Master.supv (Reg.ATM_CL_ANCH 0) wCarriersAndSync0.dev ∧ ¬(wCarriersAndSync0.dev.clFree 0 = true ∧
      fieldOf (4294967295#32) 0 24 < wCarriersAndSync0.dev.fld (Reg.ATM_CL_CPER 0) 0 24)) ∧
  (Dev.BusOpen Master.supv (Reg.ATM_CL_CPER 0) wCarriersAndSync0.dev ∧ wCarriersAndSync0.dev.clFree 0 = true ∧
      cperOk (0) (fieldOf (40000#32) 0 24) wCarriersAndSync0.dev.tb.tP = true) ∧
  (Dev.BusOpen Master.supv (Reg.ATM_CL_CPER 0) wCarriersAndSync0.dev ∧ ¬(wCarriersAndSync0.dev.clFree 0 = true ∧
      cperOk (0) (fieldOf (0#32) 0 24) wCarriersAndSync0.dev.tb.tP = true)) ∧
  (Dev.BusOpen Master.supv (Reg.ATM_CL_CTL 0) wCarriersAndSync0.dev ∧ (48 < fieldOf (4294967295#32) 8 6 ∨ wCarriersAndSync0.dev.clFree 0 = false ∧
      ((4294967295#32).getLsbD 0 ≠ wCarriersAndSync0.dev.bit (Reg.ATM_CL_CTL 0) 0 ∨ max 1 (fieldOf (4294967295#32) 8 6) ≠ wCarriersAndSync0.dev.fld (Reg.ATM_CL_CTL 0) 8 6))) ∧
  (Dev.BusOpen Master.supv (Reg.ATM_CL_CTL 0) wCarriersAndSync0.dev ∧ ¬(48 < fieldOf (0#32) 8 6 ∨ wCarriersAndSync0.dev.clFree 0 = false ∧
      ((0#32).getLsbD 0 ≠ wCarriersAndSync0.dev.bit (Reg.ATM_CL_CTL 0) 0 ∨ max 1 (fieldOf (0#32) 8 6) ≠ wCarriersAndSync0.dev.fld (Reg.ATM_CL_CTL 0) 8 6))) := by
  repeat' apply And.intro
  all_goals decide +kernel

def wLaneReceiver0 : State := st (rg [(laneReg 0 4, 0x89), (laneReg 0 0x30, 0x0A0A), (laneReg 0 0x38, 1), (laneReg 25 4, 0x8B)])
def wLaneReceiver1 : State := st { rg [(laneReg 0 4, 1), (laneReg 25 4, 4), (laneReg 25 0x38, 0x8)] with lanes := [(25, { good := 63, berBad := 8 })] }
def wLaneReceiver2 : State := st { rg [(laneReg 0 4, 0xB), (laneReg 1 4, 1), (laneReg 2 4, 0xA)] with lanes := [(0, { win := 2 ^ 64 - 1 }), (1, { good := 63 }), (2, { search := 1, waitN := 4095 })] }
def wLaneReceiver3 : State := st { rg [(laneReg 3 4, 0xC), (laneReg 25 4, 0x9)] with lanes := [(3, { frm := 1 }), (25, { frm := 1 })] }
/-- Hypotheses of `Obligations.LaneReceiver`, clause by clause. -/
theorem test_witness_LaneReceiver :
  (wLaneReceiver0.dev.LanesRun ∧ wLaneReceiver0.dev.lstate 0 ≠ 0 ∧ wLaneReceiver0.dev.fld (laneReg (0) 56) 0 16 ≠ 0 ∧ (wLaneReceiver0.dev.lane 0).berHit = false) ∧
  (wLaneReceiver1.dev.LanesRun ∧ wLaneReceiver1.dev.lstate 25 ≠ 0 ∧ wLaneReceiver1.dev.fld (laneReg (25) 56) 0 16 ≠ 0 ∧ (wLaneReceiver1.dev.lane 25).berHit = false ∧
      wLaneReceiver1.dev.fld (laneReg (25) 56) 0 16 ≤ (wLaneReceiver1.dev.lane 25).berBad) ∧
  (wLaneReceiver0.dev.LanesRun ∧ wLaneReceiver0.dev.lstate 0 ≠ 0 ∧ wLaneReceiver0.dev.lstate 0 ≠ 2 ∧ 0 < wLaneReceiver0.dev.fld (laneReg (0) 48) 0 6) ∧
  (wLaneReceiver0.dev.bit (laneReg (0) 4) 7 = true) ∧
  (Dev.BusOpen Master.supv (laneReg (0) 16) wLaneReceiver0.dev ∧ (3#32).getLsbD 1 = true ∧ (3#32).getLsbD 0 = true) ∧
  (Dev.BusOpen Master.supv (laneReg (0) 16) wLaneReceiver0.dev ∧ (2#32).getLsbD 1 = true ∧ ¬(2#32).getLsbD 0 = true) ∧
  (wLaneReceiver0.dev.LanesRun ∧ wLaneReceiver0.dev.bit (laneReg (0) 4) 3 = true) ∧
  (wLaneReceiver1.dev.LanesRun ∧ wLaneReceiver1.dev.lstate 0 = 1 ∧ wLaneReceiver1.dev.bit (laneReg (0) 4) 3 = false) ∧
  (wLaneReceiver0.dev.LanesRun ∧ wLaneReceiver0.dev.lstate 0 ≠ 0 ∧ 1#2 = 1 ∧ wLaneReceiver0.dev.lstate 0 ≠ 2 ∧ wLaneReceiver0.dev.bit (laneReg (0) 4) 3 = true ∧
      (wLaneReceiver0.dev.lane 0).win = 0) ∧
  (wLaneReceiver3.dev.LanesRun ∧ wLaneReceiver3.dev.lstate 3 ≠ 0 ∧ 1#2 = 1 ∧ wLaneReceiver3.dev.lstate 3 ≠ 2 ∧ wLaneReceiver3.dev.bit (laneReg (3) 4) 3 = true ∧
      (wLaneReceiver3.dev.lane 3).win = 0 ∧ (wLaneReceiver3.dev.lane 3).frm = 1) ∧
  (wLaneReceiver0.dev.LanesRun ∧ wLaneReceiver0.dev.lstate 0 ≠ 0 ∧ ¬(wLaneReceiver0.dev.lstate 0 = 2 ∧ (wLaneReceiver0.dev.lane 0).search % 2 = 1 ∧
      4096 ≤ (wLaneReceiver0.dev.lane 0).waitN + 1) ∧ ¬(1#2 = 0 ∨ 1#2 = 3) ∧ wLaneReceiver0.dev.bit (laneReg (0) 4) 3 = true ∧
      (List.filter (nbit ((2 * (wLaneReceiver0.dev.lane 0).win + if 1#2 = 0 ∨ 1#2 = 3 then 1 else 0) % 2 ^ 64)) (List.range 64)).length < 16) ∧
  (wLaneReceiver1.dev.LanesRun ∧ wLaneReceiver1.dev.lstate 0 ≠ 0 ∧ ¬(wLaneReceiver1.dev.lstate 0 = 2 ∧ (wLaneReceiver1.dev.lane 0).search % 2 = 1 ∧
      4096 ≤ (wLaneReceiver1.dev.lane 0).waitN + 1) ∧ ¬(1#2 = 0 ∨ 1#2 = 3) ∧ wLaneReceiver1.dev.bit (laneReg (0) 4) 3 = false) ∧
  (wLaneReceiver2.dev.LanesRun ∧ wLaneReceiver2.dev.lstate 1 ≠ 0 ∧ ¬(wLaneReceiver2.dev.lstate 1 = 2 ∧ (wLaneReceiver2.dev.lane 1).search % 2 = 1 ∧
      4096 ≤ (wLaneReceiver2.dev.lane 1).waitN + 1) ∧ ¬(1#2 = 0 ∨ 1#2 = 3) ∧ wLaneReceiver2.dev.bit (laneReg (1) 4) 3 = false ∧
      64 ≤ (wLaneReceiver2.dev.lane 1).good + 1 ∧ wLaneReceiver2.dev.lstate 1 = 1) ∧
  (wLaneReceiver2.dev.LanesRun ∧ wLaneReceiver2.dev.lstate 0 ≠ 0 ∧ ¬(wLaneReceiver2.dev.lstate 0 = 2 ∧ (wLaneReceiver2.dev.lane 0).search % 2 = 1 ∧
      4096 ≤ (wLaneReceiver2.dev.lane 0).waitN + 1) ∧ (0#2 = 0 ∨ 0#2 = 3) ∧ wLaneReceiver2.dev.bit (laneReg (0) 4) 3 = true ∧
      16 ≤ (List.filter (nbit ((2 * (wLaneReceiver2.dev.lane 0).win + if 0#2 = 0 ∨ 0#2 = 3 then 1 else 0) % 2 ^ 64)) (List.range 64)).length) ∧
  (wLaneReceiver0.dev.LanesRun ∧ wLaneReceiver0.dev.lstate 0 ≠ 0 ∧ ¬(wLaneReceiver0.dev.lstate 0 = 2 ∧ (wLaneReceiver0.dev.lane 0).search % 2 = 1 ∧
      4096 ≤ (wLaneReceiver0.dev.lane 0).waitN + 1) ∧ (0#2 = 0 ∨ 0#2 = 3) ∧ wLaneReceiver0.dev.bit (laneReg (0) 4) 3 = true ∧
      ¬16 ≤ (List.filter (nbit ((2 * (wLaneReceiver0.dev.lane 0).win + if 0#2 = 0 ∨ 0#2 = 3 then 1 else 0) % 2 ^ 64)) (List.range 64)).length) ∧
  (wLaneReceiver1.dev.LanesRun ∧ wLaneReceiver1.dev.lstate 0 ≠ 0 ∧ ¬(wLaneReceiver1.dev.lstate 0 = 2 ∧ (wLaneReceiver1.dev.lane 0).search % 2 = 1 ∧
      4096 ≤ (wLaneReceiver1.dev.lane 0).waitN + 1) ∧ (0#2 = 0 ∨ 0#2 = 3) ∧ wLaneReceiver1.dev.bit (laneReg (0) 4) 3 = false) ∧
  (wLaneReceiver2.dev.LanesRun ∧ wLaneReceiver2.dev.lstate 2 ≠ 0 ∧ wLaneReceiver2.dev.lstate 2 = 2 ∧ (wLaneReceiver2.dev.lane 2).search % 2 = 1 ∧
      4096 ≤ (wLaneReceiver2.dev.lane 2).waitN + 1) ∧
  (wLaneReceiver0.dev.LanesRun ∧ wLaneReceiver0.dev.lstate 0 ≠ 0 ∧ wLaneReceiver0.dev.bit (laneReg (0) 4) 3 = true ∧ 2#2 = 2 ∧
      (¬byteAt (payloadBytes 0#64) 0 ∈ [30, 45, 51, 75, 85, 120, 135] ∨ (byteAt (payloadBytes 0#64) 0 = 85 ∨ byteAt (payloadBytes 0#64) 0 = 75 ∧
      nbit (byteAt (payloadBytes 0#64) 1) 7 = false) ∧ (List.drop 7 (payloadBytes 0#64)).headD 0 ≠ crc8 (List.take 7 (payloadBytes 0#64)))) ∧
  (wLaneReceiver0.dev.LanesRun ∧ wLaneReceiver0.dev.lstate 0 ≠ 0 ∧ ¬(wLaneReceiver0.dev.bit (laneReg (0) 4) 3 = true ∧ 0#2 = 2 ∧
      (¬byteAt (payloadBytes 0#64) 0 ∈ [30, 45, 51, 75, 85, 120, 135] ∨ (byteAt (payloadBytes 0#64) 0 = 85 ∨ byteAt (payloadBytes 0#64) 0 = 75 ∧
      nbit (byteAt (payloadBytes 0#64) 1) 7 = false) ∧ (List.drop 7 (payloadBytes 0#64)).headD 0 ≠ crc8 (List.take 7 (payloadBytes 0#64))))) ∧
  (wLaneReceiver0.dev.LanesRun ∧ wLaneReceiver0.dev.lstate 0 ≠ 0 ∧ (0#2 = 0 ∨ 0#2 = 3)) ∧
  (wLaneReceiver0.dev.LanesRun ∧ wLaneReceiver0.dev.lstate 0 ≠ 0 ∧ ¬(1#2 = 0 ∨ 1#2 = 3)) := by
  repeat' apply And.intro
  all_goals decide +kernel

def wLaneControl0 : State := st (rg [(laneReg 0 0, 1), (laneReg 0 4, 4), (laneReg 1 0, 1), (laneReg 1 4, 3), (laneReg 25 0, 1), (laneReg 25 4, 2)])
def wLaneControl1 : State := st (rg [(laneReg 0 0, 2)])
/-- Hypotheses of `Obligations.LaneControl`, clause by clause. -/
theorem test_witness_LaneControl :
  (Dev.BusOpen Master.supv (laneReg (0) 36) wLaneControl0.dev ∧ (1#32).getLsbD 0 = true ∧ wLaneControl0.dev.lstate 0 = 4) ∧
  (Dev.BusOpen Master.supv (laneReg (0) 36) wLaneControl0.dev ∧ ¬((0#32).getLsbD 0 = true ∧ wLaneControl0.dev.lstate 0 = 4)) ∧
  (Dev.BusOpen Master.supv (laneReg (0) 36) wLaneControl1.dev ∧ ¬((1#32).getLsbD 0 = true ∧ wLaneControl1.dev.lstate 0 = 4) ∧ (1#32).getLsbD 0 = true) ∧
  (Dev.BusOpen Master.supv (laneReg (1) 36) wLaneControl0.dev ∧ ¬((1#32).getLsbD 0 = true ∧ wLaneControl0.dev.lstate 1 = 4) ∧ (1#32).getLsbD 0 = true ∧
      wLaneControl0.dev.lstate 1 = 3) ∧
  (Dev.BusOpen Master.supv (laneReg (0) 32) wLaneControl0.dev ∧ wLaneControl0.dev.lstate 0 ≠ 2 ∧
      tapsOk (↑(fieldOf (16789250#32) 0 4), ↑(fieldOf (16789250#32) 8 6), ↑(fieldOf (16789250#32) 16 5)) = true) ∧
  (Dev.BusOpen Master.supv (laneReg (0) 32) wLaneControl0.dev ∧ ¬(wLaneControl0.dev.lstate 0 ≠ 2 ∧
      tapsOk (↑(fieldOf (0#32) 0 4), ↑(fieldOf (0#32) 8 6), ↑(fieldOf (0#32) 16 5)) = true)) ∧
  (Dev.BusOpen Master.supv (laneReg (0) 0) wLaneControl1.dev ∧ fieldOf (wLaneControl1.dev.rd (laneReg (0) 0) ^^^ 1#32) 1 5 ≠ 0 ∧
      (wLaneControl1.dev.bit (laneReg (0) 0) 0 = true ∨ (1#32).getLsbD 0 = true)) ∧
  (Dev.BusOpen Master.supv (laneReg (0) 0) wLaneControl0.dev ∧ ¬(fieldOf (wLaneControl0.dev.rd (laneReg (0) 0) ^^^ 0#32) 1 5 ≠ 0 ∧
      (wLaneControl0.dev.bit (laneReg (0) 0) 0 = true ∨ (0#32).getLsbD 0 = true)) ∧ wLaneControl0.dev.bit (laneReg (0) 0) 0 = true ∧ (0#32).getLsbD 0 = false) ∧
  (Dev.BusOpen Master.supv (laneReg (0) 0) wLaneControl1.dev ∧ ¬(fieldOf (wLaneControl1.dev.rd (laneReg (0) 0) ^^^ 0#32) 1 5 ≠ 0 ∧
      (wLaneControl1.dev.bit (laneReg (0) 0) 0 = true ∨ (0#32).getLsbD 0 = true)) ∧ wLaneControl1.dev.bit (laneReg (0) 0) 0 = false) ∧
  (Dev.BusOpen Master.supv (laneReg (1) 0) wLaneControl1.dev ∧ ¬(fieldOf (wLaneControl1.dev.rd (laneReg (1) 0) ^^^ 1#32) 1 5 ≠ 0 ∧
      (wLaneControl1.dev.bit (laneReg (1) 0) 0 = true ∨ (1#32).getLsbD 0 = true)) ∧ wLaneControl1.dev.bit (laneReg (1) 0) 0 = false ∧ (1#32).getLsbD 0 = true) := by
  repeat' apply And.intro
  all_goals decide +kernel

def wLaneTraining0 : State := st { rg [(laneReg 0 4, 0xA), (laneReg 1 4, 0xA), (laneReg 2 4, 0xC)] with lanes := [(0, { search := 3 }), (1, { search := 4, w := 127, h := 127, tap := 1 })] }
def wLaneTraining1 : State := st { rg [(laneReg 0 4, 0xA), (laneReg 25 4, 0x2A), (laneReg 0 0x30, 0x0A0A), (laneReg 25 0x30, 0x7F1F)] with lanes := [(0, { search := 2 })] }
def wLaneTraining2 : State := st { rg [(laneReg 0 4, 0x2A)] with lanes := [(0, { search := 4 })] }
/-- Hypotheses of `Obligations.LaneTraining`, clause by clause. -/
theorem test_witness_LaneTraining :
  (wLaneTraining0.dev.LanesRun ∧ wLaneTraining0.dev.lstate 0 = 2 ∧ (wLaneTraining0.dev.lane 0).search ≠ 0 ∧ (wLaneTraining0.dev.lane 0).search % 2 = 1) ∧
  (wLaneTraining2.dev.LanesRun ∧ wLaneTraining2.dev.lstate 0 = 2 ∧ (wLaneTraining2.dev.lane 0).search = 4 ∧
      (wLaneTraining2.dev.lane 0).w * (wLaneTraining2.dev.lane 0).h * (100 + wLaneTraining2.dev.ln (0) 36 24 4) ≤ 100 * (0 * 0)) ∧
  (wLaneTraining0.dev.LanesRun ∧ wLaneTraining0.dev.lstate 1 = 2 ∧ (wLaneTraining0.dev.lane 1).search = 4 ∧
      ¬(wLaneTraining0.dev.lane 1).w * (wLaneTraining0.dev.lane 1).h * (100 + wLaneTraining0.dev.ln (1) 36 24 4) ≤ 100 * (0 * 0)) ∧
  (wLaneTraining1.dev.LanesRun ∧ wLaneTraining1.dev.lstate 0 = 2 ∧ (wLaneTraining1.dev.lane 0).search = 2) ∧
  (wLaneTraining1.dev.LanesRun ∧ wLaneTraining1.dev.lstate 25 = 2 ∧ (wLaneTraining1.dev.lane 25).search = 0 ∧ wLaneTraining1.dev.ln (25) 48 0 6 ≤ 31 ∧
      wLaneTraining1.dev.ln (25) 48 8 7 ≤ 127) ∧
  (wLaneTraining0.dev.LanesRun ∧ wLaneTraining0.dev.lstate 0 ≠ 0 ∧ wLaneTraining0.dev.bit (laneReg (0) 4) 3 = true ∧
      byteAt (payloadBytes 3244562056552153863#64) 0 = 45 ∧
      fieldAt (payloadBytes 3244562056552153863#64) 6 2 = crc16 (List.take 6 (payloadBytes 3244562056552153863#64))) ∧
  (wLaneTraining0.dev.LanesRun ∧ wLaneTraining0.dev.lstate 0 ≠ 0 ∧ wLaneTraining0.dev.bit (laneReg (0) 4) 3 = true ∧ ¬(byteAt (payloadBytes 0#64) 0 = 45 ∧
      fieldAt (payloadBytes 0#64) 6 2 = crc16 (List.take 6 (payloadBytes 0#64)))) ∧
  (wLaneTraining0.dev.LanesRun ∧ wLaneTraining0.dev.lstate 2 ≠ 0 ∧ wLaneTraining0.dev.bit (laneReg (2) 4) 3 = true ∧
      (byteAt (payloadBytes 3244562056552153863#64) 0 = 45 ∧
      fieldAt (payloadBytes 3244562056552153863#64) 6 2 = crc16 (List.take 6 (payloadBytes 3244562056552153863#64))) ∧ wLaneTraining0.dev.lstate 2 = 4) := by
  repeat' apply And.intro
  all_goals decide +kernel

def wRingPort0 : State := st (rg [(Reg.SYS_STAGE, 3), (Reg.SYS_READY, 0x200), (laneReg 0 4, 3), (Reg.RING_LINK_CTL 0, 0x10001), (laneReg 1 4, 4), (Reg.RING_LINK_CTL 1, 0x10101), (laneReg 23 4, 3), (Reg.RING_LINK_CTL 23, 0x80C1701)])
def wRingPort2 : State := st { rg [(laneReg 0 4, 4), (Reg.RING_LINK_CTL 0, 0x10001), (laneReg 23 4, 4), (Reg.RING_LINK_CTL 23, 0x10101)] with ports := [(0, { runSince := 34, calReq := true }), (23, { startDone := true, calReq := true, calP := 17 })] }
/-- Hypotheses of `Obligations.RingPort`, clause by clause. -/
theorem test_witness_RingPort :
  (Dev.BusOpen Master.supv (Reg.RING_TRIP 0) wRingPort0.dev ∧ (fieldOf (90#32) 0 8 = 90 ∨ fieldOf (90#32) 0 8 = 102 ∨ fieldOf (90#32) 0 8 = 153)) ∧
  (Dev.BusOpen Master.supv (Reg.RING_TRIP 0) wRingPort0.dev ∧ ¬(fieldOf (0#32) 0 8 = 90 ∨ fieldOf (0#32) 0 8 = 102 ∨ fieldOf (0#32) 0 8 = 153)) ∧
  (Dev.BusOpen Master.supv (Reg.RING_TRIP 0) wRingPort2.dev ∧ (fieldOf (90#32) 0 8 = 90 ∨ fieldOf (90#32) 0 8 = 102 ∨ fieldOf (90#32) 0 8 = 153) ∧
      wRingPort2.dev.inRun 0 = true) ∧
  (wRingPort2.dev.inRun 0 = true ∧ if (wRingPort2.dev.port 0).startDone = true then wRingPort2.dev.calWanted 0 = true ∧
      17 ≤ (wRingPort2.dev.port 0).calP else 34 ≤ (wRingPort2.dev.port 0).runSince) ∧
  (wRingPort2.dev.inRun 0 = true ∧ (if (wRingPort2.dev.port 0).startDone = true then wRingPort2.dev.calWanted 0 = true ∧
      17 ≤ (wRingPort2.dev.port 0).calP else 34 ≤ (wRingPort2.dev.port 0).runSince) ∧ (wRingPort2.dev.port 0).startDone = false) ∧
  (Dev.BusOpen Master.supv (Reg.RING_CAL 0) wRingPort0.dev) ∧
  (wRingPort0.dev.LanesRun ∧ wRingPort0.dev.bit (Reg.RING_LINK_CTL 0) 0 = true ∧ wRingPort0.dev.lstate 0 = 3 ∧ wRingPort0.dev.fld Reg.SYS_STAGE 0 2 = 3 ∧
      wRingPort0.dev.bit Reg.SYS_READY 9 = true ∧ (wRingPort0.dev.partner 0 = none ∧ (wRingPort0.dev.port 0).farSeen = false ∨ ∃ q, q ∈ List.range 24 ∧
      wRingPort0.dev.partner 0 = some q ∧ q ≠ 0 ∧ wRingPort0.dev.inRun q = false)) := by
  repeat' apply And.intro
  all_goals decide +kernel

def wRingPortTraffic0 : State := st (rg [(laneReg 0 4, 4), (Reg.RING_LINK_CTL 0, 0x10001)])
def wRingPortTraffic1 : State := st { rg [(laneReg 0 4, 4), (laneReg 23 4, 4), (Reg.RING_LINK_CTL 23, 0xC1703)] with ports := [(0, { runSince := 5 }), (23, { pseq := 9, hrN := 15, runSince := 17 })] }
/-- Hypotheses of `Obligations.RingPortTraffic`, clause by clause. -/
theorem test_witness_RingPortTraffic :
  (wRingPortTraffic0.dev.LanesRun ∧ byteAt (payloadBytes 5440629824840597581#64) 0 = 75 ∧
      (List.drop 7 (payloadBytes 5440629824840597581#64)).headD 0 = crc8 (List.take 7 (payloadBytes 5440629824840597581#64)) ∧ wRingPortTraffic0.dev.inRun 0 = true ∧
      nbit (byteAt (payloadBytes 5440629824840597581#64) 1) 7 = true ∧ nbit (byteAt (payloadBytes 5440629824840597581#64) 1) 6 = wRingPortTraffic0.dev.endB 0 ∧
      1 = byteAt (payloadBytes 5440629824840597581#64) 1 % 16 ∧ 1 ≤ 1 ∧ 1 ≤ 12 ∧
      byteAt (payloadBytes 5440629824840597581#64) 2 = BitVec.toNat (wRingPortTraffic0.dev.port 0).pseq ∧ fieldAt (payloadBytes 5440629824840597581#64) 3 3 ≤ 5) ∧
  (wRingPortTraffic0.dev.LanesRun ∧ byteAt (payloadBytes 3674937295934324756#64) 0 = 51 ∧
      (List.drop 7 (payloadBytes 3674937295934324756#64)).headD 0 = crc8 (List.take 7 (payloadBytes 3674937295934324756#64))) ∧
  (wRingPortTraffic0.dev.LanesRun ∧ ¬(byteAt (payloadBytes 0#64) 0 = 51 ∧ (List.drop 7 (payloadBytes 0#64)).headD 0 = crc8 (List.take 7 (payloadBytes 0#64)))) ∧
  (wRingPortTraffic0.dev.LanesRun ∧ (byteAt (payloadBytes 3674937295934324756#64) 0 = 51 ∧
      (List.drop 7 (payloadBytes 3674937295934324756#64)).headD 0 = crc8 (List.take 7 (payloadBytes 3674937295934324756#64))) ∧ wRingPortTraffic0.dev.inRun 0 = true ∧
      false = false) ∧
  (wRingPortTraffic1.dev.LanesRun ∧ (byteAt (payloadBytes 3674937295934324756#64) 0 = 51 ∧
      (List.drop 7 (payloadBytes 3674937295934324756#64)).headD 0 = crc8 (List.take 7 (payloadBytes 3674937295934324756#64))) ∧ wRingPortTraffic1.dev.inRun 0 = true ∧
      false = false ∧ 2 ≤ (wRingPortTraffic1.dev.port 0).runSince ∧ (wRingPortTraffic1.dev.port 0).runSince ≤ 17 ∧ (wRingPortTraffic1.dev.port 0).hrN < 16 ∧
      16 * wRingPortTraffic1.dev.tb.bnd + 640 ≤ 640) ∧
  (wRingPortTraffic0.dev.LanesRun ∧ (byteAt (payloadBytes 3674937295934324756#64) 0 = 51 ∧
      (List.drop 7 (payloadBytes 3674937295934324756#64)).headD 0 = crc8 (List.take 7 (payloadBytes 3674937295934324756#64))) ∧ false = false) ∧
  (wRingPortTraffic0.dev.LanesRun ∧ (byteAt (payloadBytes 3674937295934324756#64) 0 = 51 ∧
      (List.drop 7 (payloadBytes 3674937295934324756#64)).headD 0 = crc8 (List.take 7 (payloadBytes 3674937295934324756#64))) ∧ wRingPortTraffic0.dev.inRun 0 = true ∧
      true = true) ∧
  (Dev.BusOpen Master.supv (Reg.RING_LINK_CTL 0) wRingPortTraffic0.dev ∧ wRingPortTraffic0.dev.bit (Reg.RING_LINK_CTL 0) 0 = true ∧
      wRingPortTraffic0.dev.rd (Reg.RING_LINK_CTL 0) ^^^ 65536#32 &&& 2668568323#32 = 1 ∧ 1 ≤ fieldOf (65536#32) 16 4 ∧ fieldOf (65536#32) 16 4 ≤ 12 ∧
      fieldOf (65536#32) 8 5 ≤ 23 ∧ fieldOf (65536#32) 24 5 ≤ 23) ∧
  (Dev.BusOpen Master.supv (Reg.RING_LINK_CTL 0) wRingPortTraffic0.dev ∧ wRingPortTraffic0.dev.bit (Reg.RING_LINK_CTL 0) 0 = true ∧
      BitVec.toNat (wRingPortTraffic0.dev.rd (Reg.RING_LINK_CTL 0) ^^^ 0#32 &&& 2668568323#32) > 1) ∧
  (Dev.BusOpen Master.supv (Reg.RING_LINK_CTL 0) wRingPortTraffic0.dev ∧
      (fieldOf (0#32) 16 4 = 0 ∨ 12 < fieldOf (0#32) 16 4 ∨ 23 < fieldOf (0#32) 8 5 ∨ 23 < fieldOf (0#32) 24 5)) ∧
  (Dev.BusOpen Master.supv (Reg.RING_LINK_CTL 0) wRingPortTraffic1.dev ∧ wRingPortTraffic1.dev.bit (Reg.RING_LINK_CTL 0) 0 = false ∧ 1 ≤ fieldOf (65536#32) 16 4 ∧
      fieldOf (65536#32) 16 4 ≤ 12 ∧ fieldOf (65536#32) 8 5 ≤ 23 ∧ fieldOf (65536#32) 24 5 ≤ 23) := by
  repeat' apply And.intro
  all_goals decide +kernel

def fRecordsAccepted0 : Frame := (let h : List Byte := [0x10,0,0,0,0,9,0x81]; let r : List Byte := [0x11,16] ++ List.replicate 15 0 ++ [9,0,0,0,0]; let r := r ++ beBytes 2 (crc16 (h.take 6 ++ r)); mkFrame h r)
def fRecordsAccepted1 : Frame := (let h : List Byte := [0x40,0,0,0,0,9,0x81]; let r : List Byte := [0x11,16] ++ List.replicate 15 0 ++ [9,0,0,0,0]; let r := r ++ beBytes 2 (crc16 (h.take 6 ++ r)); mkFrame h r)
def fRecordsAccepted2 : Frame := ({ (let h : List Byte := [0x10,0,0,0,0,9,0x01]; let r : List Byte := [0x11,20] ++ List.replicate 15 3 ++ [9,0,0,0,0]; let r := r ++ beBytes 2 (crc16 (h.take 6 ++ r)); mkFrame h r) with lost := true } : Frame)
def wRecordsAccepted0 : State := st { rg [(Reg.RING_LINK_CTL 0, 0x10001), (Reg.CELL_MAP 143, 0x100), (laneReg 0 4, 4), (Reg.CELL_STAT 143, 3), (Reg.RING_REPOLL 0, 3), (Reg.TIME_PHASES, 0x06400190)] with tb := { counting := true, inPeriod := true, engAt := some 40000, engStart := 40000, k := 9 }, ports := [(0, { asked := [(9, [1])] })], lanes := [(12, { frm := 3 })] }
/-- Hypotheses of `Obligations.RecordsAccepted`, clause by clause. -/
theorem test_witness_RecordsAccepted :
  (wRecordsAccepted0.dev.inRun 0 = true ∧ wRecordsAccepted0.dev.tb.inPeriod = true ∧ wRecordsAccepted0.dev.tb.engPast = false ∧ wRecordsAccepted0.dev.missing 0 ≠ [] ∧
      (wRecordsAccepted0.dev.port 0).rounds < wRecordsAccepted0.dev.fld (Reg.RING_REPOLL 0) 0 2 ∧
      wRecordsAccepted0.dev.repollFits (0) (wRecordsAccepted0.dev.missing 0).length (5 * 0) = true) ∧
  (wRecordsAccepted0.dev.LanesRun ∧ (wRecordsAccepted0.dev.lane 12).frm = 3) ∧
  (Dev.LaneIn (0) wRecordsAccepted0.dev ∧ fKind fRecordsAccepted1 = 4 ∧ fNslots fRecordsAccepted1 ≤ 12 ∧ 0 < fNslots fRecordsAccepted1 ∧
      wRecordsAccepted0.dev.recOpen fRecordsAccepted1 = true ∧ 1 ∈ wRecordsAccepted0.dev.slotAsked (0) fRecordsAccepted1 0 ∧
      byteAt (List.take 24 (List.drop (24 * 0) fRecordsAccepted1.data)) 0 / 16 = 1 ∧
      recCheck fRecordsAccepted1 1 (List.take 24 (List.drop (24 * 0) fRecordsAccepted1.data)) = 0 ∧
      wRecordsAccepted0.dev.cellAt (wRecordsAccepted0.dev.ringOf 0) 1 = some 143) ∧
  (Dev.LaneIn (0) wRecordsAccepted0.dev ∧ fKind fRecordsAccepted0 = 1 ∧ fNslots fRecordsAccepted0 ≤ 12 ∧ 0 < fNslots fRecordsAccepted0 ∧
      wRecordsAccepted0.dev.recOpen fRecordsAccepted0 = true ∧
      recCheck fRecordsAccepted0 (if fDir fRecordsAccepted0 = true then 0 + 1 else fNslots fRecordsAccepted0 - 0) (List.take 24 (List.drop (24 * 0) fRecordsAccepted0.data)) = 0 ∧
      wRecordsAccepted0.dev.cellAt (wRecordsAccepted0.dev.ringOf 0) (if fDir fRecordsAccepted0 = true then 0 + 1 else fNslots fRecordsAccepted0 - 0) = some 143 ∧
      (wRecordsAccepted0.dev.cell 143).acc = false) ∧
  (Dev.LaneIn (0) wRecordsAccepted0.dev ∧ fKind fRecordsAccepted2 = 1 ∧ fNslots fRecordsAccepted2 ≤ 12 ∧ 0 < fNslots fRecordsAccepted2 ∧
      wRecordsAccepted0.dev.recOpen fRecordsAccepted2 = true ∧
      recCheck fRecordsAccepted2 (if fDir fRecordsAccepted2 = true then 0 + 1 else fNslots fRecordsAccepted2 - 0) (List.take 24 (List.drop (24 * 0) fRecordsAccepted2.data)) = 0 ∧
      wRecordsAccepted0.dev.cellAt (wRecordsAccepted0.dev.ringOf 0) (if fDir fRecordsAccepted2 = true then 0 + 1 else fNslots fRecordsAccepted2 - 0) = some 143 ∧
      (wRecordsAccepted0.dev.cell 143).acc = false ∧ fBad fRecordsAccepted2 = true) := by
  repeat' apply And.intro
  all_goals decide +kernel

def fServiceAndCellTable0 : Frame := { (mkFrame [0x30,0,0,0,0,9,0x80] [1,3,0,0,0,0,0,0]) with lost := true }
def fServiceAndCellTable1 : Frame := (mkFrame [0x30,0,0,0,0,9,0x80] ([1,3,0,0,0,0,0,0,0,0,0,0,0,0,0,0] ++ [1,0,0,0,0,0,0,64] ++ (let b : List Byte := List.replicate 60 0; b ++ beBytes 4 (crc32 b))))
def fServiceAndCellTable2 : Frame := (mkFrame [0x30,0,0,0,0,9,0] ([0,1,0,25,1,0,0,0,0,0,0,0,0,0,0,0] ++ [5,1,0,0,0,0,0,0,0,0,0,0,0,0,0,0]))
def kServiceAndCellTable0 : Pkt := { slots := [0], len := 8, vis := true, ended := true }
def wServiceAndCellTable0 : State := st { rg [(Reg.TWIN_STAT, 1), (Reg.SYS_READY, 0x8000)] with twinId := true }
def wServiceAndCellTable1 : State := st { rg [(Reg.TWIN_STAT, 1), (Reg.SYS_READY, 0x8000)] with twinId := true, tb := { inPeriod := true }, ports := [(24, { busyTo := 10 ^ 9 })] }
def wServiceAndCellTable2 : State := st { rg [(Reg.RING_LINK_CTL 0, 0x10001), (Reg.CELL_MAP 143, 0x100), (laneReg 0 4, 4), (Reg.CELL_STAT 143, 3), (Reg.RING_SVC 0, 0x43), (Reg.QM_CTL, 1), (Reg.QM_Q_CFG 3, 0x11)] with ports := [(0, { readDue := [1] })], net := { queues := [(3, [{ slots := [0], len := 8, vis := true, ended := true }])] } }
def wServiceAndCellTable3 : State := st (rg [(Reg.CELL_MAP 5, 0xC17), (Reg.RING_LINK_CTL 0, 0x10001), (Reg.SYS_READY, 0x8000), (Reg.TWIN_STAT, 1)])
def wServiceAndCellTable4 : State := st { rg [(Reg.RING_LINK_CTL 0, 0x10001), (laneReg 0 4, 4), (Reg.RING_SVC 0, 0x43), (Reg.QM_CTL, 1), (Reg.QM_Q_CFG 3, 0x11)] with mem := [(0x20000013, 200)], net := { queues := [(3, [{ slots := [0], len := 8, vis := true, ended := true }])] } }
/-- Hypotheses of `Obligations.ServiceAndCellTable`, clause by clause. -/
theorem test_witness_ServiceAndCellTable :
  (Dev.BusOpen Master.supv (Reg.CELL_MAP 0) wServiceAndCellTable0.dev ∧
      (wServiceAndCellTable0.dev.cellState 0 ≠ 0 ∨ 23 < fieldOf (393216#32) 0 5 ∨ 12 < fieldOf (393216#32) 8 4 ∨ 5 < fieldOf (393216#32) 16 3)) ∧
  (Dev.BusOpen Master.supv (Reg.CELL_MAP 0) wServiceAndCellTable0.dev ∧ wServiceAndCellTable0.dev.cellState 0 = 0 ∧ fieldOf (68631#32) 0 5 ≤ 23 ∧
      fieldOf (68631#32) 8 4 ≤ 12 ∧ fieldOf (68631#32) 16 3 ≤ 5 ∧ 1 < 144 ∧ 1 ≠ 0) ∧
  (Dev.BusOpen Master.supv (Reg.CELL_MAP 0) wServiceAndCellTable3.dev ∧ wServiceAndCellTable3.dev.cellState 0 = 0 ∧ fieldOf (68631#32) 0 5 ≤ 23 ∧
      fieldOf (68631#32) 8 4 ≤ 12 ∧ fieldOf (68631#32) 16 3 ≤ 5 ∧ 5 < 144 ∧ 5 ≠ 0 ∧ wServiceAndCellTable3.dev.fld (Reg.CELL_MAP 5) 8 4 = fieldOf (68631#32) 8 4) ∧
  (Dev.BusOpen Master.supv (Reg.CELL_MAP 0) wServiceAndCellTable0.dev ∧ wServiceAndCellTable0.dev.cellState 0 = 0 ∧ fieldOf (0#32) 0 5 ≤ 23 ∧ fieldOf (0#32) 8 4 ≤ 12 ∧
      fieldOf (0#32) 16 3 ≤ 5 ∧ (fieldOf (0#32) 8 4 = 0 ∨ ∀ (x : Nat), x < 144 → x ≠ 0 → wServiceAndCellTable0.dev.fld (Reg.CELL_MAP x) 8 4 = fieldOf (0#32) 8 4 → wServiceAndCellTable0.dev.fld (Reg.CELL_MAP x) 0 5 ≠ fieldOf (0#32) 0 5)) ∧
  (Dev.BusOpen Master.supv (Reg.CELL_REQ 0) wServiceAndCellTable0.dev ∧ (1#32).getLsbD 3 = false ∧ (fieldOf (1#32) 0 3 = 1 ∨ 5 ≤ fieldOf (1#32) 0 3)) ∧
  (Dev.BusOpen Master.supv (Reg.CELL_REQ 0) wServiceAndCellTable0.dev ∧ (0#32).getLsbD 3 = false ∧
      (fieldOf (0#32) 0 3 = 0 ∨ fieldOf (0#32) 0 3 = 2 ∨ fieldOf (0#32) 0 3 = 3 ∨ fieldOf (0#32) 0 3 = 4)) ∧
  (Dev.BusOpen Master.supv (Reg.CELL_REQ 0) wServiceAndCellTable0.dev ∧ (8#32).getLsbD 3 = true) ∧
  ((fun p f s => Dev.LaneIn p s.dev ∧ fKind f = 3 ∧ fNslots f = 0 ∧ f.data.length / 8 ≤ 128) (0) fServiceAndCellTable2 wServiceAndCellTable2 ∧
      fBad fServiceAndCellTable2 = false ∧ (wServiceAndCellTable2.dev.role = 0 ∨ fOrigin fServiceAndCellTable2 = wServiceAndCellTable2.dev.twinId) ∧
      fDir fServiceAndCellTable2 = false ∧ byteAt fServiceAndCellTable2.data 1 = 1 ∧ byteAt fServiceAndCellTable2.data 4 = 1 ∧ 1 ≤ wServiceAndCellTable2.dev.nslot 0 ∧
      byteAt (List.take 16 (List.drop 16 fServiceAndCellTable2.data)) 1 = 1 ∧
      ∀ (q : Nat), q < 24 → wServiceAndCellTable2.dev.partner 0 = some q → ∀ (x : List Byte × Nat), x ∈ (wServiceAndCellTable2.dev.port q).derived → x.fst = List.take 8 (List.drop 8 (List.take 16 (List.drop 16 fServiceAndCellTable2.data))) → x.snd = 1) ∧
  ((fun p f s => Dev.LaneIn p s.dev ∧ fKind f = 3 ∧ fNslots f = 0 ∧ f.data.length / 8 ≤ 128) (0) fServiceAndCellTable2 wServiceAndCellTable2 ∧
      fBad fServiceAndCellTable2 = false ∧ (wServiceAndCellTable2.dev.role = 0 ∨ fOrigin fServiceAndCellTable2 = wServiceAndCellTable2.dev.twinId) ∧
      fDir fServiceAndCellTable2 = false ∧ byteAt fServiceAndCellTable2.data 1 = 1 ∧ byteAt fServiceAndCellTable2.data 4 = 1 ∧ 1 ≤ wServiceAndCellTable2.dev.nslot 0 ∧
      byteAt (List.take 16 (List.drop 16 fServiceAndCellTable2.data)) 1 = 1 ∧
      (∀ (q : Nat), q < 24 → wServiceAndCellTable2.dev.partner 0 = some q → ∀ (x : List Byte × Nat), x ∈ (wServiceAndCellTable2.dev.port q).derived → x.fst = List.take 8 (List.drop 8 (List.take 16 (List.drop 16 fServiceAndCellTable2.data))) → x.snd = 1) ∧
      ¬(List.take 8 (List.drop 8 (List.take 16 (List.drop 16 fServiceAndCellTable2.data))), fieldAt (List.take 16 (List.drop 16 fServiceAndCellTable2.data)) 4 2) ∈ (wServiceAndCellTable2.dev.port 0).nodes) ∧
  (wServiceAndCellTable2.dev.LanesRun ∧ wServiceAndCellTable2.dev.inRun 0 = true ∧
      (∀ (n : Nat), (wServiceAndCellTable2.dev.port 0).discAgo = some n → wServiceAndCellTable2.dev.fld (Reg.RING_SVC 0) 16 16 ≠ 0 ∧
      wServiceAndCellTable2.dev.fld (Reg.RING_SVC 0) 16 16 ≤ n) ∧ (wServiceAndCellTable2.dev.port 0).svcWait = [] ∧ wServiceAndCellTable2.dev.gapFits (0) 28 = true) ∧
  (wServiceAndCellTable4.dev.LanesRun ∧ wServiceAndCellTable4.dev.inRun 0 = true ∧ wServiceAndCellTable4.dev.bit (Reg.RING_SVC 0) 6 = true ∧
      wServiceAndCellTable4.dev.bit Reg.QM_CTL 0 = true ∧ wServiceAndCellTable4.dev.bit (Reg.QM_Q_CFG (wServiceAndCellTable4.dev.fld (Reg.RING_SVC 0) 0 6)) 0 = true ∧
      wServiceAndCellTable4.dev.qCons (wServiceAndCellTable4.dev.fld (Reg.RING_SVC 0) 0 6) = 2 ∧
      wServiceAndCellTable4.dev.qHead (wServiceAndCellTable4.dev.fld (Reg.RING_SVC 0) 0 6) = some kServiceAndCellTable0 ∧
      128 < 1 + (fieldAt (wServiceAndCellTable4.dev.pktBytes kServiceAndCellTable0.slots kServiceAndCellTable0.len) 6 2 + 7) / 8 + byteAt (wServiceAndCellTable4.dev.pktBytes kServiceAndCellTable0.slots kServiceAndCellTable0.len) 3) ∧
  (wServiceAndCellTable2.dev.LanesRun ∧ wServiceAndCellTable2.dev.inRun 0 = true ∧ wServiceAndCellTable2.dev.bit (Reg.RING_SVC 0) 6 = true ∧
      wServiceAndCellTable2.dev.bit Reg.QM_CTL 0 = true ∧ wServiceAndCellTable2.dev.bit (Reg.QM_Q_CFG (wServiceAndCellTable2.dev.fld (Reg.RING_SVC 0) 0 6)) 0 = true ∧
      wServiceAndCellTable2.dev.qCons (wServiceAndCellTable2.dev.fld (Reg.RING_SVC 0) 0 6) = 2 ∧
      wServiceAndCellTable2.dev.qHead (wServiceAndCellTable2.dev.fld (Reg.RING_SVC 0) 0 6) = some kServiceAndCellTable0 ∧
      1 + (fieldAt (wServiceAndCellTable2.dev.pktBytes kServiceAndCellTable0.slots kServiceAndCellTable0.len) 6 2 + 7) / 8 + byteAt (wServiceAndCellTable2.dev.pktBytes kServiceAndCellTable0.slots kServiceAndCellTable0.len) 3 ≤ 128 ∧
      1 + (fieldAt (wServiceAndCellTable2.dev.pktBytes kServiceAndCellTable0.slots kServiceAndCellTable0.len) 6 2 + 7) / 8 + byteAt (wServiceAndCellTable2.dev.pktBytes kServiceAndCellTable0.slots kServiceAndCellTable0.len) 3 + 2 + (wServiceAndCellTable2.dev.repeats 0).length ≤ 22 ∧
      (wServiceAndCellTable2.dev.port 0).svcWait = [] ∧
      wServiceAndCellTable2.dev.gapFits (0) (1 + (fieldAt (wServiceAndCellTable2.dev.pktBytes kServiceAndCellTable0.slots kServiceAndCellTable0.len) 6 2 + 7) / 8 + byteAt (wServiceAndCellTable2.dev.pktBytes kServiceAndCellTable0.slots kServiceAndCellTable0.len) 3 + 2) = true) ∧
  ((fun p f s => Dev.LaneIn p s.dev ∧ fKind f = 3 ∧ fNslots f = 0 ∧ f.data.length / 8 ≤ 128) (0) fServiceAndCellTable1 wServiceAndCellTable2 ∧
      fBad fServiceAndCellTable1 = false ∧ (wServiceAndCellTable2.dev.role = 0 ∨ fOrigin fServiceAndCellTable1 = wServiceAndCellTable2.dev.twinId) ∧
      byteAt fServiceAndCellTable1.data 1 = 3 ∧ fieldAt fServiceAndCellTable1.data 4 2 = 0 ∧
      (wServiceAndCellTable2.dev.port 0).readDue.contains (byteAt fServiceAndCellTable1.data 0) = true ∧ byteAt (List.drop 16 fServiceAndCellTable1.data) 1 = 0 ∧
      byteAt (List.drop 16 fServiceAndCellTable1.data) 0 = byteAt fServiceAndCellTable1.data 0 ∧ fieldAt (List.drop 16 fServiceAndCellTable1.data) 6 2 = 64 ∧
      wServiceAndCellTable2.dev.cellAt (wServiceAndCellTable2.dev.ringOf 0) (byteAt fServiceAndCellTable1.data 0) = some 143 ∧
      fieldAt (List.take 64 (List.drop 8 (List.drop 16 fServiceAndCellTable1.data))) 60 4 = crc32 (List.take 60 (List.take 64 (List.drop 8 (List.drop 16 fServiceAndCellTable1.data))))) ∧
  ((fun p f s => Dev.LaneIn p s.dev ∧ fKind f = 3 ∧ fNslots f = 0 ∧ f.data.length / 8 ≤ 128) (0) fServiceAndCellTable1 wServiceAndCellTable1 ∧
      fBad fServiceAndCellTable1 = false ∧ wServiceAndCellTable1.dev.role ≠ 0 ∧ fOrigin fServiceAndCellTable1 ≠ wServiceAndCellTable1.dev.twinId ∧
      wServiceAndCellTable1.dev.bit Reg.SYS_READY 15 = true ∧ wServiceAndCellTable1.dev.twin.svcWait = [] ∧ wServiceAndCellTable1.dev.tb.inPeriod = true ∧
      80 * wServiceAndCellTable1.dev.twinNext < wServiceAndCellTable1.dev.twinFree (2 + fServiceAndCellTable1.data.length / 8)) ∧
  ((fun p f s => Dev.LaneIn p s.dev ∧ fKind f = 3 ∧ fNslots f = 0 ∧ f.data.length / 8 ≤ 128) (0) fServiceAndCellTable1 wServiceAndCellTable0 ∧
      fBad fServiceAndCellTable1 = false ∧ wServiceAndCellTable0.dev.role ≠ 0 ∧ fOrigin fServiceAndCellTable1 ≠ wServiceAndCellTable0.dev.twinId ∧
      wServiceAndCellTable0.dev.bit Reg.SYS_READY 15 = true ∧ wServiceAndCellTable0.dev.twin.svcWait = [] ∧ ¬(wServiceAndCellTable0.dev.tb.inPeriod = true ∧
      80 * wServiceAndCellTable0.dev.twinNext < wServiceAndCellTable0.dev.twinFree (2 + fServiceAndCellTable1.data.length / 8))) ∧
  ((fun p f s => Dev.LaneIn p s.dev ∧ fKind f = 3 ∧ fNslots f = 0 ∧ f.data.length / 8 ≤ 128) (0) fServiceAndCellTable0 wServiceAndCellTable0 ∧
      fBad fServiceAndCellTable0 = true) := by
  repeat' apply And.intro
  all_goals decide +kernel

def wBusErrorsChangeNothing1 : State := st (rg [(Reg.SCRUB_BERR_INFO, 0x100)])
def wBusErrorsChangeNothing2 : State := st {}
/-- Hypotheses of `Obligations.BusErrorsChangeNothing`, clause by clause. -/
theorem test_witness_BusErrorsChangeNothing :
  (wBusErrorsChangeNothing1.dev.busCode Master.supv (1#32).toNat AccSize.b32 (BusOp.read != BusOp.read) = some 2 ∧
      wBusErrorsChangeNothing1.dev.bit Reg.SCRUB_BERR_INFO 8 = true) ∧
  (wBusErrorsChangeNothing2.dev.busCode Master.supv (0#32).toNat AccSize.b8 (BusOp.read != BusOp.read) = some 4 ∧
      ¬wBusErrorsChangeNothing2.dev.bit Reg.SCRUB_BERR_INFO 8 = true) := by
  repeat' apply And.intro
  all_goals decide +kernel

def wMemoryHoldsWhatIsWritten0 : State := st dv
/-- Hypotheses of `Obligations.MemoryHoldsWhatIsWritten`, clause by clause. -/
theorem test_witness_MemoryHoldsWhatIsWritten :
  (wMemoryHoldsWhatIsWritten0.dev.busCode Master.supv (0#32).toNat AccSize.b8 false = none ∧
      (regionOf (0#32).toNat = some Region.sram ∨ regionOf (0#32).toNat = some Region.edata ∨ regionOf (0#32).toNat = some Region.sillage) ∧
      wMemoryHoldsWhatIsWritten0.dev.eccBad (0#32).toNat = false) ∧
  (wMemoryHoldsWhatIsWritten0.dev.busCode Master.supv (0#32).toNat AccSize.b8 true = none ∧
      (regionOf (0#32).toNat = some Region.sram ∨ regionOf (0#32).toNat = some Region.edata ∨ regionOf (0#32).toNat = some Region.sillage) ∧
      (1 < (0#32).toNat ∨ (0#32).toNat + sizeBytes AccSize.b8 ≤ 1)) := by
  repeat' apply And.intro
  all_goals decide +kernel

def wNoRegisterReadsZero0 : State := st dv
/-- Hypotheses of `Obligations.NoRegisterReadsZero`, clause by clause. -/
theorem test_witness_NoRegisterReadsZero :
  (regionOf (1073745916#32).toNat = some Region.register ∧ noReg (1073745916#32).toNat = true ∧
      wNoRegisterReadsZero0.dev.busCode Master.supv (1073745916#32).toNat AccSize.b32 true = none) ∧
  (regionOf (1073745916#32).toNat = some Region.register ∧ noReg (1073745916#32).toNat = true ∧
      wNoRegisterReadsZero0.dev.busCode Master.supv (1073745916#32).toNat AccSize.b32 false = none) := by
  repeat' apply And.intro
  all_goals decide +kernel

def wLowWordThenHighWord0 : State := st { rg [(Reg.MET_E_LO 129 + 4, 77), (Reg.MET_E_LO 129, 3), (Reg.MET_I 0 + 0x400, 5), (Reg.AMB_HOLD_LO + 4, 8)] with shadow := [(shadowKey .supv Reg.TIME_NOW_HI, 6), (shadowKey .supv (Reg.MET_E_LO 129 + 4), 9), (shadowKey .supv (Reg.MET_I 129 + 0x400), 1)], tb := { dt := 2 ^ 85 } }
def wLowWordThenHighWord1 : State := st { rg [(Reg.SYS_PWR_STAT, 0xFF)] with shadow := [] }
/-- Hypotheses of `Obligations.LowWordThenHighWord`, clause by clause. -/
theorem test_witness_LowWordThenHighWord :
  (hiOf 1073872912 = some 1073872916 ∧ wLowWordThenHighWord1.dev.busCode Master.supv 1073872916 AccSize.b32 false = none ∧
      wLowWordThenHighWord1.dev.shadow.getD 0 (shadowKey Master.supv 1073872916) = 0) ∧
  (hiOf 1073872912 = some 1073872916 ∧ wLowWordThenHighWord0.dev.busCode Master.supv 1073872916 AccSize.b32 false = none ∧
      wLowWordThenHighWord0.dev.shadow.getD 0 (shadowKey Master.supv 1073872916) = 5 + 1) ∧
  (hiOf 1073872912 = some 1073872916 ∧ wLowWordThenHighWord0.dev.busCode Master.supv 1073872912 AccSize.b32 false = none ∧
      wLowWordThenHighWord0.dev.shadow.getD 0 (shadowKey Master.supv 1073872912) = 0) := by
  repeat' apply And.intro
  all_goals decide +kernel

def wAccessCodesAndScrub0 : State := st (rg [(Reg.ATM_EVT, 0x7F), (Reg.ATM_IEN, 0x55), (Reg.ATM_CNT_BADEV, 4), (Reg.ATM_CNT_BADEV + 12, 5), (Reg.SCRUB_CTL, 0x7F)])
def wAccessCodesAndScrub1 : State := st { rg [(Reg.SCRUB_CTL, 0x7F), (Reg.SCRUB_CE 0, 0xFFFF)] with scrubPos := (List.range 7).map fun c => (c, scrubWords c - 1), ecc := (List.range 7).map fun c => (scrubAddr c (scrubWords c - 1), 1) }
/-- Hypotheses of `Obligations.AccessCodesAndScrub`, clause by clause. -/
theorem test_witness_AccessCodesAndScrub :
  (wAccessCodesAndScrub0.dev.domainOn 1 = true ∧ wAccessCodesAndScrub0.dev.domainOn (classDomain 0) = true ∧ wAccessCodesAndScrub0.dev.bit Reg.SCRUB_CTL 0 = true ∧
      wAccessCodesAndScrub0.dev.scrubPos.getD 0 0 < scrubWords 0) ∧
  (wAccessCodesAndScrub1.dev.domainOn 1 = true ∧ wAccessCodesAndScrub1.dev.domainOn (classDomain 0) = true ∧ wAccessCodesAndScrub1.dev.bit Reg.SCRUB_CTL 0 = true ∧
      wAccessCodesAndScrub1.dev.scrubPos.getD 0 0 < scrubWords 0 ∧
      wAccessCodesAndScrub1.dev.ecc.getD 0 (scrubAddr (0) (wAccessCodesAndScrub1.dev.scrubPos.getD 0 0)) = 1) ∧
  (wAccessCodesAndScrub1.dev.domainOn 1 = true ∧ wAccessCodesAndScrub1.dev.domainOn (classDomain 0) = true ∧ wAccessCodesAndScrub1.dev.bit Reg.SCRUB_CTL 0 = true ∧
      wAccessCodesAndScrub1.dev.scrubPos.getD 0 0 < scrubWords 0 ∧ wAccessCodesAndScrub1.dev.scrubPos.getD 0 0 + 1 = scrubWords 0) ∧
  (wAccessCodesAndScrub0.dev.busCode Master.supv (Reg.ATM_CNT_BADEV + 4 * 0) AccSize.b32 false = none ∧
      wAccessCodesAndScrub0.dev.shadow.getD 0 (shadowKey Master.supv (Reg.ATM_CNT_BADEV + 4 * 0)) = 0) ∧
  (wAccessCodesAndScrub0.dev.busCode Master.supv Reg.ATM_STAT AccSize.b32 true = none) ∧
  (wAccessCodesAndScrub0.dev.busCode Master.supv Reg.ATM_EVT AccSize.b32 true = none) ∧
  (wAccessCodesAndScrub0.dev.busCode Master.supv Reg.ATM_IEN AccSize.b32 true = none) := by
  repeat' apply And.intro
  all_goals decide +kernel

def wResetsClearTheDevice0 : State := st { rg [(Reg.GATE_STAT, 0xFFFF0000), (Reg.ATM_CTL, 1), (Reg.SYS_BOOT, 3), (Reg.CLK_BAND 0, 4)] with mem := [(0, 1), (0x30000000, 2)], pwr := { mainGood := true, safeOn := true, resetHi := true }, gates := [(0, { on := .high, en := true })] }
/-- Hypotheses of `Obligations.ResetsClearTheDevice`, clause by clause. -/
theorem test_witness_ResetsClearTheDevice :
  (wResetsClearTheDevice0.dev.pwr.safeOn = true ∧ memDomain 0 ≠ 8) ∧
  (Dev.BusOpen Master.supv Reg.SYS_RST_CTL wResetsClearTheDevice0.dev ∧ (1515847681#32).getLsbD 0 = true ∧ fieldOf (1515847681#32) 16 16 = 23130) ∧
  (Dev.BusOpen Master.supv Reg.SYS_RST_CTL wResetsClearTheDevice0.dev ∧ ¬((0#32).getLsbD 0 = true ∧ fieldOf (0#32) 16 16 = 23130)) ∧
  (Dev.BusOpen Master.supv Reg.SYS_RST_CTL wResetsClearTheDevice0.dev ∧ ((1515847681#32).getLsbD 0 = true ∧ fieldOf (1515847681#32) 16 16 = 23130) ∧ memDomain 0 ≠ 8) ∧
  (wResetsClearTheDevice0.dev.pwr.resetHi = true ∧ wResetsClearTheDevice0.dev.pwr.safeOn = true ∧ memDomain 0 ≠ 8) ∧
  (wResetsClearTheDevice0.dev.pwr.resetHi = true ∧ wResetsClearTheDevice0.dev.pwr.safeOn = true ∧ regDomain 0 ≠ 0 ∧ 0 ≠ Reg.SYS_RST_CAUSE) ∧
  (wResetsClearTheDevice0.dev.pwr.mainGood = true ∧ memDomain 0 ≠ 8) ∧
  (wResetsClearTheDevice0.dev.pwr.mainGood = true ∧ regDomain 0 ≠ 0 ∧ 0 ≠ Reg.SYS_RST_CAUSE) := by
  repeat' apply And.intro
  all_goals decide +kernel

def wStartStages0 : State := st { pwr := { resetHi := true } }
def wStartStages1 : State := st { pwr := { mainGood := true } }
def wStartStages2 : State := st { rg [(Reg.SYS_STAGE, 1)] with pwr := { mainGood := true, safeOn := true, queue := [(3, true)] } }
def wStartStages3 : State := st (rg [(Reg.SYS_STAGE, 2), (Reg.SYS_READY, 0x9FF)])
def wStartStages5 : State := st { rg [(Reg.SYS_STAGE, 2)] with fm := true }
/-- Hypotheses of `Obligations.StartStages`, clause by clause. -/
theorem test_witness_StartStages :
  (Dev.BusOpen Master.supv Reg.SYS_CTL wStartStages5.dev ∧ (2#32).getLsbD 0 = false ∧ (2#32).getLsbD 1 = true ∧ wStartStages5.dev.fm = true) ∧
  (Dev.BusOpen Master.supv Reg.SYS_CTL wStartStages2.dev ∧ (2#32).getLsbD 0 = false ∧ (2#32).getLsbD 1 = true ∧ ¬wStartStages2.dev.fm = true) ∧
  (Dev.BusOpen Master.supv Reg.SYS_CTL wStartStages3.dev ∧ (1#32).getLsbD 0 = true ∧ (1#32).getLsbD 1 = false ∧ wStartStages3.dev.fld Reg.SYS_READY 5 4 = 15 ∧
      (wStartStages3.dev.bit Reg.SYS_READY 11 = true ∨ wStartStages3.dev.bit Reg.SYS_CTL 1 = true)) ∧
  (Dev.BusOpen Master.supv Reg.SYS_CTL wStartStages2.dev ∧ (1#32).getLsbD 0 = true ∧ (1#32).getLsbD 1 = false ∧ ¬(wStartStages2.dev.fld Reg.SYS_READY 5 4 = 15 ∧
      (wStartStages2.dev.bit Reg.SYS_READY 11 = true ∨ wStartStages2.dev.bit Reg.SYS_CTL 1 = true))) ∧
  (wStartStages2.dev.pwr.safeOn = true ∧ wStartStages2.dev.fld Reg.SYS_STAGE 0 2 = 1) ∧
  (wStartStages1.dev.pwr.mainGood = true ∧ wStartStages1.dev.pwr.dbgHeld = false ∧ wStartStages1.dev.pwr.safeOn = false) ∧
  (wStartStages0.dev.pwr.mainGood = false ∧ wStartStages0.dev.pwr.resetHi = true ∧ wStartStages0.dev.pwr.dbgHeld = false ∧ wStartStages0.dev.pwr.safeOn = false) := by
  repeat' apply And.intro
  all_goals decide +kernel

def wDomainsAndSupplies0 : State := st (rg [(Reg.SYS_PWR_CTL, 0x3C)])
def wDomainsAndSupplies1 : State := st { dv with pwr := { mainGood := true, safeOn := true, queue := [(7, true)] } }
def wDomainsAndSupplies2 : State := st (rg [(Reg.SYS_PWR_CTL, 7),(Reg.PMIC_STAT, 0x3F3F),(Reg.SYS_SUPMON, 0x3F)])
def wDomainsAndSupplies3 : State := st { rg [(Reg.PMIC_STAT, 0x3F),(Reg.SYS_PWR_CTL, 7)] with mem := [(0x19000000, 3)], pwr := { mainGood := true, safeOn := true, queue := [(3, true)], pg := 0x3F } }
def wDomainsAndSupplies4 : State := st { rg [(Reg.SYS_PWR_STAT, 0x0),(Reg.SYS_PWR_CTL, 7)] with pwr := { mainGood := true, safeOn := true, queue := [(2, true), (3, true)] } }
def wDomainsAndSupplies5 : State := st { dv with pwr := { mainGood := true, safeOn := true, queue := [(7, false)], winOut := 0x3F } }
/-- Hypotheses of `Obligations.DomainsAndSupplies`, clause by clause. -/
theorem test_witness_DomainsAndSupplies :
  ((0 = 0 ∨ 0 = 2 ∨ 0 = 4) ∧ wDomainsAndSupplies0.dev.pwr.mainGood = true) ∧
  (1 ≠ 0 ∧ 1 ≠ 2 ∧ 1 ≠ 4 ∧ wDomainsAndSupplies0.dev.pwr.safeOn = true ∧ wDomainsAndSupplies0.dev.pwr.winOut.getLsbD 1 = false) ∧
  (wDomainsAndSupplies3.dev.pwr.safeOn = true ∧ wDomainsAndSupplies3.dev.pwr.pg.getLsbD 0 = true ∧ wDomainsAndSupplies3.dev.bit Reg.PMIC_STAT 0 = true) ∧
  (wDomainsAndSupplies2.dev.pwr.safeOn = true ∧ wDomainsAndSupplies2.dev.bit Reg.PMIC_STAT 0 = true) ∧
  (2 ≤ 7 ∧ 7 ≤ 7 ∧ wDomainsAndSupplies5.dev.pwr.queue = [(7, false)] ∧ wDomainsAndSupplies5.dev.pwr.latching = false) ∧
  (2 ≤ 7 ∧ 7 ≤ 7 ∧ wDomainsAndSupplies1.dev.pwr.queue = [(7, true)] ∧ (∀ (e : Nat × Bool), e ∈ [] → e.snd = true ∧ e.fst ≠ 7) ∧ wDomainsAndSupplies1.dev.fused = [] ∧
      7 = 7) ∧
  (2 ≤ 2 ∧ 2 ≤ 7 ∧ wDomainsAndSupplies4.dev.pwr.queue = [(2, true), (3, true)] ∧ (∀ (e : Nat × Bool), e ∈ [(3, true)] → e.snd = true ∧ e.fst ≠ 2) ∧
      wDomainsAndSupplies4.dev.fused = [] ∧ 2 ≠ 6) ∧
  (2 ≤ 3 ∧ 3 ≤ 7 ∧ wDomainsAndSupplies3.dev.pwr.queue = [(3, true)] ∧ (∀ (e : Nat × Bool), e ∈ [] → e.snd = true ∧ e.fst ≠ 3) ∧ wDomainsAndSupplies3.dev.fused = [] ∧
      3 ≠ 6 ∧ regDomain 1074397184 = 3 ∧ 1074397184 ≠ Reg.MET_STAT) ∧
  (2 ≤ 2 ∧ 2 ≤ 7 ∧ wDomainsAndSupplies4.dev.pwr.queue = [(2, true), (3, true)] ∧ (∀ (e : Nat × Bool), e ∈ [(3, true)] → e.snd = true ∧ e.fst ≠ 2) ∧
      wDomainsAndSupplies4.dev.fused = [] ∧ memDomain 0 = 2) ∧
  (Dev.BusOpen Master.supv Reg.SYS_PWR_CTL wDomainsAndSupplies0.dev ∧ wDomainsAndSupplies0.dev.pwrRefusal 2768240692#32 = none ∧ 3 ≤ 3 ∧ 3 ≤ 6 ∧
      wDomainsAndSupplies0.dev.bit Reg.SYS_PWR_CTL 3 = true ∧
      (∀ (j : Nat), j < 8 → 2 ≤ j → (2768240692#32).getLsbD j = (wDomainsAndSupplies0.dev.bit Reg.SYS_PWR_CTL j && j != 3)) ∧ wDomainsAndSupplies0.dev.pwr.queue = [] ∧
      memDomain 419430400 = 3) ∧
  (Dev.BusOpen Master.supv Reg.SYS_PWR_CTL wDomainsAndSupplies0.dev ∧ wDomainsAndSupplies0.dev.pwrRefusal 2768240692#32 = none ∧ 3 ≤ 3 ∧ 3 ≤ 6 ∧
      wDomainsAndSupplies0.dev.bit Reg.SYS_PWR_CTL 3 = true ∧
      (∀ (j : Nat), j < 8 → 2 ≤ j → (2768240692#32).getLsbD j = (wDomainsAndSupplies0.dev.bit Reg.SYS_PWR_CTL j && j != 3)) ∧ wDomainsAndSupplies0.dev.pwr.queue = [] ∧
      regDomain 1074397184 = 3) ∧
  (Dev.BusOpen Master.supv Reg.SYS_PWR_CTL wDomainsAndSupplies3.dev ∧ wDomainsAndSupplies3.dev.pwrRefusal 2768240660#32 = none ∧
      ∀ (i : Nat), i < 8 → 2 ≤ i → wDomainsAndSupplies3.dev.bit Reg.SYS_PWR_CTL i = true → (2768240660#32).getLsbD i = true) ∧
  (Dev.BusOpen Master.supv Reg.SYS_PWR_CTL wDomainsAndSupplies3.dev ∧ wDomainsAndSupplies3.dev.pwrRefusal 2768240660#32 = none ∧
      (∀ (i : Nat), i < 8 → 2 ≤ i → wDomainsAndSupplies3.dev.bit Reg.SYS_PWR_CTL i = true → (2768240660#32).getLsbD i = true) ∧ 2 < 8 ∧ 2 ≤ 2 ∧
      (2768240660#32).getLsbD 2 = true) ∧
  (Dev.BusOpen Master.supv Reg.SYS_PWR_CTL wDomainsAndSupplies3.dev ∧ wDomainsAndSupplies3.dev.pwrRefusal 2768240660#32 = none ∧
      (∀ (i : Nat), i < 8 → 2 ≤ i → wDomainsAndSupplies3.dev.bit Reg.SYS_PWR_CTL i = true → (2768240660#32).getLsbD i = true) ∧ 4 < 8 ∧ 2 ≤ 4 ∧
      (2768240660#32).getLsbD 4 = true ∧ wDomainsAndSupplies3.dev.bit Reg.SYS_PWR_CTL 4 = false) ∧
  (Dev.BusOpen Master.supv Reg.SYS_PWR_CTL wDomainsAndSupplies0.dev ∧ wDomainsAndSupplies0.dev.pwrRefusal 0#32 = some 0) := by
  repeat' apply And.intro
  all_goals decide +kernel

def wAmberDomain0 : State := st { rg [(Reg.AMB_STATUS, 1), (Reg.AMB_CTL, 3), (Reg.AMB_RSTK_CNT, 255), (Reg.SYS_READY, 0x200)] with amb := { powered := true, hold := 5 * 2 ^ 47, queue := [(Reg.AMB_SCRATCH 7, 77)] }, tb := { dt := 9 * 2 ^ 48 } }
def wAmberDomain1 : State := st { rg [(Reg.AMB_STATUS, 0), (Reg.AMB_CTL, 2), (Reg.AMB_TRIM, 0x80000)] with pwr := { mainGood := true, resetHi := false }, amb := { powered := true, hold := 2 ^ 80 - 1, queue := [(Reg.AMB_SCRATCH 0, 0), (Reg.AMB_CTL, 1)] } }
def wAmberDomain2 : State := st { amb := { powered := false }, regs := [(Reg.AMB_CTL, 4), (Reg.ATM_CTL, 1)] }
/-- Hypotheses of `Obligations.AmberDomain`, clause by clause. -/
theorem test_witness_AmberDomain :
  (wAmberDomain0.dev.amb.powered = true ∧ wAmberDomain0.dev.pwr.safeOn = true ∧ wAmberDomain0.dev.bit Reg.SYS_READY 9 = true ∧
      wAmberDomain0.dev.bit Reg.AMB_CTL 0 = true) ∧
  (wAmberDomain1.dev.amb.powered = true ∧ ¬(wAmberDomain1.dev.pwr.safeOn = true ∧ wAmberDomain1.dev.bit Reg.SYS_READY 9 = true ∧
      wAmberDomain1.dev.bit Reg.AMB_CTL 0 = true)) ∧
  (wAmberDomain1.dev.amb.powered = true ∧ wAmberDomain1.dev.amb.queue = [(Reg.AMB_SCRATCH 0, 0#32), (1073938436, 1#32)]) ∧
  (wAmberDomain1.dev.pwr.mainGood = true ∧ wAmberDomain1.dev.pwr.resetHi = false ∧ wAmberDomain1.dev.amb.powered = true ∧ wAmberDomain1.dev.bit Reg.AMB_CTL 1 = true) ∧
  (wAmberDomain2.dev.amb.powered = false ∧ regDomain 0 ≠ 0) ∧
  (wAmberDomain2.dev.amb.powered = false ∧ regDomain 1073938432 = 0) ∧
  (wAmberDomain2.dev.amb.powered = false ∧ regDomain 1073938524 = 0 ∧ 1073938524 ≠ Reg.AMB_STATUS) ∧
  (wAmberDomain0.dev.amb.powered = true ∧ wAmberDomain0.dev.bit Reg.AMB_STATUS 0 = true ∧ regDomain 0 ≠ 0) ∧
  (wAmberDomain0.dev.amb.powered = true ∧ wAmberDomain0.dev.bit Reg.AMB_STATUS 0 = true ∧ regDomain 1073938432 = 0) := by
  repeat' apply And.intro
  all_goals decide +kernel

def wAccord0 : State := st { rg [(Reg.AECTL_STAT 0, 0x11), (Reg.AECTL_STAT 7, 0x11)] with engs := [(0, { regs := gr 0b0000, pc := 5, cyc := 100, per := 9 }), (7, { regs := gr 0b0000, pc := 8190, cyc := 9, per := 9 })], boot := { runs := true }, sup := { regs := gr 0b0010, pc := 0x100 }, tb := { counting := true, inPeriod := true, engAt := none, outAt := some 16000, k := 9 } }
/-- Hypotheses of `Obligations.AccordArithmetic`, clause by clause. -/
theorem test_witness_AccordArithmetic :
  (Dev.Issues Core.supv { num := 0, neg := false : Pred } wAccord0.dev ∧ RI.i 1 2 5#14 = RI.i 1 2 5#14 ∧ (5#14).toNat < 32) ∧
  (Dev.Issues Core.supv { num := 0, neg := false : Pred } wAccord0.dev ∧ RI.r 1 2 0 0#10 = RI.r 1 2 0 0) ∧
  (Dev.Issues Core.supv { num := 0, neg := false : Pred } wAccord0.dev ∧
      shiftOps (RI.r 1 2 3 0#10) (Dev.regsOf Core.supv (Dev.seenBy Core.supv wAccord0.dev)) 0 = some (1, 2147483648#32, 63, 0)) ∧
  (Dev.Issues Core.supv { num := 0, neg := false : Pred } wAccord0.dev ∧
      shiftOps (RI.r 1 2 3 0#10) (Dev.regsOf Core.supv (Dev.seenBy Core.supv wAccord0.dev)) 1 = some (1, 2147483648#32, 63, 0#10)) ∧
  (Dev.Issues Core.supv { num := 0, neg := false : Pred } wAccord0.dev ∧
      riOps (RI.r 1 2 3 0#10) (Dev.regsOf Core.supv (Dev.seenBy Core.supv wAccord0.dev)) true 0 = some (1, 2147483648#32, 2147483647#32, 0)) ∧
  (Dev.Issues Core.supv { num := 0, neg := false : Pred } wAccord0.dev ∧
      riOps (RI.r 1 2 3 0#10) (Dev.regsOf Core.supv (Dev.seenBy Core.supv wAccord0.dev)) false 1 = some (1, 2147483648#32, 2147483647#32, 0#10)) := by
  repeat' apply And.intro
  all_goals decide +kernel

/-- Hypotheses of `Obligations.AccordComparesProductsMoves`, clause by clause. -/
theorem test_witness_AccordComparesProductsMoves :
  (Dev.Issues Core.supv { num := 0, neg := false : Pred } wAccord0.dev ∧ (0#19).toNat < 65536) ∧
  (Dev.Issues Core.supv { num := 0, neg := false : Pred } wAccord0.dev ∧ RI.r 0 0 0 12#10 = RI.r 0 0 0 (BitVec.ofNat 10 (12 + 16 * 0)) ∧ 0 < 64 ∧ 12 = 12 ∧ 0 = 0 ∧
      0 = 0) ∧
  (Dev.Issues Core.supv { num := 0, neg := false : Pred } wAccord0.dev ∧ RI.r 0 0 0 11#10 = RI.r 0 0 0 (BitVec.ofNat 10 (11 + 16 * 0)) ∧ 0 < 64 ∧ 11 = 11 ∧ 0 = 0 ∧
      0 = 0) ∧
  (Dev.Issues Core.supv { num := 0, neg := false : Pred } wAccord0.dev ∧ RI.r 1 2 0 10#10 = RI.r 1 2 0 (BitVec.ofNat 10 (10 + 16 * 0)) ∧ 0 < 64 ∧ 10 = 10 ∧ 0 = 0 ∧
      1 < 4) ∧
  (Dev.Issues Core.supv { num := 0, neg := false : Pred } wAccord0.dev ∧ RI.r 1 2 0 9#10 = RI.r 1 2 0 (BitVec.ofNat 10 (9 + 16 * 0)) ∧ 0 < 64 ∧ 9 = 9 ∧ 0 = 0 ∧ 1 < 4) ∧
  (Dev.Issues Core.supv { num := 0, neg := false : Pred } wAccord0.dev ∧ RI.r 1 2 0 8#10 = RI.r 1 2 0 (BitVec.ofNat 10 (8 + 16 * 0)) ∧ 0 < 64 ∧ 8 = 8 ∧ 0 = 0 ∧ 1 < 4) ∧
  (Dev.Issues Core.supv { num := 0, neg := false : Pred } wAccord0.dev ∧ RI.r 1 2 0 7#10 = RI.r 1 2 0 (BitVec.ofNat 10 (7 + 16 * 0)) ∧ 0 < 64 ∧ 7 = 7 ∧ 0 = 0 ∧ 2 < 4) ∧
  (Dev.Issues Core.supv { num := 0, neg := false : Pred } wAccord0.dev ∧ RI.r 1 2 0 6#10 = RI.r 1 2 0 (BitVec.ofNat 10 (6 + 16 * 0)) ∧ 0 < 64 ∧ 6 = 6 ∧ 0 = 0 ∧ 2 < 4) ∧
  (Dev.Issues Core.supv { num := 0, neg := false : Pred } wAccord0.dev ∧ RI.r 1 2 0 5#10 = RI.r 1 2 0 (BitVec.ofNat 10 (5 + 16 * 0)) ∧ 0 < 64 ∧ 5 = 5 ∧ 0 = 0 ∧ 2 < 4) ∧
  (Dev.Issues Core.supv { num := 0, neg := false : Pred } wAccord0.dev ∧ RI.r 0 0 0 4#10 = RI.r 0 0 0 (BitVec.ofNat 10 (4 + 16 * 0)) ∧ 0 < 64 ∧ 4 = 4 ∧ 0 = 0 ∧ 0 < 2) ∧
  (Dev.Issues Core.supv { num := 0, neg := false : Pred } wAccord0.dev ∧ RI.r 0 0 0 3#10 = RI.r 0 0 0 (BitVec.ofNat 10 (3 + 16 * 0)) ∧ 0 < 64 ∧ 3 = 3 ∧ 0 = 0 ∧ 0 < 4 ∧
      0 = 0) ∧
  (Dev.Issues Core.supv { num := 0, neg := false : Pred } wAccord0.dev ∧ RI.r 1 2 0 2#10 = RI.r 1 2 0 (BitVec.ofNat 10 (2 + 16 * 0)) ∧ 0 < 64 ∧ 2 = 2 ∧ 1 < 4 ∧ 0 ≤ 40) ∧
  (Dev.Issues Core.supv { num := 0, neg := false : Pred } wAccord0.dev ∧ RI.r 1 2 0 1#10 = RI.r 1 2 0 (BitVec.ofNat 10 (1 + 16 * 0)) ∧ 0 < 64 ∧ 1 = 1 ∧ 2 < 4) ∧
  (Dev.Issues Core.supv { num := 0, neg := false : Pred } wAccord0.dev ∧ RI.r 1 2 0 0#10 = RI.r 1 2 0 (BitVec.ofNat 10 (0 + 16 * 0)) ∧ 0 < 64 ∧ 0 = 0 ∧ 0 = 0) ∧
  (Dev.Issues Core.supv { num := 0, neg := false : Pred } wAccord0.dev ∧ RI.r 1 2 3 0#10 = RI.r 1 2 3 0#10 ∧ (0#10 = 0 ∨ 0#10 = 1) ∧ 1 < 4) ∧
  (Dev.Issues Core.supv { num := 0, neg := false : Pred } wAccord0.dev ∧ Core.supv = Core.supv) ∧
  (Dev.Issues Core.supv { num := 0, neg := false : Pred } wAccord0.dev ∧
      riOps (RI.i 1 2 3#14) (Dev.regsOf Core.supv (Dev.seenBy Core.supv wAccord0.dev)) false 1 = some (1, 2147483648#32, 3#32, 0#10)) ∧
  (Dev.Issues Core.supv { num := 0, neg := false : Pred } wAccord0.dev ∧
      riOps (RI.i 1 2 3#14) (Dev.regsOf Core.supv (Dev.seenBy Core.supv wAccord0.dev)) false 0 = some (1, 2147483648#32, 3#32, 0)) := by
  repeat' apply And.intro
  all_goals decide +kernel

/-- Hypotheses of `Obligations.AccordLoadsStores`, clause by clause. -/
theorem test_witness_AccordLoadsStores :
  (Dev.Issues Core.supv { num := 0, neg := false : Pred } wAccord0.dev ∧
      mAddr { rd := 3, rb := 1, ix := 3, off := 4#13 : MOp } (Dev.seenBy Core.supv wAccord0.dev).sup.regs 2 true = some 9 ∧
      { rd := 3, rb := 1, ix := 3, off := 4#13 : MOp }.ix = 3 ∧
      (Dev.seenBy Core.supv wAccord0.dev).mpuData (BusOp.write ((Dev.seenBy Core.supv wAccord0.dev).sup.regs.rg ↑{ rd := 3, rb := 1, ix := 3, off := 4#13 : MOp }.rd &&& 255#32) != BusOp.read) 9 = true ∧
      (busAccess Master.supv 9 AccSize.b8 (BusOp.write ((Dev.seenBy Core.supv wAccord0.dev).sup.regs.rg ↑{ rd := 3, rb := 1, ix := 3, off := 4#13 : MOp }.rd &&& 255#32)) (Dev.supStall [↑{ rd := 3, rb := 1, ix := 3, off := 4#13 : MOp }.rb, ↑{ rd := 3, rb := 1, ix := 3, off := 4#13 : MOp }.rd] (Dev.seenBy Core.supv wAccord0.dev))).busResp.err = 0 ∧
      (busAccess Master.supv 9 AccSize.b8 (BusOp.write ((Dev.seenBy Core.supv wAccord0.dev).sup.regs.rg ↑{ rd := 3, rb := 1, ix := 3, off := 4#13 : MOp }.rd &&& 255#32)) (Dev.supStall [↑{ rd := 3, rb := 1, ix := 3, off := 4#13 : MOp }.rb, ↑{ rd := 3, rb := 1, ix := 3, off := 4#13 : MOp }.rd] (Dev.seenBy Core.supv wAccord0.dev))).supRuns = true) ∧
  (Dev.Issues Core.supv { num := 0, neg := false : Pred } wAccord0.dev ∧
      mAddr { rd := 3, rb := 1, ix := 3, off := 4#13 : MOp } (Dev.seenBy Core.supv wAccord0.dev).sup.regs 2 true = some 9 ∧
      { rd := 3, rb := 1, ix := 3, off := 4#13 : MOp }.ix = 3 ∧ (Dev.seenBy Core.supv wAccord0.dev).mpuData (BusOp.read != BusOp.read) 9 = true ∧
      (busAccess Master.supv 9 AccSize.b8 BusOp.read (Dev.supStall [↑{ rd := 3, rb := 1, ix := 3, off := 4#13 : MOp }.rb] (Dev.seenBy Core.supv wAccord0.dev))).busResp.err = 0 ∧
      (busAccess Master.supv 9 AccSize.b8 BusOp.read (Dev.supStall [↑{ rd := 3, rb := 1, ix := 3, off := 4#13 : MOp }.rb] (Dev.seenBy Core.supv wAccord0.dev))).supRuns = true) ∧
  (Dev.Issues Core.supv { num := 0, neg := false : Pred } wAccord0.dev ∧
      mAddr { rd := 4, rb := 0, ix := 0, off := 256#13 : MOp } (Dev.seenBy Core.supv wAccord0.dev).sup.regs 2 true = some 256 ∧
      ¬{ rd := 4, rb := 0, ix := 0, off := 256#13 : MOp }.ix = 3 ∧
      (Dev.seenBy Core.supv wAccord0.dev).mpuData (BusOp.write ((Dev.seenBy Core.supv wAccord0.dev).sup.regs.rg ↑{ rd := 4, rb := 0, ix := 0, off := 256#13 : MOp }.rd &&& 65535#32) != BusOp.read) 256 = true ∧
      (busAccess Master.supv 256 AccSize.b16 (BusOp.write ((Dev.seenBy Core.supv wAccord0.dev).sup.regs.rg ↑{ rd := 4, rb := 0, ix := 0, off := 256#13 : MOp }.rd &&& 65535#32)) (Dev.supStall [↑{ rd := 4, rb := 0, ix := 0, off := 256#13 : MOp }.rb, ↑{ rd := 4, rb := 0, ix := 0, off := 256#13 : MOp }.rd] (Dev.seenBy Core.supv wAccord0.dev))).busResp.err = 0 ∧
      (busAccess Master.supv 256 AccSize.b16 (BusOp.write ((Dev.seenBy Core.supv wAccord0.dev).sup.regs.rg ↑{ rd := 4, rb := 0, ix := 0, off := 256#13 : MOp }.rd &&& 65535#32)) (Dev.supStall [↑{ rd := 4, rb := 0, ix := 0, off := 256#13 : MOp }.rb, ↑{ rd := 4, rb := 0, ix := 0, off := 256#13 : MOp }.rd] (Dev.seenBy Core.supv wAccord0.dev))).supRuns = true) ∧
  (Dev.Issues Core.supv { num := 0, neg := false : Pred } wAccord0.dev ∧
      mAddr { rd := 4, rb := 0, ix := 0, off := 256#13 : MOp } (Dev.seenBy Core.supv wAccord0.dev).sup.regs 2 true = some 256 ∧
      ¬{ rd := 4, rb := 0, ix := 0, off := 256#13 : MOp }.ix = 3 ∧ (Dev.seenBy Core.supv wAccord0.dev).mpuData (BusOp.read != BusOp.read) 256 = true ∧
      (busAccess Master.supv 256 AccSize.b16 BusOp.read (Dev.supStall [↑{ rd := 4, rb := 0, ix := 0, off := 256#13 : MOp }.rb] (Dev.seenBy Core.supv wAccord0.dev))).busResp.err = 0 ∧
      (busAccess Master.supv 256 AccSize.b16 BusOp.read (Dev.supStall [↑{ rd := 4, rb := 0, ix := 0, off := 256#13 : MOp }.rb] (Dev.seenBy Core.supv wAccord0.dev))).supRuns = true) ∧
  (Dev.Issues Core.supv { num := 0, neg := false : Pred } wAccord0.dev ∧
      mAddr { rd := 4, rb := 0, ix := 0, off := 256#13 : MOp } (Dev.seenBy Core.supv wAccord0.dev).sup.regs 4 false = some 256 ∧
      (Dev.seenBy Core.supv wAccord0.dev).mpuData (BusOp.write ((Dev.seenBy Core.supv wAccord0.dev).sup.regs.rg ↑{ rd := 4, rb := 0, ix := 0, off := 256#13 : MOp }.rd) != BusOp.read) 256 = true ∧
      (busAccess Master.supv 256 AccSize.b32 (BusOp.write ((Dev.seenBy Core.supv wAccord0.dev).sup.regs.rg ↑{ rd := 4, rb := 0, ix := 0, off := 256#13 : MOp }.rd)) (Dev.supStall [↑{ rd := 4, rb := 0, ix := 0, off := 256#13 : MOp }.rb, ↑{ rd := 4, rb := 0, ix := 0, off := 256#13 : MOp }.rd] (Dev.seenBy Core.supv wAccord0.dev))).busResp.err = 0 ∧
      (busAccess Master.supv 256 AccSize.b32 (BusOp.write ((Dev.seenBy Core.supv wAccord0.dev).sup.regs.rg ↑{ rd := 4, rb := 0, ix := 0, off := 256#13 : MOp }.rd)) (Dev.supStall [↑{ rd := 4, rb := 0, ix := 0, off := 256#13 : MOp }.rb, ↑{ rd := 4, rb := 0, ix := 0, off := 256#13 : MOp }.rd] (Dev.seenBy Core.supv wAccord0.dev))).supRuns = true) ∧
  (Dev.Issues Core.supv { num := 0, neg := false : Pred } wAccord0.dev ∧
      mAddr { rd := 4, rb := 0, ix := 0, off := 256#13 : MOp } (Dev.seenBy Core.supv wAccord0.dev).sup.regs 4 false = some 256 ∧
      (Dev.seenBy Core.supv wAccord0.dev).mpuData (BusOp.read != BusOp.read) 256 = true ∧
      (busAccess Master.supv 256 AccSize.b32 BusOp.read (Dev.supStall [↑{ rd := 4, rb := 0, ix := 0, off := 256#13 : MOp }.rb] (Dev.seenBy Core.supv wAccord0.dev))).busResp.err = 0 ∧
      (busAccess Master.supv 256 AccSize.b32 BusOp.read (Dev.supStall [↑{ rd := 4, rb := 0, ix := 0, off := 256#13 : MOp }.rb] (Dev.seenBy Core.supv wAccord0.dev))).supRuns = true) ∧
  (Dev.Issues (Core.eng 0) { num := 0, neg := false : Pred } wAccord0.dev ∧ Dev.EngClean (0) (Dev.seenBy (Core.eng 0) wAccord0.dev) ∧
      mAddr { rd := 1, rb := 2, ix := 0, off := 0#13 : MOp } ((Dev.seenBy (Core.eng 0) wAccord0.dev).eng 0).regs 32 false = some 2147483648) ∧
  (Dev.Issues (Core.eng 0) { num := 0, neg := false : Pred } wAccord0.dev ∧ Dev.EngClean (0) (Dev.seenBy (Core.eng 0) wAccord0.dev) ∧
      mAddr { rd := 3, rb := 1, ix := 3, off := 4#13 : MOp } ((Dev.seenBy (Core.eng 0) wAccord0.dev).eng 0).regs 2 true = some 9 ∧
      { rd := 3, rb := 1, ix := 3, off := 4#13 : MOp }.ix = 3 ∧ 0 ≠ Reg.AECTL_EVT 0) ∧
  (Dev.Issues (Core.eng 0) { num := 0, neg := false : Pred } wAccord0.dev ∧ Dev.EngClean (0) (Dev.seenBy (Core.eng 0) wAccord0.dev) ∧
      mAddr { rd := 3, rb := 1, ix := 3, off := 4#13 : MOp } ((Dev.seenBy (Core.eng 0) wAccord0.dev).eng 0).regs 2 true = some 9 ∧
      { rd := 3, rb := 1, ix := 3, off := 4#13 : MOp }.ix = 3 ∧ (0 < engBase 0 + 65536 + 9 % 32768 ∨ engBase 0 + 65536 + 9 % 32768 + 1 ≤ 0)) ∧
  (Dev.Issues (Core.eng 0) { num := 0, neg := false : Pred } wAccord0.dev ∧ Dev.EngClean (0) (Dev.seenBy (Core.eng 0) wAccord0.dev) ∧
      mAddr { rd := 1, rb := 2, ix := 0, off := 0#13 : MOp } ((Dev.seenBy (Core.eng 0) wAccord0.dev).eng 0).regs 2 true = some 2147483648 ∧
      ¬{ rd := 1, rb := 2, ix := 0, off := 0#13 : MOp }.ix = 3 ∧ 0 ≠ Reg.AECTL_EVT 0) ∧
  (Dev.Issues (Core.eng 0) { num := 0, neg := false : Pred } wAccord0.dev ∧ Dev.EngClean (0) (Dev.seenBy (Core.eng 0) wAccord0.dev) ∧
      mAddr { rd := 1, rb := 2, ix := 0, off := 0#13 : MOp } ((Dev.seenBy (Core.eng 0) wAccord0.dev).eng 0).regs 2 true = some 2147483648 ∧
      ¬{ rd := 1, rb := 2, ix := 0, off := 0#13 : MOp }.ix = 3 ∧
      (0 < (engBase 0 + 65536 + 2147483648 % 32768) / 2 * 2 ∨ (engBase 0 + 65536 + 2147483648 % 32768) / 2 * 2 + 2 ≤ 0)) ∧
  (Dev.Issues (Core.eng 0) { num := 0, neg := false : Pred } wAccord0.dev ∧ Dev.EngClean (0) (Dev.seenBy (Core.eng 0) wAccord0.dev) ∧
      mAddr { rd := 1, rb := 2, ix := 0, off := 0#13 : MOp } ((Dev.seenBy (Core.eng 0) wAccord0.dev).eng 0).regs 4 false = some 2147483648 ∧ 0 ≠ Reg.AECTL_EVT 0) ∧
  (Dev.Issues (Core.eng 0) { num := 0, neg := false : Pred } wAccord0.dev ∧ Dev.EngClean (0) (Dev.seenBy (Core.eng 0) wAccord0.dev) ∧
      mAddr { rd := 1, rb := 2, ix := 0, off := 0#13 : MOp } ((Dev.seenBy (Core.eng 0) wAccord0.dev).eng 0).regs 4 false = some 2147483648 ∧
      (0 < engBase 0 + 65536 + 2147483648 % 32768 / 4 * 4 ∨ engBase 0 + 65536 + 2147483648 % 32768 / 4 * 4 + 4 ≤ 0)) := by
  repeat' apply And.intro
  all_goals first | decide +kernel | exact engClean_of_no_upset _ _ rfl

def wAccord2 : State := st { rg [(Reg.AECTL_STAT 0, 0x11), (Reg.AECTL_STAT 7, 0x11), (Reg.AECTL_EVT 0, 2)] with engs := [(0, { regs := { gr 0b0011 with l0 := { act := true, beg := 3, fin := 5, rem := 2, idx := 1 } }, pc := 5, cyc := 100, per := 9 })], boot := { runs := true }, sup := { regs := { gr 0b0010 with l0 := { act := true, beg := 0x80, fin := 0x100, rem := 1, idx := 1 }, l1 := { act := true, beg := 0x40, fin := 0x100, rem := 3 } }, pc := 0x100, ie := true, sys := false }, tb := { counting := true } }
def wAccord5 : State := st { rg [(Reg.AECTL_STAT 0, 0x11), (Reg.SORT_CTL, 3), (Reg.SORT_RANK 0 0, 0x80000005), (Reg.SIL_CTL 2, 225), (Reg.SIL_STAT 2, 1)] with engs := [(0, { regs := gr 0b0000, cyc := 100, pc := 7 })], tb := { counting := true }, sorts := [(0, { win := [(0, 50, 51)] }), (1, { win := [(0, 0, 60)], items := [(9, 4)] })] }
/-- Hypotheses of `Obligations.AccordSpecials`, clause by clause. -/
theorem test_witness_AccordSpecials :
  (Dev.Issues (Core.eng 0) { num := 0, neg := false : Pred } wAccord5.dev ∧ Dev.EngClean (0) (Dev.seenBy (Core.eng 0) wAccord5.dev) ∧
      (Dev.seenBy (Core.eng 0) wAccord5.dev).twin.shadowRun = false ∧
      tBase { rd := 1, rb := 2, ix := 0, low := 0#13 : TOp } ((Dev.seenBy (Core.eng 0) wAccord5.dev).eng 0).regs = some 2147483648 ∧ 0 < 2 ∧
      (Dev.seenBy (Core.eng 0) wAccord5.dev).sortWindow (0) 0 = true ∧ (Dev.seenBy (Core.eng 0) wAccord5.dev).bit Reg.SORT_CTL 0 = true ∧
      ownBits { rd := 1, rb := 2, ix := 0, low := 0#13 : TOp }.low 513 = some 0 ∧ ((Dev.seenBy (Core.eng 0) wAccord5.dev).sortU 0).pend = []) ∧
  (Dev.Issues (Core.eng 0) { num := 0, neg := false : Pred } wAccord5.dev ∧ Dev.EngClean (0) (Dev.seenBy (Core.eng 0) wAccord5.dev) ∧
      (Dev.seenBy (Core.eng 0) wAccord5.dev).twin.shadowRun = false ∧
      tBase { rd := 1, rb := 0, ix := 0, low := 256#13 : TOp } ((Dev.seenBy (Core.eng 0) wAccord5.dev).eng 0).regs = some 0 ∧ 0 < 2 ∧
      (Dev.seenBy (Core.eng 0) wAccord5.dev).sortWindow (0) 0 = true ∧ (Dev.seenBy (Core.eng 0) wAccord5.dev).bit Reg.SORT_CTL 0 = true ∧
      ownBits { rd := 1, rb := 0, ix := 0, low := 256#13 : TOp }.low 257 = some (0 + 256) ∧ ((Dev.seenBy (Core.eng 0) wAccord5.dev).sortU 0).items = []) ∧
  (Dev.Issues (Core.eng 0) { num := 0, neg := false : Pred } wAccord5.dev ∧ Dev.EngClean (0) (Dev.seenBy (Core.eng 0) wAccord5.dev) ∧
      (Dev.seenBy (Core.eng 0) wAccord5.dev).twin.shadowRun = false ∧
      tBase { rd := 1, rb := 2, ix := 0, low := 0#13 : TOp } ((Dev.seenBy (Core.eng 0) wAccord5.dev).eng 0).regs = some 2147483648 ∧ 0 < 2 ∧
      (Dev.seenBy (Core.eng 0) wAccord5.dev).sortWindow (0) 0 = true ∧ (Dev.seenBy (Core.eng 0) wAccord5.dev).bit Reg.SORT_CTL 0 = true ∧
      ownBits { rd := 1, rb := 2, ix := 0, low := 0#13 : TOp }.low 257 = some 0 ∧ ((Dev.seenBy (Core.eng 0) wAccord5.dev).sortU 0).items.length < 48 ∧
      ∀ (e : Nat × Word), e ∈ ((Dev.seenBy (Core.eng 0) wAccord5.dev).sortU 0).items → e.fst ≠ 2147483648 % 64) ∧
  (Dev.Issues (Core.eng 0) { num := 0, neg := false : Pred } wAccord0.dev ∧ Dev.EngClean (0) (Dev.seenBy (Core.eng 0) wAccord0.dev) ∧
      (Dev.seenBy (Core.eng 0) wAccord0.dev).twin.shadowRun = false ∧
      tBase { rd := 1, rb := 2, ix := 0, low := 0#13 : TOp } ((Dev.seenBy (Core.eng 0) wAccord0.dev).eng 0).regs = some 2147483648 ∧
      ownBits { rd := 1, rb := 2, ix := 0, low := 0#13 : TOp }.low 2047 = some 0) ∧
  (Dev.Issues (Core.eng 0) { num := 0, neg := false : Pred } wAccord0.dev ∧ Dev.EngClean (0) (Dev.seenBy (Core.eng 0) wAccord0.dev) ∧
      (Dev.seenBy (Core.eng 0) wAccord0.dev).twin.shadowRun = false ∧
      tBase { rd := 1, rb := 2, ix := 0, low := 0#13 : TOp } ((Dev.seenBy (Core.eng 0) wAccord0.dev).eng 0).regs = some 2147483648 ∧
      ownBits { rd := 1, rb := 2, ix := 0, low := 0#13 : TOp }.low 255 = some 0 ∧ 1 ≠ (2147483648 + 0) % 256) ∧
  (Dev.Issues (Core.eng 0) { num := 0, neg := false : Pred } wAccord5.dev ∧ Dev.EngClean (0) (Dev.seenBy (Core.eng 0) wAccord5.dev) ∧
      (Dev.seenBy (Core.eng 0) wAccord5.dev).twin.shadowRun = false ∧ { rd := 2, rs := 0, low := 7#15 : UOp }.rs = 0 ∧
      ownBits { rd := 2, rs := 0, low := 7#15 : UOp }.low 7 = some 7 ∧ (Dev.seenBy (Core.eng 0) wAccord5.dev).fld (Reg.SIL_CTL 2) 0 8 = 1 + 4 * 0 + 32 * 7 ∧
      (Dev.seenBy (Core.eng 0) wAccord5.dev).fld (Reg.SIL_CTL 2) 8 8 = 0 ∧ (Dev.seenBy (Core.eng 0) wAccord5.dev).rd (Reg.SIL_STAT 2) = 1 ∧
      (Dev.seenBy (Core.eng 0) wAccord5.dev).fld (Reg.SIL_TRIG 2) 0 3 = 0 ∧ ((Dev.seenBy (Core.eng 0) wAccord5.dev).sil 2).trigP = false ∧
      ∀ (j : Nat), j < 8 → j ≠ 2 → (Dev.seenBy (Core.eng 0) wAccord5.dev).bit (Reg.SIL_CTL j) 0 = false) ∧
  (Dev.Issues (Core.eng 0) { num := 0, neg := false : Pred } wAccord0.dev ∧ Dev.EngClean (0) (Dev.seenBy (Core.eng 0) wAccord0.dev) ∧
      (Dev.seenBy (Core.eng 0) wAccord0.dev).twin.shadowRun = false ∧
      tBase { rd := 1, rb := 2, ix := 0, low := 0#13 : TOp } ((Dev.seenBy (Core.eng 0) wAccord0.dev).eng 0).regs = some 2147483648 ∧
      ownBits { rd := 1, rb := 2, ix := 0, low := 0#13 : TOp }.low 511 = some 0 ∧
      ((Dev.seenBy (Core.eng 0) wAccord0.dev).tb.outSkip = true ∨ (Dev.seenBy (Core.eng 0) wAccord0.dev).tb.outAt.isSome = true ∧
      (Dev.seenBy (Core.eng 0) wAccord0.dev).tb.engAt = none)) ∧
  (Dev.Issues (Core.eng 0) { num := 0, neg := false : Pred } wAccord2.dev ∧ Dev.EngClean (0) (Dev.seenBy (Core.eng 0) wAccord2.dev) ∧
      (Dev.seenBy (Core.eng 0) wAccord2.dev).twin.shadowRun = false ∧
      tBase { rd := 1, rb := 2, ix := 0, low := 0#13 : TOp } ((Dev.seenBy (Core.eng 0) wAccord2.dev).eng 0).regs = some 2147483648 ∧
      ownBits { rd := 1, rb := 2, ix := 0, low := 0#13 : TOp }.low 511 = some 0 ∧
      ¬((Dev.seenBy (Core.eng 0) wAccord2.dev).tb.outSkip = true ∨ (Dev.seenBy (Core.eng 0) wAccord2.dev).tb.outAt.isSome = true ∧
      (Dev.seenBy (Core.eng 0) wAccord2.dev).tb.engAt = none)) ∧
  (Dev.Issues (Core.eng 0) { num := 0, neg := false : Pred } wAccord0.dev ∧ Dev.EngClean (0) (Dev.seenBy (Core.eng 0) wAccord0.dev) ∧
      (Dev.seenBy (Core.eng 0) wAccord0.dev).twin.shadowRun = false ∧ ownBits (0#10) 7 = some 0) ∧
  (Dev.Issues (Core.eng 0) { num := 0, neg := false : Pred } wAccord0.dev ∧ Dev.EngClean (0) (Dev.seenBy (Core.eng 0) wAccord0.dev) ∧
      (Dev.seenBy (Core.eng 0) wAccord0.dev).twin.shadowRun = false ∧ ownBits { rd := 1, rs := 2, low := 0#15 : UOp }.low 799 = some (0 + 256 * 0) ∧ 0 < 32) ∧
  (Dev.Issues (Core.eng 0) { num := 0, neg := false : Pred } wAccord0.dev ∧ Dev.EngClean (0) (Dev.seenBy (Core.eng 0) wAccord0.dev) ∧
      (Dev.seenBy (Core.eng 0) wAccord0.dev).twin.shadowRun = false ∧ ownBits { rd := 1, rs := 2, low := 0#15 : UOp }.low 15 = some 0) ∧
  (Dev.Issues (Core.eng 0) { num := 0, neg := false : Pred } wAccord0.dev ∧ Dev.EngClean (0) (Dev.seenBy (Core.eng 0) wAccord0.dev) ∧
      (Dev.seenBy (Core.eng 0) wAccord0.dev).twin.shadowRun = false ∧ ownBits { rd := 1, rs := 2, low := 0#15 : UOp }.low 3 = some 0) := by
  repeat' apply And.intro
  all_goals first | decide +kernel | exact engClean_of_no_upset _ _ rfl

def wAccord4 : State := st { rg [(Reg.AECTL_STAT 3, 0x11)] with engs := [(3, { cyc := 99999, pc := 7 })], tb := { counting := true } }
/-- Hypotheses of `Obligations.AccordControl`, clause by clause. -/
theorem test_witness_AccordControl :
  (wAccord0.dev.engGo 0 = true ∧ wAccord0.dev.bit Reg.TWIN_CTL 0 = false ∧ wAccord0.dev.role = 0 ∧ wAccord0.dev.twin.shadowRun = false ∧ (wAccord0.dev.eng 0).pend = [] ∧
      Dev.EngClean (0) wAccord0.dev ∧ (wAccord0.dev.eng 0).pc < 8192) ∧
  (wAccord4.dev.engGo 3 = true ∧ wAccord4.dev.bit Reg.TWIN_CTL 0 = false ∧ wAccord4.dev.role = 0 ∧ wAccord4.dev.twin.shadowRun = false ∧ (wAccord4.dev.eng 3).pend = [] ∧
      Dev.EngClean (3) wAccord4.dev ∧ (wAccord4.dev.eng 3).pc < 8192 ∧ wAccord4.dev.engBudget.fst < (wAccord4.dev.eng 3).cyc + 1) ∧
  (Dev.Issues Core.supv { num := 0, neg := false : Pred } wAccord0.dev ∧
      loopParams (LOp.imm 0 0#16 0#9) (Core.supv != Core.supv) (Dev.regsOf Core.supv (Dev.seenBy Core.supv wAccord0.dev)) = some (0, 65536, 512) ∧
      loopLegal (Core.supv != Core.supv) (Dev.regsOf Core.supv (Dev.seenBy Core.supv wAccord0.dev)) 0 (Dev.pcOf Core.supv (Dev.seenBy Core.supv wAccord0.dev)) (Dev.pcOf Core.supv (Dev.seenBy Core.supv wAccord0.dev) + (if Core.supv = Core.supv then 4 else 1) * 512) = true) ∧
  (Dev.Issues Core.supv { num := 0, neg := false : Pred } wAccord0.dev ∧ { num := 0, neg := false : Pred } = { num := 0, neg := false : Pred } ∧
      (Dev.seenBy Core.supv wAccord0.dev).sup.sys = true) ∧
  (Dev.Issues Core.supv { num := 0, neg := false : Pred } wAccord2.dev ∧ { num := 0, neg := false : Pred } = { num := 0, neg := false : Pred } ∧
      ¬(Dev.seenBy Core.supv wAccord2.dev).sup.sys = true) ∧
  (Dev.Issues Core.supv { num := 0, neg := false : Pred } wAccord0.dev ∧
  (match 0 with
    | 0 => decide (BitVec.toInt ((Dev.seenBy Core.supv wAccord0.dev).sup.regs.rg 0) = 0)
    | 1 => decide (BitVec.toInt ((Dev.seenBy Core.supv wAccord0.dev).sup.regs.rg 0) ≠ 0)
    | 2 => decide (BitVec.toInt ((Dev.seenBy Core.supv wAccord0.dev).sup.regs.rg 0) < 0)
    | _ => decide (0 ≤ BitVec.toInt ((Dev.seenBy Core.supv wAccord0.dev).sup.regs.rg 0))) =
    true) ∧
  (Dev.Issues Core.supv { num := 0, neg := false : Pred } wAccord0.dev ∧
  ¬(match 1 with
      | 0 => decide (BitVec.toInt ((Dev.seenBy Core.supv wAccord0.dev).sup.regs.rg 0) = 0)
      | 1 => decide (BitVec.toInt ((Dev.seenBy Core.supv wAccord0.dev).sup.regs.rg 0) ≠ 0)
      | 2 => decide (BitVec.toInt ((Dev.seenBy Core.supv wAccord0.dev).sup.regs.rg 0) < 0)
      | _ => decide (0 ≤ BitVec.toInt ((Dev.seenBy Core.supv wAccord0.dev).sup.regs.rg 0))) =
      true) ∧
  (Dev.Issues Core.supv { num := 0, neg := false : Pred } wAccord0.dev ∧ BitVec.toNat ((Dev.seenBy Core.supv wAccord0.dev).sup.regs.rg 0) % 4 = 0) ∧
  (Dev.Issues Core.supv { num := 0, neg := false : Pred } wAccord0.dev ∧ ¬BitVec.toNat ((Dev.seenBy Core.supv wAccord0.dev).sup.regs.rg 1) % 4 = 0) := by
  repeat' apply And.intro
  all_goals first | decide +kernel | exact engClean_of_no_upset _ _ rfl

def wAccord3 : State := st { rg [(Reg.AECTL_STAT 0, 0x11)] with engs := [(0, { regs := { gr 0b0011 with l0 := { act := true, beg := 3, fin := 9, rem := 2, idx := 1, sup := true } }, pc := 5, cyc := 100, per := 9 })], boot := { runs := true }, sup := { regs := { gr 0b0010 with l0 := { act := true, beg := 0x80, fin := 0x100, rem := 1, idx := 1, sup := true } }, pc := 0x100, sys := false }, tb := { counting := true } }
/-- Hypotheses of `Obligations.AccordSystem`, clause by clause. -/
theorem test_witness_AccordSystem :
  (Dev.CoreReady Core.supv wAccord3.dev ∧ (riOps (RI.r 1 2 3 0#10) (Dev.regsOf Core.supv (Dev.seenBy Core.supv wAccord3.dev)) false 1).isSome = true ∧
      (predHolds { num := 0, neg := false : Pred } (Dev.regsOf Core.supv (Dev.seenBy Core.supv wAccord3.dev)) = false ∨ (Dev.regsOf Core.supv (Dev.seenBy Core.supv wAccord3.dev)).suppressed = true)) ∧
  (decodeAccord (Core.eng 0) 4294967295#32 = none ∧ wAccord0.dev.engGo 0 = true ∧ wAccord0.dev.srcEnabled (72 + 0) = true) ∧
  (decodeAccord Core.supv 4294967295#32 = none ∧ Dev.CoreReady Core.supv wAccord0.dev) ∧
  (Dev.Issues Core.supv { num := 0, neg := false : Pred } wAccord0.dev ∧ sysrKnown (0#12).toNat = true ∧ (Dev.seenBy Core.supv wAccord0.dev).sup.sys = true) ∧
  (Dev.Issues Core.supv { num := 0, neg := false : Pred } wAccord0.dev ∧ sysrKnown (5#12).toNat = true ∧ (Dev.seenBy Core.supv wAccord0.dev).sup.sys = true ∧
      (5#12).toNat = 5) ∧
  (Dev.Issues Core.supv { num := 0, neg := false : Pred } wAccord0.dev ∧ sysrKnown (2#12).toNat = true ∧ (Dev.seenBy Core.supv wAccord0.dev).sup.sys = true ∧
      (2#12).toNat = 2) ∧
  (Dev.Issues Core.supv { num := 0, neg := false : Pred } wAccord2.dev ∧ sysrKnown (0#12).toNat = true ∧ ¬(Dev.seenBy Core.supv wAccord2.dev).sup.sys = true) ∧
  (Dev.Issues Core.supv { num := 0, neg := false : Pred } wAccord0.dev ∧ sysrKnown (0#12).toNat = true ∧
      ((Dev.seenBy Core.supv wAccord0.dev).sup.sys = true ∨ 32 ≤ (0#12).toNat ∧ (0#12).toNat < 36)) ∧
  (Dev.Issues Core.supv { num := 0, neg := false : Pred } wAccord2.dev ∧ sysrKnown (0#12).toNat = true ∧
      ¬((Dev.seenBy Core.supv wAccord2.dev).sup.sys = true ∨ 32 ≤ (0#12).toNat ∧ (0#12).toNat < 36)) ∧
  (Dev.Issues Core.supv { num := 0, neg := false : Pred } wAccord0.dev ∧ (Dev.seenBy Core.supv wAccord0.dev).sup.sys = true ∧ 1 ≤ 1 ∧ 1 < 4) ∧
  (Dev.Issues Core.supv { num := 0, neg := false : Pred } wAccord2.dev ∧ ¬(Dev.seenBy Core.supv wAccord2.dev).sup.sys = true) ∧
  (Dev.Issues Core.supv { num := 0, neg := false : Pred } wAccord0.dev ∧ (0#23).toNat < 65536) := by
  repeat' apply And.intro
  all_goals decide +kernel

def wEngineCommands0 : State := st { rg [(Reg.AECTL_SWAP_AT 0, 0xFFFF), (Reg.AECTL_TICK_AT 7, 9),(Reg.AECTL_BLEND_AT 7 7, 12),(Reg.AECTL_BLEND_AT 0 0, 0x80000000)] with tb := { counting := true, inPeriod := true, k := 9 } }
def wEngineCommands1 : State := st { rg [(Reg.AECTL_EVT 0, 0x20), (Reg.AECTL_SWAP_AT 0, 10),(Reg.AECTL_TICK_AT 0, 10),(Reg.AECTL_BLEND_AT 0 0, 12)] with tb := { counting := true, inPeriod := true, k := 9, dt := 4000 * 2 ^ 48, engStart := 4000, outAt := some 16000 }, engs := [(0, { swapAt := 9 })] }
/-- Hypotheses of `Obligations.EngineCommands`, clause by clause. -/
theorem test_witness_EngineCommands :
  (Dev.BusOpen Master.supv (Reg.AECTL_BLEND 0 0) wEngineCommands0.dev ∧ (131077#32).getLsbD 16 = false ∧ (131077#32).getLsbD 17 = true) ∧
  (Dev.BusOpen Master.supv (Reg.AECTL_BLEND 0 0) wEngineCommands0.dev ∧ (65536#32).getLsbD 16 = true ∧ (65536#32).getLsbD 17 = false ∧
      wEngineCommands0.dev.armOk (BitVec.toNat (wEngineCommands0.dev.rd (Reg.AECTL_BLEND_AT 0 0))) = true) ∧
  (Dev.BusOpen Master.supv (Reg.AECTL_BLEND 0 0) wEngineCommands0.dev ∧ (196608#32).getLsbD 16 = true ∧ ¬((196608#32).getLsbD 17 = false ∧
      wEngineCommands0.dev.armOk (BitVec.toNat (wEngineCommands0.dev.rd (Reg.AECTL_BLEND_AT 0 0))) = true)) ∧
  (Dev.BusOpen Master.supv (Reg.AECTL_BIQ_LOAD 0) wEngineCommands0.dev) ∧
  (Dev.BusOpen Master.supv (Reg.AECTL_LUT_MAP 0) wEngineCommands0.dev) ∧
  (Dev.BusOpen Master.supv (Reg.AECTL_TICK 0) wEngineCommands1.dev ∧ (256#32).getLsbD 8 = true ∧
      wEngineCommands1.dev.armOk (BitVec.toNat (wEngineCommands1.dev.rd (Reg.AECTL_TICK_AT 0))) = true) ∧
  (Dev.BusOpen Master.supv (Reg.AECTL_TICK 0) wEngineCommands0.dev ∧ (256#32).getLsbD 8 = true ∧
      ¬wEngineCommands0.dev.armOk (BitVec.toNat (wEngineCommands0.dev.rd (Reg.AECTL_TICK_AT 0))) = true) ∧
  (Dev.BusOpen Master.supv (Reg.AECTL_SWAP 0) wEngineCommands1.dev ∧ (2#32).getLsbD 0 = false ∧ (2#32).getLsbD 1 = true ∧
      wEngineCommands1.dev.bit (Reg.AECTL_EVT 0) 5 = true ∧ (wEngineCommands1.dev.eng 0).swapAt = wEngineCommands1.dev.tb.k ∧ wEngineCommands1.dev.tb.inPeriod = true ∧
      wEngineCommands1.dev.tb.engAt = none ∧ wEngineCommands1.dev.now = wEngineCommands1.dev.tb.bnd + wEngineCommands1.dev.tb.engStart) ∧
  (Dev.BusOpen Master.supv (Reg.AECTL_SWAP 0) wEngineCommands0.dev ∧ (2#32).getLsbD 0 = false ∧ (2#32).getLsbD 1 = true ∧
      ¬(wEngineCommands0.dev.bit (Reg.AECTL_EVT 0) 5 = true ∧ (wEngineCommands0.dev.eng 0).swapAt = wEngineCommands0.dev.tb.k ∧ wEngineCommands0.dev.tb.inPeriod = true ∧
      wEngineCommands0.dev.tb.engAt = none ∧ wEngineCommands0.dev.now = wEngineCommands0.dev.tb.bnd + wEngineCommands0.dev.tb.engStart)) ∧
  (Dev.BusOpen Master.supv (Reg.AECTL_SWAP 0) wEngineCommands0.dev ∧ (3#32).getLsbD 0 = true ∧ (3#32).getLsbD 1 = true) ∧
  (Dev.BusOpen Master.supv (Reg.AECTL_SWAP 0) wEngineCommands0.dev ∧ (1#32).getLsbD 0 = true ∧ ¬(1#32).getLsbD 1 = true ∧
      wEngineCommands0.dev.armOk (BitVec.toNat (wEngineCommands0.dev.rd (Reg.AECTL_SWAP_AT 0))) = true) ∧
  (Dev.BusOpen Master.supv (Reg.AECTL_SWAP 1) wEngineCommands0.dev ∧ (1#32).getLsbD 0 = true ∧ ¬(1#32).getLsbD 1 = true ∧
      ¬wEngineCommands0.dev.armOk (BitVec.toNat (wEngineCommands0.dev.rd (Reg.AECTL_SWAP_AT 1))) = true) ∧
  (Dev.BusOpen Master.supv (Reg.AECTL_CTL 0) wEngineCommands0.dev) := by
  repeat' apply And.intro
  all_goals decide +kernel

def wSortAndSillage0 : State := st { rg [(Reg.SORT_WCTL 0 1, 1), (Reg.SORT_WRNG 0 1, 0x60002), (Reg.SORT_WCTL 0 0, 1), (Reg.SORT_WRNG 0 0, 0x20000), (Reg.SIL_CTL 0, 1), (Reg.SIL_CTL 7, 3), (Reg.SIL_STAT 0, 1), (Reg.SIL_STAT 7, 0), (Reg.SIL_STAT 1, 4)] with sorts := [(0, { pend := [(4, [3, 1]), (9, [])], items := [(5, 7)] }), (1, { pend := [(0, [])] })] }
/-- Hypotheses of `Obligations.SortAndSillage`, clause by clause. -/
theorem test_witness_SortAndSillage :
  (Dev.BusOpen Master.supv (Reg.SIL_CMD 0) wSortAndSillage0.dev ∧ (4#32).getLsbD 2 = true) ∧
  (Dev.BusOpen Master.supv (Reg.SIL_CMD 0) wSortAndSillage0.dev ∧ (2#32).getLsbD 0 = false ∧ (2#32).getLsbD 1 = true ∧ (2#32).getLsbD 2 = false) ∧
  (Dev.BusOpen Master.supv (Reg.SIL_CMD 0) wSortAndSillage0.dev ∧ (1#32).getLsbD 0 = true ∧ (1#32).getLsbD 1 = false ∧ (1#32).getLsbD 2 = false ∧
      wSortAndSillage0.dev.bit (Reg.SIL_CTL 0) 0 = true) ∧
  (Dev.BusOpen Master.supv (Reg.SIL_CMD 1) wSortAndSillage0.dev ∧ (1#32).getLsbD 0 = true ∧ (1#32).getLsbD 1 = false ∧ (1#32).getLsbD 2 = false ∧
      ¬wSortAndSillage0.dev.bit (Reg.SIL_CTL 1) 0 = true) ∧
  (Dev.BusOpen Master.supv (Reg.SIL_CTL 0) wSortAndSillage0.dev ∧
      (wSortAndSillage0.dev.silState 0 = 1 ∨ wSortAndSillage0.dev.silState 0 = 2 ∨ wSortAndSillage0.dev.silStream 0 = true)) ∧
  (Dev.BusOpen Master.supv (Reg.SIL_CTL 2) wSortAndSillage0.dev ∧
      ¬(wSortAndSillage0.dev.silState 2 = 1 ∨ wSortAndSillage0.dev.silState 2 = 2 ∨ wSortAndSillage0.dev.silStream 2 = true)) ∧
  (Dev.BusOpen Master.supv (if false = true then Reg.SORT_WRNG 0 0 else Reg.SORT_WCTL 0 0) wSortAndSillage0.dev ∧ ¬((if 0 = 0 ∧
      false = false then (0#32).getLsbD 0 else wSortAndSillage0.dev.bit (Reg.SORT_WCTL 0 0) 0) = true ∧ (((if 0 = 0 ∧
      false = true then fieldOf (0#32) 16 16 else wSortAndSillage0.dev.fld (Reg.SORT_WRNG 0 0) 16 16) ≤ if 0 = 0 ∧
      false = true then fieldOf (0#32) 0 16 else wSortAndSillage0.dev.fld (Reg.SORT_WRNG 0 0) 0 16) ∨ ∃ i, i < 8 ∧ i ≠ 0 ∧ (if i = 0 ∧
      false = false then (0#32).getLsbD 0 else wSortAndSillage0.dev.bit (Reg.SORT_WCTL (0) i) 0) = true ∧ ((if 0 = 0 ∧
      false = true then fieldOf (0#32) 0 16 else wSortAndSillage0.dev.fld (Reg.SORT_WRNG 0 0) 0 16) < if i = 0 ∧
      false = true then fieldOf (0#32) 16 16 else wSortAndSillage0.dev.fld (Reg.SORT_WRNG (0) i) 16 16) ∧ (if i = 0 ∧
      false = true then fieldOf (0#32) 0 16 else wSortAndSillage0.dev.fld (Reg.SORT_WRNG (0) i) 0 16) < if 0 = 0 ∧
      false = true then fieldOf (0#32) 16 16 else wSortAndSillage0.dev.fld (Reg.SORT_WRNG 0 0) 16 16)) ∧ false = false) ∧
  (Dev.BusOpen Master.supv (if true = true then Reg.SORT_WRNG 0 0 else Reg.SORT_WCTL 0 0) wSortAndSillage0.dev ∧ ¬((if 0 = 0 ∧
      true = false then (65536#32).getLsbD 0 else wSortAndSillage0.dev.bit (Reg.SORT_WCTL 0 0) 0) = true ∧ (((if 0 = 0 ∧
      true = true then fieldOf (65536#32) 16 16 else wSortAndSillage0.dev.fld (Reg.SORT_WRNG 0 0) 16 16) ≤ if 0 = 0 ∧
      true = true then fieldOf (65536#32) 0 16 else wSortAndSillage0.dev.fld (Reg.SORT_WRNG 0 0) 0 16) ∨ ∃ i, i < 8 ∧ i ≠ 0 ∧ (if i = 0 ∧
      true = false then (65536#32).getLsbD 0 else wSortAndSillage0.dev.bit (Reg.SORT_WCTL (0) i) 0) = true ∧ ((if 0 = 0 ∧
      true = true then fieldOf (65536#32) 0 16 else wSortAndSillage0.dev.fld (Reg.SORT_WRNG 0 0) 0 16) < if i = 0 ∧
      true = true then fieldOf (65536#32) 16 16 else wSortAndSillage0.dev.fld (Reg.SORT_WRNG (0) i) 16 16) ∧ (if i = 0 ∧
      true = true then fieldOf (65536#32) 0 16 else wSortAndSillage0.dev.fld (Reg.SORT_WRNG (0) i) 0 16) < if 0 = 0 ∧
      true = true then fieldOf (65536#32) 16 16 else wSortAndSillage0.dev.fld (Reg.SORT_WRNG 0 0) 16 16)) ∧ true = true) ∧
  (Dev.BusOpen Master.supv (if true = true then Reg.SORT_WRNG 0 0 else Reg.SORT_WCTL 0 0) wSortAndSillage0.dev ∧ (if 0 = 0 ∧
      true = false then (0#32).getLsbD 0 else wSortAndSillage0.dev.bit (Reg.SORT_WCTL 0 0) 0) = true ∧ (((if 0 = 0 ∧
      true = true then fieldOf (0#32) 16 16 else wSortAndSillage0.dev.fld (Reg.SORT_WRNG 0 0) 16 16) ≤ if 0 = 0 ∧
      true = true then fieldOf (0#32) 0 16 else wSortAndSillage0.dev.fld (Reg.SORT_WRNG 0 0) 0 16) ∨ ∃ i, i < 8 ∧ i ≠ 0 ∧ (if i = 0 ∧
      true = false then (0#32).getLsbD 0 else wSortAndSillage0.dev.bit (Reg.SORT_WCTL (0) i) 0) = true ∧ ((if 0 = 0 ∧
      true = true then fieldOf (0#32) 0 16 else wSortAndSillage0.dev.fld (Reg.SORT_WRNG 0 0) 0 16) < if i = 0 ∧
      true = true then fieldOf (0#32) 16 16 else wSortAndSillage0.dev.fld (Reg.SORT_WRNG (0) i) 16 16) ∧ (if i = 0 ∧
      true = true then fieldOf (0#32) 0 16 else wSortAndSillage0.dev.fld (Reg.SORT_WRNG (0) i) 0 16) < if 0 = 0 ∧
      true = true then fieldOf (0#32) 16 16 else wSortAndSillage0.dev.fld (Reg.SORT_WRNG 0 0) 16 16)) ∧
  ((wSortAndSillage0.dev.sortU 0).pend = [(4, [3, 1]), (9, [])]) := by
  repeat' apply And.intro
  all_goals decide +kernel

def wConverterSequence0 : State := st { rg [(Reg.ADC_CTL 0, 3), (Reg.ADC_CTL 1, 3)] with adcs := [(0, { going := true, dlyTo := 1000, act := [(0, 0x119)] }), (1, { inj := [(1, 2, 0)] })], tb := { tbF with inPeriod := true, bnd := 0 } }
def wConverterSequence2 : State := st (rg [(Reg.ADC_SEQ 0 0, 0x1F), (Reg.ADC_SEQ_CTL 0, 3), (Reg.ADC_CTL 0, 1), (Reg.ADC_CTL 1, 3), (Reg.ADC_PLAUS 0, 0x80), (Reg.FC_EN 2, 0xFFFFFFFF)])
def wConverterSequence3 : State := st { rg [(Reg.ADC_CTL 0, 3), (Reg.ADC_SEQ_CTL 0, 1), (Reg.ADC_CNT_CUT 0, 0xFFFFFFFF), (Reg.ADC_CTL 1, 3), (Reg.ADC_SEQ 1 31, 0x21),(Reg.FC_EN 3, 0xFFFFFFFF)] with fm := true, adcs := [(0, { going := true, inj := [(1, 5, 0)], commitP := true }), (1, { going := true, e := 5, last := 5 })] }
def wConverterSequence7 : State := st { dv with adcs := [(0, { inj := [(5, 1, 0), (3, 2, 0)] })] }
def wConverterSequence8 : State := st { rg [(Reg.ADC_CTL 0, 1), (Reg.ADC_CTL 1, 3)] with adcs := [(0, { going := true, e := 5, last := 5, act := [(5, 0x119)] }), (1, { going := true, e := 31, last := 31, act := [(31, 0x119)] })] }
/-- Hypotheses of `Obligations.ConverterSequence`, clause by clause. -/
theorem test_witness_ConverterSequence :
  (wConverterSequence2.dev.domainOn 6 = true ∧ wConverterSequence2.dev.bit (Reg.ADC_PLAUS 0) 7 = true ∧ wConverterSequence2.dev.bit (Reg.ADC_CTL 0) 0 = true ∧
      wConverterSequence2.dev.bit (Reg.ADC_CTL 1) 0 = true ∧ wConverterSequence2.dev.fc.level.getLsbD 82 = false ∧
      Dev.DueOrStill ((wConverterSequence2.dev.adc 0).plausAt + 1000000) wConverterSequence2.dev ∧ wConverterSequence2.dev.srcEnabled 82 = true) ∧
  (wConverterSequence0.dev.ConvRuns ∧ Dev.DueOrStill (0 + 240) wConverterSequence0.dev ∧ (wConverterSequence0.dev.adc 0).inj = [] ∧
      0 < (wConverterSequence0.dev.adc 0).dlyTo) ∧
  (wConverterSequence8.dev.ConvRuns ∧ Dev.DueOrStill (0 + 240) wConverterSequence8.dev ∧
      (∀ (r : Nat × Nat × Nat), r ∈ (wConverterSequence8.dev.adc 0).inj.head? → (wConverterSequence8.dev.adc 0).injSlot r.snd.snd 0 = false) ∧
      wConverterSequence8.dev.bit (Reg.ADC_CTL 0) 0 = true ∧ (wConverterSequence8.dev.adc 0).going = true ∧ (wConverterSequence8.dev.adc 0).dlyTo ≤ 0 ∧
      ((wConverterSequence8.dev.adc 0).cal = 2 → 0 < (wConverterSequence8.dev.adc 0).calAt) ∧ (wConverterSequence8.dev.adc 0).commitP = false ∧
      (wConverterSequence8.dev.adc 0).e = 5 ∧ 5 < 32 ∧ wConverterSequence8.dev.actEntry (0) 5 = 281#32 ∧ fieldOf (281#32) 5 2 = 0 ∧ repOf 281#32 = 1 ∧
      wConverterSequence8.dev.isMetCh (0) (fieldOf (281#32) 0 5) = false) ∧
  (wConverterSequence7.dev.ConvRuns ∧ Dev.DueOrStill (31 + 240) wConverterSequence7.dev ∧ (wConverterSequence7.dev.adc 0).inj = [(5, 1, 0), (3, 2, 0)] ∧ 1 < 4 ∧
      (wConverterSequence7.dev.adc 0).injSlot 0 31 = true) ∧
  (wConverterSequence0.dev.domainOn 6 = true ∧ wConverterSequence0.dev.bit (Reg.ADC_CTL 0) 0 = true ∧ wConverterSequence0.dev.bit (Reg.ADC_CTL 0) 1 = true ∧
      wConverterSequence0.dev.tb.inPeriod = true ∧ (wConverterSequence0.dev.adc 0).rstOf ≠ some wConverterSequence0.dev.tb.bnd ∧
      wConverterSequence0.dev.restartAt 0 ≤ wConverterSequence0.dev.nextSeq ∧ (wConverterSequence0.dev.adc 0).inj = [] ∧ (wConverterSequence0.dev.adc 0).cal ≠ 2) ∧
  (wConverterSequence0.dev.domainOn 6 = true ∧ wConverterSequence0.dev.bit (Reg.ADC_CTL 1) 0 = true ∧ wConverterSequence0.dev.bit (Reg.ADC_CTL 1) 1 = true ∧
      wConverterSequence0.dev.tb.inPeriod = true ∧ (wConverterSequence0.dev.adc 1).rstOf ≠ some wConverterSequence0.dev.tb.bnd ∧
      wConverterSequence0.dev.restartAt 1 ≤ wConverterSequence0.dev.nextSeq ∧ ¬((wConverterSequence0.dev.adc 1).inj = [] ∧ (wConverterSequence0.dev.adc 1).cal ≠ 2)) ∧
  (Dev.BusOpen Master.supv (Reg.ADC_MET_MASK 0) wConverterSequence0.dev ∧ ¬wConverterSequence0.dev.fm = true) ∧
  (Dev.BusOpen Master.supv (Reg.ADC_MET_MASK 0) wConverterSequence3.dev ∧ wConverterSequence3.dev.fm = true ∧ wConverterSequence3.dev.domainOn 7 = true) ∧
  (Dev.BusOpen Master.supv (Reg.ADC_MET_MASK 0) wConverterSequence3.dev ∧ wConverterSequence3.dev.fm = true ∧ wConverterSequence3.dev.srcEnabled 96 = true) ∧
  (Dev.BusOpen Master.supv (Reg.ADC_CTL 0) wConverterSequence3.dev ∧ wConverterSequence3.dev.fm = true ∧ (33554431#32).getLsbD 2 = true) ∧
  (Dev.BusOpen Master.supv (Reg.ADC_CTL 0) wConverterSequence0.dev ∧ ¬(wConverterSequence0.dev.fm = true ∧ (33554431#32).getLsbD 2 = true) ∧
      (33554431#32).getLsbD 0 = true ∧ (33554431#32).getLsbD 1 = true) ∧
  (Dev.BusOpen Master.supv (Reg.ADC_CTL 0) wConverterSequence0.dev ∧ ¬(wConverterSequence0.dev.fm = true ∧ (281#32).getLsbD 2 = true) ∧ (281#32).getLsbD 0 = true ∧
      (281#32).getLsbD 1 = false) ∧
  (Dev.BusOpen Master.supv (Reg.ADC_CTL 0) wConverterSequence0.dev ∧ ¬(wConverterSequence0.dev.fm = true ∧ (0#32).getLsbD 2 = true) ∧ (0#32).getLsbD 0 = false) ∧
  (Dev.BusOpen Master.supv (Reg.ADC_SEQ_CTL 0) wConverterSequence2.dev ∧ (256#32).getLsbD 8 = true ∧ wConverterSequence2.dev.tableBad 0 = true) ∧
  (Dev.BusOpen Master.supv (Reg.ADC_SEQ_CTL 0) wConverterSequence0.dev ∧ (256#32).getLsbD 8 = true ∧ ¬wConverterSequence0.dev.tableBad 0 = true) := by
  repeat' apply And.intro
  all_goals first | decide +kernel | (unfold Dev.DueOrStill; decide +kernel)

def wConverterService0 : State := st { rg [(Reg.ADC_CTL 0, 8), (Reg.ADC_INJ_TRIG 0, 0x20331), (Reg.ADC_INJ_TRIG 1, 0x11A31), (Reg.ATM_CTL, 1), (Reg.ATM_CL_CPER 0, 40000), (Reg.ATM_CL_CPER 6, 40000)] with adcs := [(0, { bgAt := [(0, 7)] }), (1, { inj := [(1, 1, 0)] })], atm := { running := true }, tb := tbF }
def wConverterService1 : State := st { rg [(Reg.ADC_INJ_TRIG 0, 0x20331), (Reg.ADC_INJ_TRIG 1, 0x20331), (Reg.ATM_CTL, 1), (Reg.ATM_CL_CPER 0, 40000)] with adcs := [(0, { cal := 2, startAt := 0 }), (1, { inj := [(1, 1, 0), (1, 1, 0), (1, 1, 0), (1, 1, 0)] })], atm := { running := true }, tb := tbF }
def wConverterService2 : State := st { rg [(Reg.ADC_CTL 0, 9), (Reg.ADC_CTL 1, 8), (Reg.ADC_INJ_TRIG 0, 0x20331), (Reg.ADC_INJ_TRIG 1, 0x11931), (Reg.ADC_CNT_INJREF 0, 0xFFFFFFFF), (Reg.FC_EN 2, 0xFFFFFFFF)] with adcs := [(0, { cal := 2, accs := [(0, { cnt := 3, sum := -5, mn := -9, mx := 4 }), (31, { cnt := 0 })] }), (1, { inj := [(1, 1, 0), (1, 1, 0), (1, 1, 0), (1, 1, 0)] })] }
def wConverterService3 : State := st { rg [(Reg.ADC_MET_MASK 0, 0xFFFFFF), (Reg.ADC_INJ_TRIG 0, 0x20531), (Reg.ADC_INJ_TRIG 1, 0x21A31)] with fm := true }
/-- Hypotheses of `Obligations.ConverterService`, clause by clause. -/
theorem test_witness_ConverterService :
  (wConverterService1.dev.ConvRuns ∧ (wConverterService1.dev.adc 0).cal = 2 ∧
      ∀ (r : Nat × Nat × Nat), r ∈ (wConverterService1.dev.adc 0).inj → wConverterService1.dev.now < r.snd.snd + 3210) ∧
  (wConverterService1.dev.ConvRuns ∧ (wConverterService1.dev.adc 0).cal = 2 ∧
      (∀ (r : Nat × Nat × Nat), r ∈ (wConverterService1.dev.adc 0).inj → wConverterService1.dev.now < r.snd.snd + 3210) ∧
      ¬∀ (i : Nat), i < 3 → ∀ (k : Nat), k < 4 → sliceLo i ≤ (List.drop k (if i = 0 then [] else if i = 1 then [] else [300, 0, 0, 0])).headD 0 ∧
      (List.drop k (if i = 0 then [] else if i = 1 then [] else [300, 0, 0, 0])).headD 0 ≤ sliceHi i) ∧
  (wConverterService1.dev.ConvRuns ∧ (wConverterService1.dev.adc 0).cal = 2 ∧
      (∀ (r : Nat × Nat × Nat), r ∈ (wConverterService1.dev.adc 0).inj → wConverterService1.dev.now < r.snd.snd + 3210) ∧
      (¬∀ (i : Nat), i < 3 → ∀ (k : Nat), k < 4 → sliceLo i ≤ (List.drop k (if i = 0 then [] else if i = 1 then [] else [300, 0, 0, 0])).headD 0 ∧
      (List.drop k (if i = 0 then [] else if i = 1 then [] else [300, 0, 0, 0])).headD 0 ≤ sliceHi i) ∧ wConverterService1.dev.srcEnabled 83 = true) ∧
  (wConverterService1.dev.ConvRuns ∧ (wConverterService1.dev.adc 0).cal = 2 ∧
      (∀ (r : Nat × Nat × Nat), r ∈ (wConverterService1.dev.adc 0).inj → wConverterService1.dev.now < r.snd.snd + 3210) ∧
      ∀ (i : Nat), i < 3 → ∀ (k : Nat), k < 4 → sliceLo i ≤ (List.drop k (if i = 0 then [] else if i = 1 then [] else [])).headD 0 ∧
      (List.drop k (if i = 0 then [] else if i = 1 then [] else [])).headD 0 ≤ sliceHi i) ∧
  (Dev.BusOpen Master.supv (Reg.ADC_CAL 0) wConverterService1.dev ∧ (1#32).getLsbD 0 = true ∧ (wConverterService1.dev.adc 0).cal ≠ 0) ∧
  (Dev.BusOpen Master.supv (Reg.ADC_CAL 0) wConverterService0.dev ∧ (1#32).getLsbD 0 = true ∧ ¬(wConverterService0.dev.adc 0).cal ≠ 0 ∧
      (wConverterService0.dev.adc 0).inj = []) ∧
  (wConverterService0.dev.domainOn 6 = true ∧ wConverterService0.dev.bit (Reg.ADC_CTL 0) 3 = true ∧ (false = false ∨ wConverterService0.dev.noFreeSlot 0 = true)) ∧
  (wConverterService0.dev.domainOn 6 = true ∧ wConverterService0.dev.bit (Reg.ADC_CTL 0) 3 = true ∧ ¬(true = false ∨ wConverterService0.dev.noFreeSlot 0 = true) ∧
      (wConverterService0.dev.adc 0).bgAt.getD 0 0 ≠ 0 ∧ wConverterService0.dev.now + 1 < (wConverterService0.dev.adc 0).bgAt.getD 0 0 + 52428800) ∧
  (wConverterService1.dev.domainOn 6 = true ∧ wConverterService1.dev.bit (Reg.ADC_CTL 0) 3 = true ∧ ¬(true = false ∨ wConverterService1.dev.noFreeSlot 0 = true) ∧
      ¬((wConverterService1.dev.adc 0).bgAt.getD 0 0 ≠ 0 ∧ wConverterService1.dev.now + 1 < (wConverterService1.dev.adc 0).bgAt.getD 0 0 + 52428800)) ∧
  (wConverterService0.dev.carrierPoint (wConverterService0.dev.fld (Reg.ADC_INJ_TRIG 1) 1 3) true (max wConverterService0.dev.now (wConverterService0.dev.adc 1).trigAt) = some 20000 ∧
      wConverterService0.dev.domainOn 6 = true ∧ wConverterService0.dev.domainOn 4 = true ∧ wConverterService0.dev.bit (Reg.ADC_INJ_TRIG 1) 0 = true ∧
      wConverterService0.dev.bit (Reg.ADC_INJ_TRIG 1) (if true = true then 5 else 4) = true ∧ Dev.Due 20000 wConverterService0.dev ∧
      (26 ≤ wConverterService0.dev.fld (Reg.ADC_INJ_TRIG 1) 8 5 ∨ wConverterService0.dev.fm = true ∧
      wConverterService0.dev.isMetCh (1) (wConverterService0.dev.fld (Reg.ADC_INJ_TRIG 1) 8 5) = true)) ∧
  (wConverterService1.dev.carrierPoint (wConverterService1.dev.fld (Reg.ADC_INJ_TRIG 1) 1 3) true (max wConverterService1.dev.now (wConverterService1.dev.adc 1).trigAt) = some 20000 ∧
      wConverterService1.dev.domainOn 6 = true ∧ wConverterService1.dev.domainOn 4 = true ∧ wConverterService1.dev.bit (Reg.ADC_INJ_TRIG 1) 0 = true ∧
      wConverterService1.dev.bit (Reg.ADC_INJ_TRIG 1) (if true = true then 5 else 4) = true ∧ Dev.Due 20000 wConverterService1.dev ∧
      ¬(26 ≤ wConverterService1.dev.fld (Reg.ADC_INJ_TRIG 1) 8 5 ∨ wConverterService1.dev.fm = true ∧
      wConverterService1.dev.isMetCh (1) (wConverterService1.dev.fld (Reg.ADC_INJ_TRIG 1) 8 5) = true) ∧
      4 ≤ { act := (wConverterService1.dev.adc 1).act, last := (wConverterService1.dev.adc 1).last, rstOfs := (wConverterService1.dev.adc 1).rstOfs, commitP := (wConverterService1.dev.adc 1).commitP, going := (wConverterService1.dev.adc 1).going, e := (wConverterService1.dev.adc 1).e, rep := (wConverterService1.dev.adc 1).rep, sum := (wConverterService1.dev.adc 1).sum, stamps := (wConverterService1.dev.adc 1).stamps, commitAt := (wConverterService1.dev.adc 1).commitAt, nextT := (wConverterService1.dev.adc 1).nextT, nextLast := (wConverterService1.dev.adc 1).nextLast, nextOfs := (wConverterService1.dev.adc 1).nextOfs, dlyTo := (wConverterService1.dev.adc 1).dlyTo, rstOf := (wConverterService1.dev.adc 1).rstOf, lastS := (wConverterService1.dev.adc 1).lastS, runFrom := (wConverterService1.dev.adc 1).runFrom, bgAt := (wConverterService1.dev.adc 1).bgAt, trigAt := 20000 + 1, inj := (wConverterService1.dev.adc 1).inj, cal := (wConverterService1.dev.adc 1).cal, calWait := (wConverterService1.dev.adc 1).calWait, startAt := (wConverterService1.dev.adc 1).startAt, calAt := (wConverterService1.dev.adc 1).calAt, chunks := (wConverterService1.dev.adc 1).chunks, dlyLeft := (wConverterService1.dev.adc 1).dlyLeft, rstP := (wConverterService1.dev.adc 1).rstP, accs := (wConverterService1.dev.adc 1).accs, plaus := (wConverterService1.dev.adc 1).plaus, plausAt := (wConverterService1.dev.adc 1).plausAt, snap := (wConverterService1.dev.adc 1).snap : Adc }.inj.length) ∧
  (wConverterService0.dev.carrierPoint (wConverterService0.dev.fld (Reg.ADC_INJ_TRIG 0) 1 3) true (max wConverterService0.dev.now (wConverterService0.dev.adc 0).trigAt) = some 20000 ∧
      wConverterService0.dev.domainOn 6 = true ∧ wConverterService0.dev.domainOn 4 = true ∧ wConverterService0.dev.bit (Reg.ADC_INJ_TRIG 0) 0 = true ∧
      wConverterService0.dev.bit (Reg.ADC_INJ_TRIG 0) (if true = true then 5 else 4) = true ∧ Dev.Due 20000 wConverterService0.dev ∧
      ¬(26 ≤ wConverterService0.dev.fld (Reg.ADC_INJ_TRIG 0) 8 5 ∨ wConverterService0.dev.fm = true ∧
      wConverterService0.dev.isMetCh (0) (wConverterService0.dev.fld (Reg.ADC_INJ_TRIG 0) 8 5) = true) ∧
      ¬4 ≤ { act := (wConverterService0.dev.adc 0).act, last := (wConverterService0.dev.adc 0).last, rstOfs := (wConverterService0.dev.adc 0).rstOfs, commitP := (wConverterService0.dev.adc 0).commitP, going := (wConverterService0.dev.adc 0).going, e := (wConverterService0.dev.adc 0).e, rep := (wConverterService0.dev.adc 0).rep, sum := (wConverterService0.dev.adc 0).sum, stamps := (wConverterService0.dev.adc 0).stamps, commitAt := (wConverterService0.dev.adc 0).commitAt, nextT := (wConverterService0.dev.adc 0).nextT, nextLast := (wConverterService0.dev.adc 0).nextLast, nextOfs := (wConverterService0.dev.adc 0).nextOfs, dlyTo := (wConverterService0.dev.adc 0).dlyTo, rstOf := (wConverterService0.dev.adc 0).rstOf, lastS := (wConverterService0.dev.adc 0).lastS, runFrom := (wConverterService0.dev.adc 0).runFrom, bgAt := (wConverterService0.dev.adc 0).bgAt, trigAt := 20000 + 1, inj := (wConverterService0.dev.adc 0).inj, cal := (wConverterService0.dev.adc 0).cal, calWait := (wConverterService0.dev.adc 0).calWait, startAt := (wConverterService0.dev.adc 0).startAt, calAt := (wConverterService0.dev.adc 0).calAt, chunks := (wConverterService0.dev.adc 0).chunks, dlyLeft := (wConverterService0.dev.adc 0).dlyLeft, rstP := (wConverterService0.dev.adc 0).rstP, accs := (wConverterService0.dev.adc 0).accs, plaus := (wConverterService0.dev.adc 0).plaus, plausAt := (wConverterService0.dev.adc 0).plausAt, snap := (wConverterService0.dev.adc 0).snap : Adc }.inj.length) ∧
  (Dev.BusOpen Master.supv (Reg.ADC_INJ 0) wConverterService3.dev ∧ (26 ≤ fieldOf (0#32) 0 5 ∨ wConverterService3.dev.fm = true ∧
      wConverterService3.dev.isMetCh (0) (fieldOf (0#32) 0 5) = true)) ∧
  (Dev.BusOpen Master.supv (Reg.ADC_INJ 1) wConverterService1.dev ∧ ¬(26 ≤ fieldOf (0#32) 0 5 ∨ wConverterService1.dev.fm = true ∧
      wConverterService1.dev.isMetCh (1) (fieldOf (0#32) 0 5) = true) ∧ 4 ≤ (wConverterService1.dev.adc 1).inj.length) ∧
  (Dev.BusOpen Master.supv (Reg.ADC_INJ 0) wConverterService0.dev ∧ ¬(26 ≤ fieldOf (0#32) 0 5 ∨ wConverterService0.dev.fm = true ∧
      wConverterService0.dev.isMetCh (0) (fieldOf (0#32) 0 5) = true) ∧ ¬4 ≤ (wConverterService0.dev.adc 0).inj.length) ∧
  (Dev.BusOpen Master.supv (Reg.ADC_ACC_LATCH 0) wConverterService0.dev ∧ (1#32).getLsbD 0 = true) ∧
  (Dev.BusOpen Master.supv (Reg.ADC_ACC_LATCH 0) wConverterService2.dev ∧ (1#32).getLsbD 0 = true ∧ 0 < 32 ∧
      ((wConverterService2.dev.adc 0).accs.getD { : AdcAcc } 0).cnt ≠ 0) := by
  repeat' apply And.intro
  all_goals decide +kernel

def wComparatorsAndTemperature0 : State := st { rg [(Reg.CMP_CFG 0, 0x200), (Reg.CMP_CFG 7, 0x300), (Reg.CMP_CTL, 0x1FFFF), (Reg.FC_EN 1, 0xFFFFFFFF), (Reg.FC_EN 2, 0xFFFFFFFF), (Reg.FC_EN 3, 0xFFFFFFFF), (Reg.TMON_CTL, 1), (Reg.CMP_CNT 0, 0xFFFFFFFF)] with tmon := { broken := 1, hot := 1, prev := some (0, 3), cnt := 2, sum := 100 } }
def wComparatorsAndTemperature1 : State := st (rg [(Reg.CMP_CTL, 0x1FFFF), (Reg.CMP_STAT, 0x810100), (Reg.FC_EN 3, 0xFFFFFFFF)])
def wComparatorsAndTemperature2 : State := st { rg [(Reg.FC_EN 3, 0xFFFFFFFF),(Reg.CMP_STAT, 0x81000000)] with cmp := { maskS := 0x81 } }
def wComparatorsAndTemperature3 : State := st { rg [(Reg.CMP_CTL, 0xFF), (Reg.CMP_STAT, 0x101),(Reg.TMON_STAT, 4),(Reg.TMON_LIM, 0x08200500), (Reg.TMON_RISE, 0x7FFF)] with cmp := { thP := 1, maskS := 1, maskM := 0x80 }, tmon := { hot := 1, prev := some (5, 1), cnt := 1, sum := -3 } }
/-- Hypotheses of `Obligations.ComparatorsAndTemperature`, clause by clause. -/
theorem test_witness_ComparatorsAndTemperature :
  (Dev.BusOpen Master.supv Reg.TMON_LIM wComparatorsAndTemperature0.dev ∧ -640 ≤ (BitVec.extractLsb' (16 * 0) 16 0#32).toInt ∧
      (BitVec.extractLsb' (16 * 0) 16 0#32).toInt ≤ 2080 ∧ -640 ≤ (BitVec.extractLsb' (16 * 1) 16 0#32).toInt ∧ (BitVec.extractLsb' (16 * 1) 16 0#32).toInt ≤ 2080) ∧
  (Dev.BusOpen Master.supv Reg.TMON_LIM wComparatorsAndTemperature0.dev ∧ ¬(-640 ≤ (BitVec.extractLsb' (16 * 0) 16 136382496#32).toInt ∧
      (BitVec.extractLsb' (16 * 0) 16 136382496#32).toInt ≤ 2080 ∧ -640 ≤ (BitVec.extractLsb' (16 * 1) 16 136382496#32).toInt ∧
      (BitVec.extractLsb' (16 * 1) 16 136382496#32).toInt ≤ 2080)) ∧
  (wComparatorsAndTemperature0.dev.pwr.safeOn = true ∧ wComparatorsAndTemperature0.dev.tmon.prev = some (0, 3) ∧ wComparatorsAndTemperature0.dev.tmon.cnt ≠ 0 ∧
      ↑(wComparatorsAndTemperature0.dev.fld Reg.TMON_RISE 0 16) < clampI (-32768) 32767 (rnd (10 * (wComparatorsAndTemperature0.dev.tmon.sum * 3 - 0 * ↑wComparatorsAndTemperature0.dev.tmon.cnt)) (↑wComparatorsAndTemperature0.dev.tmon.cnt * 3)) ∧
      wComparatorsAndTemperature0.dev.bit Reg.TMON_CTL 0 = true ∧ wComparatorsAndTemperature0.dev.srcEnabled 85 = true) ∧
  (wComparatorsAndTemperature0.dev.pwr.safeOn = true ∧ wComparatorsAndTemperature0.dev.bit Reg.TMON_STAT 1 = false ∧ wComparatorsAndTemperature0.dev.tmon.broken = 1 ∧
      wComparatorsAndTemperature0.dev.srcEnabled 86 = true) ∧
  (wComparatorsAndTemperature0.dev.pwr.safeOn = true ∧ wComparatorsAndTemperature0.dev.bit Reg.TMON_STAT 1 = false ∧ 0 < wComparatorsAndTemperature0.dev.tmonHigh - 32) ∧
  (wComparatorsAndTemperature0.dev.pwr.safeOn = true ∧ wComparatorsAndTemperature0.dev.bit Reg.TMON_STAT 1 = false ∧ wComparatorsAndTemperature0.dev.tmonHigh ≤ 2080 ∧
      1 ≤ wComparatorsAndTemperature0.dev.tmon.hot ∧ wComparatorsAndTemperature0.dev.bit Reg.TMON_STAT 2 = false ∧ wComparatorsAndTemperature0.dev.srcEnabled 84 = true) ∧
  (wComparatorsAndTemperature2.dev.cmpTesting 0 = true ∧ (true && false) = false ∧ wComparatorsAndTemperature2.dev.srcEnabled 97 = true) ∧
  (Dev.BusOpen Master.supv Reg.CMP_TEST wComparatorsAndTemperature2.dev ∧ 0 < 8 ∧ (1#32).getLsbD 0 = true ∧
      (wComparatorsAndTemperature2.dev.cmpTesting 0 = true ∨ wComparatorsAndTemperature2.dev.cmp.thP.getLsbD 0 = true)) ∧
  (Dev.BusOpen Master.supv Reg.CMP_TEST wComparatorsAndTemperature0.dev ∧ 0 < 8 ∧ (1#32).getLsbD 0 = true ∧
      ¬(wComparatorsAndTemperature0.dev.cmpTesting 0 = true ∨ wComparatorsAndTemperature0.dev.cmp.thP.getLsbD 0 = true)) ∧
  (wComparatorsAndTemperature1.dev.pwr.safeOn = true ∧ wComparatorsAndTemperature1.dev.cmp.maskM.getLsbD 7 = false ∧
      wComparatorsAndTemperature1.dev.cmp.maskS.getLsbD 7 = false ∧
      wComparatorsAndTemperature1.dev.bit Reg.CMP_STAT (8 + 7) ≠ wComparatorsAndTemperature1.dev.bit Reg.CMP_STAT (16 + 7) ∧
      wComparatorsAndTemperature1.dev.bit Reg.CMP_CTL 16 = true ∧ wComparatorsAndTemperature1.dev.srcEnabled 97 = true) ∧
  (wComparatorsAndTemperature0.dev.cmpTesting 0 = false) ∧
  (wComparatorsAndTemperature3.dev.cmp.thP.getLsbD 0 = true) ∧
  (Dev.BusOpen Master.supv (Reg.CMP_TH 0) wComparatorsAndTemperature0.dev ∧
      (wComparatorsAndTemperature0.dev.cmp.thP.getLsbD 0 = true ∨ wComparatorsAndTemperature0.dev.cmpTesting 0 = true ∨ fieldOf (0#32) 16 10 ≤ fieldOf (0#32) 0 10)) ∧
  (Dev.BusOpen Master.supv (Reg.CMP_TH 0) wComparatorsAndTemperature0.dev ∧
      ¬(wComparatorsAndTemperature0.dev.cmp.thP.getLsbD 0 = true ∨ wComparatorsAndTemperature0.dev.cmpTesting 0 = true ∨ fieldOf (67043328#32) 16 10 ≤ fieldOf (67043328#32) 0 10)) ∧
  (wComparatorsAndTemperature0.dev.pwr.safeOn = true ∧ 0 < wComparatorsAndTemperature0.dev.fld (Reg.CMP_CFG 0) 8 8) ∧
  (wComparatorsAndTemperature1.dev.pwr.safeOn = true ∧ wComparatorsAndTemperature1.dev.fld (Reg.CMP_CFG 0) 8 8 ≤ 0 ∧
      wComparatorsAndTemperature1.dev.cmpBeyond (0) Half.main 0 (-wComparatorsAndTemperature1.dev.cmpHyst 0) = false) ∧
  (wComparatorsAndTemperature3.dev.pwr.safeOn = true ∧ wComparatorsAndTemperature3.dev.fld (Reg.CMP_CFG 0) 8 8 ≤ 0 ∧
      wComparatorsAndTemperature3.dev.cmpBeyond (0) Half.main 3000000 0 = true ∧
      (wComparatorsAndTemperature3.dev.bit Reg.CMP_CTL 0 && ((if Half.main = Half.main then true else wComparatorsAndTemperature3.dev.bit Reg.CMP_STAT (8 + 0)) && !wComparatorsAndTemperature3.dev.cmp.maskM.getLsbD 0 || (if Half.main = Half.shadow then true else wComparatorsAndTemperature3.dev.bit Reg.CMP_STAT (16 + 0)) && !wComparatorsAndTemperature3.dev.cmp.maskS.getLsbD 0)) = wComparatorsAndTemperature3.dev.bit Reg.CMP_STAT 0) ∧
  (wComparatorsAndTemperature1.dev.pwr.safeOn = true ∧ wComparatorsAndTemperature1.dev.fld (Reg.CMP_CFG 0) 8 8 ≤ 0 ∧
      wComparatorsAndTemperature1.dev.cmpBeyond (0) Half.main 3000000 0 = true ∧
      (wComparatorsAndTemperature1.dev.bit Reg.CMP_CTL 0 && ((if Half.main = Half.main then true else wComparatorsAndTemperature1.dev.bit Reg.CMP_STAT (8 + 0)) && !wComparatorsAndTemperature1.dev.cmp.maskM.getLsbD 0 || (if Half.main = Half.shadow then true else wComparatorsAndTemperature1.dev.bit Reg.CMP_STAT (16 + 0)) && !wComparatorsAndTemperature1.dev.cmp.maskS.getLsbD 0)) = true ∧
      wComparatorsAndTemperature1.dev.bit Reg.CMP_STAT 0 = false ∧ wComparatorsAndTemperature1.dev.bit Reg.CMP_CTL (8 + 0) = true ∧
      wComparatorsAndTemperature1.dev.srcEnabled (40 + 0) = true) := by
  repeat' apply And.intro
  all_goals decide +kernel

def wMeteringCycles0 : State := st { rg [(Reg.MET_CTL, 1), (Reg.MET_STAT, 5), (Reg.MET_CH 0, 0x40)] with met := { on := true, bin := 7, raw := [(0, 7, 5)], lastT := 5, crossT := 85000000, ampOk := true, okFrom := some 3, e := [(0, 9)] } }
def wMeteringCycles1 : State := st { rg [(Reg.MET_CTL, 1), (Reg.MET_STAT, 1), (Reg.MET_CH 0, 0x40), (Reg.MET_CH 16, 0x41), (Reg.MET_CH 6, 0x42), (Reg.SYS_READY, 0x200), (Reg.MET_LATCH_AT_LO, 5000)] with met := { on := true, bin := 7, raw := [(0, 7, 3 * 2 ^ 28), (16, 7, 5), (0, 9, 1)], vi := [(0, 2 ^ 130)], n := 3, sq := [(0, 2 ^ 110)], e := [(0, 5)], irstP := true, hq := [(0, 2 ^ 100)], hn := 2 }, amb := { powered := true } }
def wMeteringCycles2 : State := st { rg [(Reg.MET_CTL, 1), (Reg.MET_STAT, 5), (Reg.MET_CH 0, 0x40)] with met := { on := true, raw := [(0, 7, 5)] , hseq := 2 ^ 32 - 1, armed := true }, amb := { powered := true } }
/-- Hypotheses of `Obligations.MeteringCycles`, clause by clause. -/
theorem test_witness_MeteringCycles :
  (wMeteringCycles0.dev.busCode Master.supv (Reg.MET_I 0) AccSize.b32 false = none ∧ wMeteringCycles0.dev.shadow.getD 0 (shadowKey Master.supv (Reg.MET_I 0)) = 0) ∧
  (Dev.BusOpen Master.supv Reg.MET_CMD wMeteringCycles0.dev ∧ (8#32).getLsbD 3 = true) ∧
  (Dev.BusOpen Master.supv Reg.MET_CMD wMeteringCycles0.dev ∧ (4#32).getLsbD 2 = true) ∧
  (Dev.BusOpen Master.supv Reg.MET_CMD wMeteringCycles1.dev ∧ (2#32).getLsbD 1 = true ∧ (2#32).getLsbD 2 = false ∧ wMeteringCycles1.dev.bit Reg.SYS_READY 9 = true ∧
      wMeteringCycles1.dev.now < wMeteringCycles1.dev.pair Reg.MET_LATCH_AT_LO Reg.MET_LATCH_AT_HI) ∧
  (Dev.BusOpen Master.supv Reg.MET_CMD wMeteringCycles0.dev ∧ (2#32).getLsbD 1 = true ∧ (2#32).getLsbD 2 = false ∧ ¬(wMeteringCycles0.dev.bit Reg.SYS_READY 9 = true ∧
      wMeteringCycles0.dev.now < wMeteringCycles0.dev.pair Reg.MET_LATCH_AT_LO Reg.MET_LATCH_AT_HI)) ∧
  (Dev.BusOpen Master.supv Reg.MET_CMD wMeteringCycles0.dev ∧ (1#32).getLsbD 0 = true) ∧
  (wMeteringCycles0.dev.metRun = true ∧ wMeteringCycles0.dev.amb.powered = true) ∧
  (wMeteringCycles1.dev.metRun = true ∧ wMeteringCycles1.dev.bit Reg.MET_STAT 2 = false) ∧
  (wMeteringCycles0.dev.metRun = true ∧ wMeteringCycles0.dev.bit Reg.MET_STAT 2 = true ∧ ¬(0 - wMeteringCycles0.dev.met.lastT ≠ 0 ∧
      (0 - wMeteringCycles0.dev.met.lastT) % wMeteringCycles0.dev.nomT = 0) ∧ ¬(wMeteringCycles0.dev.bit Reg.MET_STAT 2 = true ∧
      ¬(0 - wMeteringCycles0.dev.met.lastT ≠ 0 ∧ (0 - wMeteringCycles0.dev.met.lastT) % wMeteringCycles0.dev.nomT = 0) ∧
      Option.any (fun f => decide (f + 4 * wMeteringCycles0.dev.nomT ≤ 0)) (if 0 = wMeteringCycles0.dev.met.crossT then wMeteringCycles0.dev.met.okFrom else if (wMeteringCycles0.dev.met.ampOk && (decide (14492754 ≤ 0 - wMeteringCycles0.dev.met.crossT) && decide (0 - wMeteringCycles0.dev.met.crossT ≤ 23529411) || decide (14492754 ≤ 2 * (0 - wMeteringCycles0.dev.met.crossT)) && decide (2 * (0 - wMeteringCycles0.dev.met.crossT) ≤ 23529411))) = true then some (wMeteringCycles0.dev.met.okFrom.getD wMeteringCycles0.dev.met.crossT) else none) = true)) ∧
  (wMeteringCycles0.dev.metRun = true ∧ wMeteringCycles0.dev.bit Reg.MET_STAT 2 = true ∧ ¬(95000000 - wMeteringCycles0.dev.met.lastT ≠ 0 ∧
      (95000000 - wMeteringCycles0.dev.met.lastT) % wMeteringCycles0.dev.nomT = 0) ∧
      Option.any (fun f => decide (f + 4 * wMeteringCycles0.dev.nomT ≤ 95000000)) (if 95000000 = wMeteringCycles0.dev.met.crossT then wMeteringCycles0.dev.met.okFrom else if (wMeteringCycles0.dev.met.ampOk && (decide (14492754 ≤ 95000000 - wMeteringCycles0.dev.met.crossT) && decide (95000000 - wMeteringCycles0.dev.met.crossT ≤ 23529411) || decide (14492754 ≤ 2 * (95000000 - wMeteringCycles0.dev.met.crossT)) && decide (2 * (95000000 - wMeteringCycles0.dev.met.crossT) ≤ 23529411))) = true then some (wMeteringCycles0.dev.met.okFrom.getD wMeteringCycles0.dev.met.crossT) else none) = true) ∧
  (wMeteringCycles2.dev.metRun = true ∧ wMeteringCycles2.dev.bit Reg.MET_STAT 2 = true ∧ 20000000 - wMeteringCycles2.dev.met.lastT ≠ 0 ∧
      (20000000 - wMeteringCycles2.dev.met.lastT) % wMeteringCycles2.dev.nomT = 0) ∧
  (wMeteringCycles1.dev.metRun = true ∧ (wMeteringCycles1.dev.bit Reg.MET_STAT 2 = false ∨ 0 - wMeteringCycles1.dev.met.lastT ≠ 0 ∧
      (0 - wMeteringCycles1.dev.met.lastT) % wMeteringCycles1.dev.nomT = 0 ∨ wMeteringCycles1.dev.bit Reg.MET_STAT 2 = true ∧ ¬(0 - wMeteringCycles1.dev.met.lastT ≠ 0 ∧
      (0 - wMeteringCycles1.dev.met.lastT) % wMeteringCycles1.dev.nomT = 0) ∧
      Option.any (fun f => decide (f + 4 * wMeteringCycles1.dev.nomT ≤ 0)) (if 0 = wMeteringCycles1.dev.met.crossT then wMeteringCycles1.dev.met.okFrom else if (wMeteringCycles1.dev.met.ampOk && (decide (14492754 ≤ 0 - wMeteringCycles1.dev.met.crossT) && decide (0 - wMeteringCycles1.dev.met.crossT ≤ 23529411) || decide (14492754 ≤ 2 * (0 - wMeteringCycles1.dev.met.crossT)) && decide (2 * (0 - wMeteringCycles1.dev.met.crossT) ≤ 23529411))) = true then some (wMeteringCycles1.dev.met.okFrom.getD wMeteringCycles1.dev.met.crossT) else none) = true) ∧
      wMeteringCycles1.dev.met.irstP = true) ∧
  (wMeteringCycles1.dev.metRun = true ∧ Dev.DueOrStill (40000 * (wMeteringCycles1.dev.met.bin + 1)) wMeteringCycles1.dev ∧
      ((List.range 17).any fun j => wMeteringCycles1.dev.inEn j && (wMeteringCycles1.dev.binMean j wMeteringCycles1.dev.met.bin).isNone) = true ∧
      wMeteringCycles1.dev.met.gapBin = false) ∧
  (wMeteringCycles1.dev.metRun = true ∧ Dev.DueOrStill (40000 * (wMeteringCycles1.dev.met.bin + 1)) wMeteringCycles1.dev ∧ 6 < 17 ∧ wMeteringCycles1.dev.inEn 6 = true ∧
      wMeteringCycles1.dev.binMean 6 wMeteringCycles1.dev.met.bin = none) ∧
  (wMeteringCycles0.dev.metRun = true ∧ Dev.DueOrStill (40000 * (wMeteringCycles0.dev.met.bin + 1)) wMeteringCycles0.dev ∧ 0 < 17 ∧ wMeteringCycles0.dev.inEn 0 = true ∧
      wMeteringCycles0.dev.binMean 0 wMeteringCycles0.dev.met.bin = some 0) := by
  repeat' apply And.intro
  all_goals first | decide +kernel | (unfold Dev.DueOrStill; decide +kernel)

def rec0 : MetRec := { kind := 1, rseq := 9, data := List.replicate 256 7, img := [], putImg := false }
def rec0s : List MetRec := [rec0]
def wMeteringRecords0 : State := st { rg [(Reg.FC_EN 2, 0xFFFFFFFF), (Reg.FC_EN 3, 0xFFFFFFFF), (Reg.MET_CTL, 1), (Reg.MET_STAT, 1), (Reg.FLC_CTL, 1), (Reg.FLC_STAT, 1)] with met := { on := true, recs := [rec0], rsect := some 5, rslot := 3, unlock := some 0 }, ecc := [(0x30000000, 1), (0x30000004, 2), (0x30002000, 1)] }
def wMeteringRecords1 : State := st { rg [(Reg.FC_EN 3, 0xFFFFFFFF), (Reg.MET_CTL, 1), (Reg.MET_STAT, 0x40)] with fm := true, met := { on := true, recs := [rec0, rec0], rsect := some 61, rslot := 30, unlock := some 0, raw := [(0, 1, 2)] }, tb := { dt := 5 * 2 ^ 48 }, mem := [(0x30000000, 0x46), (0x30000001, 0x53)] }
def wMeteringRecords2 : State := st dv
/-- Hypotheses of `Obligations.MeteringRecords`, clause by clause. -/
theorem test_witness_MeteringRecords :
  (Dev.BusOpen Master.supv Reg.FLC_FORMAT wMeteringRecords0.dev ∧ wMeteringRecords0.dev.fm = false ∧ fieldOf (17997#32) 0 16 = 17997) ∧
  (Dev.BusOpen Master.supv Reg.FLC_FORMAT wMeteringRecords2.dev ∧ wMeteringRecords2.dev.fm = false ∧ fieldOf (17997#32) 0 16 = 17997 ∧
      wMeteringRecords2.dev.met.recs = [] ∧ wMeteringRecords2.dev.ecc = [] ∧ 2 < 62 ∧ 2 ≤ 2) ∧
  (Dev.BusOpen Master.supv Reg.FLC_FORMAT wMeteringRecords0.dev ∧ wMeteringRecords0.dev.fm = false ∧ fieldOf (0#32) 0 16 ≠ 17997) ∧
  (Dev.BusOpen Master.supv Reg.FLC_FORMAT wMeteringRecords1.dev ∧ wMeteringRecords1.dev.fm = true ∧ wMeteringRecords1.dev.srcEnabled 96 = true) ∧
  (Dev.BusOpen Master.supv (Reg.PCNT_PRESET 0) wMeteringRecords0.dev ∧ wMeteringRecords0.dev.met.unlock = some 0 ∧ wMeteringRecords0.dev.now ≤ 0 + 1000000 ∧
      wMeteringRecords0.dev.bit Reg.PCNT_CTL 0 = false) ∧
  (isMetCfg (1077412000#32).toNat = true ∧ (1077412000#32).toNat < Reg.PCNT_PRESET 0 ∧ noReg (1077412000#32).toNat = false ∧
      wMeteringRecords1.dev.busCode Master.supv (1077412000#32).toNat AccSize.b32 true = none ∧ wMeteringRecords1.dev.fm = true ∧
      isMetSealed (1077412000#32).toNat = true) ∧
  (isMetCfg (1077412000#32).toNat = true ∧ (1077412000#32).toNat < Reg.PCNT_PRESET 0 ∧ noReg (1077412000#32).toNat = false ∧
      wMeteringRecords1.dev.busCode Master.supv (1077412000#32).toNat AccSize.b32 true = none ∧ (wMeteringRecords1.dev.fm = true ∧
      isMetSealed (1077412000#32).toNat = true) ∧ wMeteringRecords1.dev.srcEnabled 96 = true) ∧
  (isMetCfg (1077411840#32).toNat = true ∧ (1077411840#32).toNat < Reg.PCNT_PRESET 0 ∧ noReg (1077411840#32).toNat = false ∧
      wMeteringRecords0.dev.busCode Master.supv (1077411840#32).toNat AccSize.b32 true = none ∧ ¬(wMeteringRecords0.dev.fm = true ∧
      isMetSealed (1077411840#32).toNat = true) ∧ (∃ k, wMeteringRecords0.dev.met.unlock = some k ∧ wMeteringRecords0.dev.now ≤ k + 1000000) ∧
      Dev.metCfgBad (1077411840#32).toNat (0#32) wMeteringRecords0.dev = false) ∧
  (isMetCfg (1077411840#32).toNat = true ∧ (1077411840#32).toNat < Reg.PCNT_PRESET 0 ∧ noReg (1077411840#32).toNat = false ∧
      wMeteringRecords2.dev.busCode Master.supv (1077411840#32).toNat AccSize.b32 true = none ∧ ¬(wMeteringRecords2.dev.fm = true ∧
      isMetSealed (1077411840#32).toNat = true) ∧ ¬((∃ k, wMeteringRecords2.dev.met.unlock = some k ∧ wMeteringRecords2.dev.now ≤ k + 1000000) ∧
      Dev.metCfgBad (1077411840#32).toNat (0#32) wMeteringRecords2.dev = false)) ∧
  (Dev.BusOpen Master.supv Reg.MET_UNLOCK wMeteringRecords0.dev) ∧
  (wMeteringRecords0.dev.domainOn 7 = true ∧ wMeteringRecords0.dev.bit Reg.FLC_CTL 0 = true ∧ wMeteringRecords0.dev.bit Reg.FLC_STAT 0 = true ∧
      ∃ e, e ∈ wMeteringRecords0.dev.ecc ∧ (fun w => sectAddr wMeteringRecords0.dev.met.vSect ≤ w ∧ w < sectAddr (wMeteringRecords0.dev.met.vSect + 1)) e.fst ∧
      2 ≤ e.snd) ∧
  (wMeteringRecords0.dev.domainOn 7 = true ∧ wMeteringRecords0.dev.bit Reg.FLC_CTL 0 = true ∧ wMeteringRecords0.dev.bit Reg.FLC_STAT 0 = true ∧
      (∃ e, e ∈ wMeteringRecords0.dev.ecc ∧ (fun w => sectAddr wMeteringRecords0.dev.met.vSect ≤ w ∧ w < sectAddr (wMeteringRecords0.dev.met.vSect + 1)) e.fst ∧
      2 ≤ e.snd) ∧ wMeteringRecords0.dev.srcEnabled 93 = true) ∧
  (wMeteringRecords0.dev.domainOn 7 = true ∧ wMeteringRecords0.dev.bit Reg.FLC_CTL 0 = true ∧ wMeteringRecords0.dev.bit Reg.FLC_STAT 0 = true ∧
      ∃ e, e ∈ wMeteringRecords0.dev.ecc ∧ (fun w => sectAddr wMeteringRecords0.dev.met.vSect ≤ w ∧ w < sectAddr (wMeteringRecords0.dev.met.vSect + 1)) e.fst ∧
      e.snd = 1) ∧
  (wMeteringRecords2.dev.domainOn 7 = true ∧ wMeteringRecords2.dev.met.on = false) ∧
  (wMeteringRecords1.dev.domainOn 7 = true ∧ wMeteringRecords1.dev.met.on = true ∧ wMeteringRecords1.dev.bit Reg.MET_STAT 6 = true) ∧
  (wMeteringRecords0.dev.domainOn 7 = true ∧ wMeteringRecords0.dev.met.on = true ∧ wMeteringRecords0.dev.bit Reg.MET_STAT 6 = false) ∧
  (wMeteringRecords0.dev.met.recs = [rec0] ∧ wMeteringRecords0.dev.met.rsect = some 5 ∧ 5 < 62 ∧ wMeteringRecords0.dev.met.rslot < 31 ∧ rec0.data.length = 256 ∧
      rec0.kind ≠ 5 ∧ rec0.kind ≠ 6 ∧ wMeteringRecords0.dev.pwr.latching = false) := by
  repeat' apply And.intro
  all_goals decide +kernel

def wPulsesAndBypassWatch0 : State := st { rg [(Reg.AMB_BW_CTL, 1), (Reg.AMB_BW_STAT, 0x701)] with amb := { powered := true, bwOn := true, bwUnc := 7 } }
def wPulsesAndBypassWatch1 : State := st { rg [(Reg.PCNT_CTL, 0x80FF), (Reg.POUT_CTL, 9), (Reg.AMB_BW_CTL, 7), (Reg.AMB_BW_K 0, 0xFFFFFF)] with met := { ppend := [(0, 1), (3, 2)], susp := 2 }, amb := { powered := true }, pwr := { mainGood := false, safeOn := true } }
def wPulsesAndBypassWatch2 : State := st { rg [(Reg.PCNT_CTL, 1), (Reg.PCNT_CNT 0, 0xFFFFFFFF), (Reg.AMB_BW_CTL, 0xD), (Reg.AMB_BW_K 0, 0xFFFFFF), (Reg.AMB_BW_K 2, 1), (Reg.AMB_BW_STAT, 0x701)] with amb := { powered := true, bwOn := true, bwSecs := 9, bwFrom := 3, bwEvN := 65535, bwUnc := 8, bwLow := 300, bwAcc := [(0, 9215)] } }
/-- Hypotheses of `Obligations.PulsesAndBypassWatch`, clause by clause. -/
theorem test_witness_PulsesAndBypassWatch :
  (wPulsesAndBypassWatch2.dev.amb.powered = true ∧ wPulsesAndBypassWatch2.dev.amb.bwOn = true ∧ (wPulsesAndBypassWatch2.dev.pwr.mainGood = true ∧
      wPulsesAndBypassWatch2.dev.bit Reg.AMB_BW_CTL 3 = false ∨ wPulsesAndBypassWatch2.dev.fld Reg.AMB_BW_CTL 8 8 ≤ wPulsesAndBypassWatch2.dev.amb.bwLow) ∧
      8 ≤ wPulsesAndBypassWatch2.dev.amb.bwUnc) ∧
  (wPulsesAndBypassWatch0.dev.amb.powered = true ∧ wPulsesAndBypassWatch0.dev.amb.bwOn = true ∧ (wPulsesAndBypassWatch0.dev.pwr.mainGood = true ∧
      wPulsesAndBypassWatch0.dev.bit Reg.AMB_BW_CTL 3 = false ∨ wPulsesAndBypassWatch0.dev.fld Reg.AMB_BW_CTL 8 8 ≤ wPulsesAndBypassWatch0.dev.amb.bwLow) ∧
      ¬8 ≤ wPulsesAndBypassWatch0.dev.amb.bwUnc) ∧
  (wPulsesAndBypassWatch0.dev.amb.powered = true ∧ wPulsesAndBypassWatch0.dev.amb.bwOn = true ∧ 0 < 3 ∧ wPulsesAndBypassWatch0.dev.bit Reg.AMB_BW_CTL 0 = true) ∧
  (wPulsesAndBypassWatch0.dev.amb.powered = true ∧ wPulsesAndBypassWatch0.dev.amb.bwOn = true ∧ 1 < 3 ∧ ¬wPulsesAndBypassWatch0.dev.bit Reg.AMB_BW_CTL 1 = true) ∧
  (wPulsesAndBypassWatch1.dev.amb.powered = true ∧ wPulsesAndBypassWatch1.dev.amb.bwOn = false ∧
      (wPulsesAndBypassWatch1.dev.pwr.mainGood = false ∨ wPulsesAndBypassWatch1.dev.bit Reg.AMB_BW_CTL 3 = true) ∧
      1#3 &&& BitVec.setWidth 3 (wPulsesAndBypassWatch1.dev.rd Reg.AMB_BW_CTL) ≠ 0) ∧
  (wPulsesAndBypassWatch1.dev.domainOn 7 = true ∧ wPulsesAndBypassWatch1.dev.met.ppend.getD 0 0 = 0 + 1 ∧ wPulsesAndBypassWatch1.dev.bit Reg.POUT_CTL 0 = true) ∧
  (wPulsesAndBypassWatch0.dev.domainOn 7 = true) := by
  repeat' apply And.intro
  all_goals decide +kernel

def wSafeChannels0 : State := st { rg [(Reg.SAFE_OUT 0, 1), (Reg.SAFE_OUT 3, 3), (Reg.SAFE_OUT_REQ, 9), (Reg.SAFE_TP, 1), (Reg.SAFE_PAIR 0, 3), (Reg.SAFE_PAIR 3, 3)] with safe := { state := 3 } }
def wSafeChannels1 : State := st { rg [(Reg.SAFE_OUT 0, 1), (Reg.SAFE_OUT 3, 3), (Reg.SAFE_OUT_REQ, 9), (Reg.SAFE_TP, 1), (Reg.SAFE_PAIR 1, 3), (Reg.SAFE_PAIR 2, 1)] with safe := { state := 1, demand := 0x41, disc := 8, chanDis := true, inBad := 1 } }
/-- Hypotheses of `Obligations.SafeChannels`, clause by clause. -/
theorem test_witness_SafeChannels :
  (wSafeChannels0.dev.pwr.safeOn = true ∧ wSafeChannels0.dev.bit Reg.SAFE_TP 0 = true ∧ wSafeChannels0.dev.safe.state ≠ 0) ∧
  (wSafeChannels0.dev.pwr.safeOn = true ∧ wSafeChannels0.dev.bit Reg.SAFE_TP 0 = true ∧ 0 < 4 ∧
      (wSafeChannels0.dev.bit (Reg.SAFE_PAIR 0) 0 && wSafeChannels0.dev.bit (Reg.SAFE_PAIR 0) 1) = true) ∧
  (wSafeChannels0.dev.pwr.safeOn = true ∧
  wSafeChannels0.dev.bit Reg.SAFE_TP 0 = true ∧
    ∀ (p : Nat),
      p < 4 →
        (wSafeChannels0.dev.bit (Reg.SAFE_PAIR p) 0 && wSafeChannels0.dev.bit (Reg.SAFE_PAIR p) 1) = true →
          pairVerdict (wSafeChannels0.dev.pairDemands p)
              (match p with
              | 0 => { pulsedLow := true, otherLow := false, otherBack := false : PairSample }
              | 1 => { pulsedLow := true, otherLow := false, otherBack := false : PairSample }
              | 2 => { pulsedLow := true, otherLow := false, otherBack := false : PairSample }
              | _ => { pulsedLow := true, otherLow := false, otherBack := false : PairSample }) <
            2) ∧
  (wSafeChannels0.dev.pwr.safeOn = true ∧
  wSafeChannels0.dev.bit Reg.SAFE_TP 0 = true ∧
    3 < 4 ∧
      (wSafeChannels0.dev.bit (Reg.SAFE_PAIR 3) 0 && wSafeChannels0.dev.bit (Reg.SAFE_PAIR 3) 1) = true ∧
        2 ≤
          pairVerdict (wSafeChannels0.dev.pairDemands 3)
            (match 3 with
            | 0 => { pulsedLow := true, otherLow := false, otherBack := false : PairSample }
            | 1 => { pulsedLow := true, otherLow := false, otherBack := false : PairSample }
            | 2 => { pulsedLow := true, otherLow := false, otherBack := false : PairSample }
            | _ => { pulsedLow := false, otherLow := false, otherBack := false : PairSample })) ∧
  (wSafeChannels0.dev.pwr.safeOn = true ∧
  wSafeChannels0.dev.bit Reg.SAFE_TP 0 = true ∧
    3 < 4 ∧
      (wSafeChannels0.dev.bit (Reg.SAFE_PAIR 3) 0 && wSafeChannels0.dev.bit (Reg.SAFE_PAIR 3) 1) = true ∧
        2 ≤
            pairVerdict (wSafeChannels0.dev.pairDemands 3)
              (match 3 with
              | 0 => { pulsedLow := true, otherLow := false, otherBack := false : PairSample }
              | 1 => { pulsedLow := true, otherLow := false, otherBack := false : PairSample }
              | 2 => { pulsedLow := true, otherLow := false, otherBack := false : PairSample }
              | _ => { pulsedLow := false, otherLow := false, otherBack := false : PairSample }) ∧
          0 < 3 ∧ (wSafeChannels0.dev.bit (Reg.SAFE_PAIR 0) 0 && wSafeChannels0.dev.bit (Reg.SAFE_PAIR 0) 1) = true) ∧
  (wSafeChannels0.dev.pwr.safeOn = true ∧
  wSafeChannels0.dev.bit Reg.SAFE_TP 0 = true ∧
    3 < 4 ∧
      (wSafeChannels0.dev.bit (Reg.SAFE_PAIR 3) 0 && wSafeChannels0.dev.bit (Reg.SAFE_PAIR 3) 1) = true ∧
        2 ≤
            pairVerdict (wSafeChannels0.dev.pairDemands 3)
              (match 3 with
              | 0 => { pulsedLow := true, otherLow := false, otherBack := false : PairSample }
              | 1 => { pulsedLow := true, otherLow := false, otherBack := false : PairSample }
              | 2 => { pulsedLow := true, otherLow := false, otherBack := false : PairSample }
              | _ => { pulsedLow := false, otherLow := false, otherBack := false : PairSample }) ∧
          ∀ (q : Nat),
            q < 3 →
              (wSafeChannels0.dev.bit (Reg.SAFE_PAIR q) 0 && wSafeChannels0.dev.bit (Reg.SAFE_PAIR q) 1) = true →
                pairVerdict (wSafeChannels0.dev.pairDemands q)
                    (match q with
                    | 0 => { pulsedLow := true, otherLow := false, otherBack := false : PairSample }
                    | 1 => { pulsedLow := true, otherLow := false, otherBack := false : PairSample }
                    | 2 => { pulsedLow := true, otherLow := false, otherBack := false : PairSample }
                    | _ => { pulsedLow := false, otherLow := false, otherBack := false : PairSample }) <
                  2) ∧
  (wSafeChannels0.dev.pwr.safeOn = true ∧
  wSafeChannels0.dev.bit Reg.SAFE_TP 0 = true ∧
    3 < 4 ∧
      (wSafeChannels0.dev.bit (Reg.SAFE_PAIR 3) 0 && wSafeChannels0.dev.bit (Reg.SAFE_PAIR 3) 1) = true ∧
        2 ≤
            pairVerdict (wSafeChannels0.dev.pairDemands 3)
              (match 3 with
              | 0 => { pulsedLow := true, otherLow := false, otherBack := false : PairSample }
              | 1 => { pulsedLow := true, otherLow := false, otherBack := false : PairSample }
              | 2 => { pulsedLow := true, otherLow := false, otherBack := false : PairSample }
              | _ => { pulsedLow := false, otherLow := false, otherBack := false : PairSample }) ∧
          (∀ (q : Nat),
              q < 3 →
                (wSafeChannels0.dev.bit (Reg.SAFE_PAIR q) 0 && wSafeChannels0.dev.bit (Reg.SAFE_PAIR q) 1) = true →
                  pairVerdict (wSafeChannels0.dev.pairDemands q)
                      (match q with
                      | 0 => { pulsedLow := true, otherLow := false, otherBack := false : PairSample }
                      | 1 => { pulsedLow := true, otherLow := false, otherBack := false : PairSample }
                      | 2 => { pulsedLow := true, otherLow := false, otherBack := false : PairSample }
                      | _ => { pulsedLow := false, otherLow := false, otherBack := false : PairSample }) <
                    2) ∧
            wSafeChannels0.dev.safe.state ≠ 0) ∧
  (wSafeChannels1.dev.safe.demand.getLsbD (2 * 0) ≠ wSafeChannels1.dev.safe.demand.getLsbD (2 * 0 + 1) ∧ wSafeChannels1.dev.safe.state ≠ 0) ∧
  (wSafeChannels0.dev.sout 0 = true ∧ false = false ∧ wSafeChannels0.dev.offBand (0) SBand.offOpen = true ∧ wSafeChannels0.dev.offBand (0) SBand.offOpen = true ∧
      true = true) ∧
  (wSafeChannels0.dev.sout 0 = true ∧ false = false ∧ ¬(wSafeChannels0.dev.offBand (0) SBand.offOpen = true ∧ wSafeChannels0.dev.offBand (0) SBand.offOpen = true ∧
      false = true) ∧ wSafeChannels0.dev.safe.state ≠ 0) ∧
  (wSafeChannels0.dev.sout 0 = true ∧ true = true) ∧
  (wSafeChannels0.dev.pwr.safeOn = true ∧ wSafeChannels0.dev.sout 0 = true) ∧
  (wSafeChannels1.dev.pwr.safeOn = true ∧ ¬wSafeChannels1.dev.sout 0 = true) ∧
  (wSafeChannels1.dev.pwr.safeOn = true ∧ if wSafeChannels1.dev.sout 0 = true then SBand.offOpen = SBand.energised else SBand.offOpen = SBand.offIntact ∨ SBand.offOpen = SBand.offOpen ∧
      wSafeChannels1.dev.bit (Reg.SAFE_OUT 0) 1 = false) ∧
  (wSafeChannels0.dev.pwr.safeOn = true ∧ ¬if wSafeChannels0.dev.sout 0 = true then SBand.offOpen = SBand.energised else SBand.offOpen = SBand.offIntact ∨ SBand.offOpen = SBand.offOpen ∧
      wSafeChannels0.dev.bit (Reg.SAFE_OUT 0) 1 = false) ∧
  (wSafeChannels0.dev.pwr.safeOn = true ∧ (¬if wSafeChannels0.dev.sout 0 = true then SBand.offOpen = SBand.energised else SBand.offOpen = SBand.offIntact ∨ SBand.offOpen = SBand.offOpen ∧
      wSafeChannels0.dev.bit (Reg.SAFE_OUT 0) 1 = false) ∧ wSafeChannels0.dev.safe.state ≠ 0) ∧
  (wSafeChannels0.dev.pwr.safeOn = true ∧ wSafeChannels0.dev.safe.state ≠ 0) := by
  repeat' apply And.intro
  all_goals decide +kernel

def wSafeKeySequence0 : State := st { dv with safe := { state := 1 } }
def wSafeKeySequence1 : State := st { rg [(Reg.SAFE_OUT_REQ, 3)] with safe := { state := 2 } }
def wSafeKeySequence2 : State := st { dv with safe := { state := 3 } }
def wSafeKeySequence3 : State := st { dv with safe := { state := 0 } }
def wSafeKeySequence4 : State := st { dv with safe := { state := 2 }, fc := { hold := 3 } }
def wSafeKeySequence5 : State := st { rg [(Reg.SAFE_PAIR 3, 1)] with safe := { state := 2, demand := 0x80 } }
/-- Hypotheses of `Obligations.SafeKeySequence`, clause by clause. -/
theorem test_witness_SafeKeySequence :
  (Dev.BusOpen Master.supv Reg.SAFE_OUT_REQ wSafeKeySequence3.dev ∧ wSafeKeySequence3.dev.safe.state = 0) ∧
  (Dev.BusOpen Master.supv Reg.SAFE_OUT_REQ wSafeKeySequence0.dev ∧ (wSafeKeySequence0.dev.safe.state = 1 ∨ wSafeKeySequence0.dev.safe.state = 2)) ∧
  (Dev.BusOpen Master.supv Reg.SAFE_OUT_REQ wSafeKeySequence2.dev ∧ wSafeKeySequence2.dev.safe.state = 3) ∧
  (wSafeKeySequence0.dev.safe.state = 1 ∨ wSafeKeySequence0.dev.safe.state = 2) ∧
  (Dev.BusOpen Master.supv Reg.SAFE_KEY wSafeKeySequence4.dev ∧ wSafeKeySequence4.dev.safe.state = 2 ∧ fieldOf (23100#32) 0 16 = 23100 ∧
      wSafeKeySequence4.dev.keyRefusal ≠ 0) ∧
  (Dev.BusOpen Master.supv Reg.SAFE_KEY wSafeKeySequence5.dev ∧ wSafeKeySequence5.dev.safe.state = 2 ∧ fieldOf (23100#32) 0 16 = 23100 ∧
      wSafeKeySequence5.dev.fc.hold ≠ 3 ∧ wSafeKeySequence5.dev.srcActive 91 = false ∧ wSafeKeySequence5.dev.srcPending 91 = false ∧
      wSafeKeySequence5.dev.srcActive 92 = false ∧ wSafeKeySequence5.dev.srcPending 92 = false ∧ 3 < 4 ∧ wSafeKeySequence5.dev.bit (Reg.SAFE_PAIR 3) 0 = true) ∧
  (Dev.BusOpen Master.supv Reg.SAFE_KEY wSafeKeySequence1.dev ∧ wSafeKeySequence1.dev.safe.state = 2 ∧ fieldOf (23100#32) 0 16 = 23100 ∧
      wSafeKeySequence1.dev.fc.hold ≠ 3 ∧ wSafeKeySequence1.dev.srcActive 91 = false ∧ wSafeKeySequence1.dev.srcPending 91 = false ∧
      wSafeKeySequence1.dev.srcActive 92 = false ∧ wSafeKeySequence1.dev.srcPending 92 = false ∧
      ∀ (p : Nat), p < 4 → wSafeKeySequence1.dev.bit (Reg.SAFE_PAIR p) 0 = true → wSafeKeySequence1.dev.pairDemands p = false) ∧
  (Dev.BusOpen Master.supv Reg.SAFE_KEY wSafeKeySequence1.dev ∧ wSafeKeySequence1.dev.safe.state = 2 ∧ fieldOf (0#32) 0 16 ≠ 23100) ∧
  (Dev.BusOpen Master.supv Reg.SAFE_KEY wSafeKeySequence0.dev ∧ wSafeKeySequence0.dev.safe.state = 1 ∧ fieldOf (50085#32) 0 16 = 50085) ∧
  (Dev.BusOpen Master.supv Reg.SAFE_KEY wSafeKeySequence0.dev ∧ wSafeKeySequence0.dev.safe.state = 1 ∧ ¬fieldOf (0#32) 0 16 = 50085) ∧
  (wSafeKeySequence2.dev.pwr.safeOn = true ∧ wSafeKeySequence2.dev.safe.rstLong = false ∧ 100 ≤ 100 ∧ 100 < 2000 ∧ wSafeKeySequence2.dev.safe.state = 3) ∧
  (wSafeKeySequence0.dev.pwr.safeOn = true ∧ wSafeKeySequence0.dev.safe.rstLong = false ∧ 100 ≤ 100 ∧ 100 < 2000 ∧
      (wSafeKeySequence0.dev.safe.state = 1 ∨ wSafeKeySequence0.dev.safe.state = 2)) ∧
  (wSafeKeySequence3.dev.pwr.safeOn = true ∧ wSafeKeySequence3.dev.safe.rstLong = false ∧ 100 ≤ 100 ∧ 100 < 2000 ∧ wSafeKeySequence3.dev.safe.state = 0) ∧
  (wSafeKeySequence0.dev.pwr.safeOn = true ∧ wSafeKeySequence0.dev.safe.rstLong = false ∧ 2000 ≤ 2000) ∧
  (wSafeKeySequence0.dev.pwr.safeOn = true ∧ wSafeKeySequence0.dev.safe.rstLong = false ∧ 0 < 100) := by
  repeat' apply And.intro
  all_goals decide +kernel

def fTwinFrames0 : Frame := mkFrame [0x20,0,0,0,0,9,8] (List.replicate 32 3)
def fTwinFrames1 : Frame := mkFrame [0x90,0,0,0,0,8,0] (List.replicate 8 3)
def fTwinFrames3 : Frame := mkFrame [0xA0,0,0,0,0,9,0] (List.replicate 24 5)
def fTwinFrames4 : Frame := mkFrame [0xB0,0,0,0,0,9,0] ([0xC2,0,0,0,0,0,0,0,0,0,0,0,0,0,0,0])
def fTwinFrames5 : Frame := mkFrame [0x80,0,0,0,0,9,0] ([1,0,5,0,0,0,0,0])
def fTwinFrames6 : Frame := mkFrame [0xC0,0,0,0,0,9,8] ([1,0,0,25,0,0,0,0])
def wTwinFrames0 : State := st { rg [(Reg.TWIN_STAT, 3), (Reg.TWIN_CTL, 1), (Reg.TWIN_CTX 0, 1), (laneReg 0 4, 4), (Reg.RING_LINK_CTL 0, 0x10101)] with tb := { counting := true, inPeriod := true, engAt := some 40000, engStart := 40000, k := 9 } }
def wTwinFrames1 : State := st { rg [(Reg.TWIN_STAT, 3), (Reg.TWIN_CTL, 1), (Reg.TWIN_CTX 0, 1), (laneReg 0 4, 4), (Reg.RING_LINK_CTL 0, 0x10101)] with tb := { counting := true, inPeriod := true, notBefore := 1, engStart := 40000, k := 9 } }
def wTwinFrames2 : State := st { rg [(Reg.TWIN_STAT, 1), (laneReg 0 4, 4), (Reg.RING_LINK_CTL 0, 0x10101)] with tb := { counting := true, inPeriod := true, engAt := some 40000, engStart := 40000, k := 9 } }
def wTwinFrames3 : State := st { rg [(Reg.TWIN_STAT, 3), (Reg.AECTL_STAT 1, 0x10), (Reg.TWIN_LIVE, 0x1FFFF)] with tb := { k := 9 }, twin := { shadowRun := true, shadowPer := none, capBusy := [(7, 6)] } }
def wTwinFrames4 : State := st { rg [(Reg.TWIN_STAT, 3), (Reg.TWIN_CTL, 1), (Reg.TWIN_CTX 0, 1)] with tb := { k := 9 }, twin := { passes := 1, shadowPer := some 8, stat := some (8, 0), shadowOk := true, shadowEnd := true, caps := [(0, crc32 (List.replicate 8 3) + 1)] } }
/-- Hypotheses of `Obligations.TwinFrames`, clause by clause. -/
theorem test_witness_TwinFrames :
  (wTwinFrames3.dev.twin.shadowRun = true ∧
      (wTwinFrames3.dev.tb.counting = true → wTwinFrames3.dev.tb.bnd + wTwinFrames3.dev.tb.engStart + 2 * wTwinFrames3.dev.fld Reg.TWIN_LIVE 0 17 ≤ wTwinFrames3.dev.nextSeq) ∧
      1 < 8 ∧ wTwinFrames3.dev.bit (Reg.AECTL_STAT 1) 4 = true) ∧
  (wTwinFrames3.dev.twin.capBusy.getD 0 7 = 5 + 1 ∧ wTwinFrames3.dev.twin.shadowPer = none) ∧
  (fKind fTwinFrames6 = 12 ∧ fBad fTwinFrames6 = false ∧ Dev.LaneIn 24 wTwinFrames0.dev ∧ wTwinFrames0.dev.role ≠ 0 ∧
      List.find? (fun p => wTwinFrames0.dev.bit (Reg.RING_LINK_CTL p) 0 && wTwinFrames0.dev.ringOf p == fRing fTwinFrames6) (List.range 24) = some 0) ∧
  (fKind fTwinFrames5 = 8 ∧ fBad fTwinFrames5 = false ∧ Dev.LaneIn 24 wTwinFrames0.dev ∧ wTwinFrames0.dev.role ≠ 0 ∧ wTwinFrames0.dev.tb.inPeriod = true ∧
      wTwinFrames0.dev.tb.engPast = false ∧ fPeriod fTwinFrames5 = wTwinFrames0.dev.tb.k ∧ fTwinFrames5.data.length = 8 ∧
      wTwinFrames0.dev.ownPort (byteAt fTwinFrames5.data 0) = some 0 ∧
      List.map (fun x => x + 1) (List.filter (fun i => nbit (fieldAt fTwinFrames5.data 1 2) i) (List.range 12)) ≠ [] ∧
      wTwinFrames0.dev.repollFits 0 (List.map (fun x => x + 1) (List.filter (fun i => nbit (fieldAt fTwinFrames5.data 1 2) i) (List.range 12))).length (80 * (wTwinFrames0.dev.now - wTwinFrames0.dev.tb.bnd)) = true) ∧
  (fKind fTwinFrames4 = 11 ∧ fBad fTwinFrames4 = false ∧ Dev.LaneIn 24 wTwinFrames0.dev ∧ wTwinFrames0.dev.role ≠ 0 ∧ wTwinFrames0.dev.twin.shadowPer = none) ∧
  (fKind fTwinFrames4 = 11 ∧ fBad fTwinFrames4 = false ∧ Dev.LaneIn 24 wTwinFrames2.dev ∧ wTwinFrames2.dev.role ≠ 0 ∧ wTwinFrames2.dev.twin.shadowPer = none ∧
      wTwinFrames2.dev.role = 1 ∧ byteAt fTwinFrames4.data 0 % 8 = 2) ∧
  (fKind fTwinFrames3 = 10 ∧ fBad fTwinFrames3 = false ∧ Dev.LaneIn 24 wTwinFrames0.dev ∧ wTwinFrames0.dev.standby = true) ∧
  (fKind fTwinFrames1 = 9 ∧ fBad fTwinFrames1 = false ∧ Dev.LaneIn 24 wTwinFrames4.dev ∧ wTwinFrames4.dev.standby = true ∧
      wTwinFrames4.dev.twin.shadowPer = some (fPeriod fTwinFrames1) ∧ wTwinFrames4.dev.twin.stat = some (fPeriod fTwinFrames1, 0) ∧ wTwinFrames4.dev.twin.capBusy = [] ∧
      wTwinFrames4.dev.twin.shadowOk = true ∧ wTwinFrames4.dev.twin.shadowEnd = true ∧ wTwinFrames4.dev.ocrc = 0 ∧
      ∀ (x : Nat × Nat), x ∈ wTwinFrames4.dev.ctxPlaces → wTwinFrames4.dev.twin.caps.getD 0 x.fst = crc32 (List.take (wTwinFrames4.dev.ctxLen x.fst) (List.drop x.snd fTwinFrames1.data)) + 1) ∧
  (fKind fTwinFrames1 = 9 ∧ fBad fTwinFrames1 = false ∧ Dev.LaneIn 24 wTwinFrames4.dev ∧ wTwinFrames4.dev.standby = true ∧
      wTwinFrames4.dev.twin.shadowPer = some (fPeriod fTwinFrames1) ∧ wTwinFrames4.dev.twin.stat = some (fPeriod fTwinFrames1, 0) ∧ wTwinFrames4.dev.twin.capBusy = [] ∧
      wTwinFrames4.dev.twin.shadowOk = true ∧ wTwinFrames4.dev.twin.shadowEnd = true ∧ wTwinFrames4.dev.ocrc = 0 ∧
      (∀ (x : Nat × Nat), x ∈ wTwinFrames4.dev.ctxPlaces → wTwinFrames4.dev.twin.caps.getD 0 x.fst = crc32 (List.take (wTwinFrames4.dev.ctxLen x.fst) (List.drop x.snd fTwinFrames1.data)) + 1) ∧
      wTwinFrames4.dev.role = 3 ∧ 1 ≤ wTwinFrames4.dev.twin.passes) ∧
  (fKind fTwinFrames1 = 9 ∧ fBad fTwinFrames1 = false ∧ Dev.LaneIn 24 wTwinFrames1.dev ∧ wTwinFrames1.dev.standby = true ∧ wTwinFrames1.dev.twin.shadowPer = none ∧
      wTwinFrames1.dev.tb.engAt = none ∧ wTwinFrames1.dev.twin.shadowRun = false ∧ (∀ (n : Nat), n < 8 → wTwinFrames1.dev.engRuns n = false) ∧
      fPeriod fTwinFrames1 = (wTwinFrames1.dev.tb.k + 2 ^ 32 - 1) % 2 ^ 32 ∧ wTwinFrames1.dev.twin.ctxPer ≠ some (fPeriod fTwinFrames1) ∧
      wTwinFrames1.dev.loadFits = true) ∧
  (fKind fTwinFrames1 = 9 ∧ fBad fTwinFrames1 = false ∧ Dev.LaneIn 24 wTwinFrames0.dev ∧ wTwinFrames0.dev.standby = true ∧ wTwinFrames0.dev.twin.shadowPer = none ∧
      wTwinFrames0.dev.tb.engAt.isSome = true) ∧
  (fKind fTwinFrames0 = 2 ∧ fBad fTwinFrames0 = false ∧ Dev.LaneIn 24 wTwinFrames0.dev ∧ wTwinFrames0.dev.standby = true ∧
      wTwinFrames0.dev.ownPort (fRing fTwinFrames0) = some 0) := by
  repeat' apply And.intro
  all_goals decide +kernel

def wTwinCommand0 : State := st { rg [(Reg.TWIN_STAT, 0xFF0001)] with twin := { seen := 255 }, atm := { running := true } }
def wTwinCommand1 : State := st { rg [(Reg.TWIN_STAT, 0x01000A3 + 0x20)] with twin := { noStat := 2 } }
def wTwinCommand2 : State := st { rg [(Reg.TWIN_STAT, 0x84), (Reg.SYS_READY, 0xFFFFFFFF), (Reg.TWIN_CTL, 3), (Reg.TWIN_SWAP_AT, 11)] with twin := { noStat := 2 }, tb := { inPeriod := true, k := 9, counting := true, notBefore := 10 ^ 12 } }
def wTwinCommand3 : State := st { rg [(Reg.TWIN_STAT, 2), (Reg.TWIN_CTL, 0x40)] with twin := { claimAt := some 4 }, tb := tbF, twinId := true }
def wTwinCommand7 : State := st { rg [(Reg.TWIN_STAT, 4)] with twin := { blkAt := 10 ^ 12 }, tb := { counting := true } }
/-- Hypotheses of `Obligations.TwinCommand`, clause by clause. -/
theorem test_witness_TwinCommand :
  (Dev.BusOpen Master.supv (Reg.TWIN_CTX 0) wTwinCommand0.dev ∧ ∀ (j : Nat), j < 8 → j ≠ 0 → wTwinCommand0.dev.bit (Reg.TWIN_CTX j) 0 = false) ∧
  (Dev.BusOpen Master.supv (Reg.TWIN_CTX 0) wTwinCommand0.dev ∧ (∀ (j : Nat), j < 8 → j ≠ 0 → wTwinCommand0.dev.bit (Reg.TWIN_CTX j) 0 = false) ∧
      (wTwinCommand0.dev.atmRuns = true ∨ 16 < fieldOf (0#32) 4 5 ∨ 512 < fieldOf (0#32) 16 10 ∨ (0#32).getLsbD 0 = true ∧
      2046 < 96 + 8 * fieldOf (0#32) 4 5 + 8 * fieldOf (0#32) 16 10)) ∧
  (Dev.BusOpen Master.supv (Reg.TWIN_CTX 0) wTwinCommand1.dev ∧ (∀ (j : Nat), j < 8 → j ≠ 0 → wTwinCommand1.dev.bit (Reg.TWIN_CTX j) 0 = false) ∧
      ¬(wTwinCommand1.dev.atmRuns = true ∨ 16 < fieldOf (0#32) 4 5 ∨ 512 < fieldOf (0#32) 16 10 ∨ (0#32).getLsbD 0 = true ∧
      2046 < 96 + 8 * fieldOf (0#32) 4 5 + 8 * fieldOf (0#32) 16 10)) ∧
  (Dev.BusOpen Master.supv Reg.TWIN_CTL wTwinCommand1.dev ∧ wTwinCommand1.dev.atmRuns = false ∧ 8 < fieldOf (589824#32) 16 4) ∧
  (Dev.BusOpen Master.supv Reg.TWIN_CTL wTwinCommand1.dev ∧ wTwinCommand1.dev.atmRuns = false ∧ ¬8 < fieldOf (0#32) 16 4) ∧
  (wTwinCommand2.dev.role ≠ 0 ∧ wTwinCommand2.dev.bit Reg.SYS_READY 15 = true ∧ 2 ≤ wTwinCommand2.dev.twin.noStat ∧ wTwinCommand2.dev.twin.statLost = false ∧
      wTwinCommand2.dev.srcEnabled 89 = true) ∧
  (wTwinCommand2.dev.role = 4 ∧ wTwinCommand2.dev.bit Reg.TWIN_CTL 1 = true ∧ wTwinCommand2.dev.twin.pPref = false ∧ wTwinCommand2.dev.policyOf = 0 ∧
      wTwinCommand2.dev.twin.mismatch = false ∧ wTwinCommand2.dev.twin.swapP = none ∧ wTwinCommand2.dev.tb.inPeriod = true ∧ wTwinCommand2.dev.tb.k < 2 ^ 32 ∧
      wTwinCommand2.dev.fld Reg.TWIN_STAT 6 3 = 2 ∧
      (wTwinCommand2.dev.tb.counting = true → wTwinCommand2.dev.twin.sbyAt + wTwinCommand2.dev.fld Reg.TWIN_HOLD 0 16 * 10 ^ 9 ≤ wTwinCommand2.dev.nextSeq)) ∧
  (Dev.BusOpen Master.supv Reg.TWIN_CMD wTwinCommand0.dev ∧ fieldOf (1518206978#32) 16 16 = 23166 ∧ (1518206978#32).getLsbD 0 = false ∧
      (1518206978#32).getLsbD 1 = true) ∧
  (Dev.BusOpen Master.supv Reg.TWIN_CMD wTwinCommand0.dev ∧ fieldOf (1518206979#32) 16 16 = 23166 ∧ (1518206979#32).getLsbD 0 = true ∧ (1518206979#32).getLsbD 1 = true) ∧
  (Dev.BusOpen Master.supv Reg.TWIN_CMD wTwinCommand2.dev ∧ fieldOf (1518206977#32) 16 16 = 23166 ∧ (1518206977#32).getLsbD 0 = true ∧
      ¬(1518206977#32).getLsbD 1 = true ∧ (wTwinCommand2.dev.role = 2 ∨ wTwinCommand2.dev.role = 4) ∧
      (wTwinCommand2.dev.fld Reg.TWIN_STAT 6 3 = 2 ∨ wTwinCommand2.dev.fld Reg.TWIN_STAT 6 3 = 4) ∧ wTwinCommand2.dev.tb.inPeriod = true ∧
      2 ≤ (BitVec.toNat (wTwinCommand2.dev.rd Reg.TWIN_SWAP_AT) + 2 ^ 32 - wTwinCommand2.dev.tb.k) % 2 ^ 32 ∧
      (BitVec.toNat (wTwinCommand2.dev.rd Reg.TWIN_SWAP_AT) + 2 ^ 32 - wTwinCommand2.dev.tb.k) % 2 ^ 32 < 2 ^ 31) ∧
  (Dev.BusOpen Master.supv Reg.TWIN_CMD wTwinCommand0.dev ∧ fieldOf (1518206977#32) 16 16 = 23166 ∧ (1518206977#32).getLsbD 0 = true ∧
      ¬(1518206977#32).getLsbD 1 = true ∧ ¬((wTwinCommand0.dev.role = 2 ∨ wTwinCommand0.dev.role = 4) ∧
      (wTwinCommand0.dev.fld Reg.TWIN_STAT 6 3 = 2 ∨ wTwinCommand0.dev.fld Reg.TWIN_STAT 6 3 = 4) ∧ wTwinCommand0.dev.tb.inPeriod = true ∧
      2 ≤ (BitVec.toNat (wTwinCommand0.dev.rd Reg.TWIN_SWAP_AT) + 2 ^ 32 - wTwinCommand0.dev.tb.k) % 2 ^ 32 ∧
      (BitVec.toNat (wTwinCommand0.dev.rd Reg.TWIN_SWAP_AT) + 2 ^ 32 - wTwinCommand0.dev.tb.k) % 2 ^ 32 < 2 ^ 31)) ∧
  (wTwinCommand3.dev.role = 2 ∧ (wTwinCommand3.dev.twin.yieldDue = true ∨ wTwinCommand3.dev.twinId = true)) ∧
  (wTwinCommand3.dev.twin.claimAt = some 4 ∧ (wTwinCommand3.dev.tb.counting = true → 4 + 1000 ≤ wTwinCommand3.dev.nextSeq) ∧ true = true ∧
      wTwinCommand3.dev.twinId = true) ∧
  (wTwinCommand3.dev.twin.claimAt = some 4 ∧ (wTwinCommand3.dev.tb.counting = true → 4 + 1000 ≤ wTwinCommand3.dev.nextSeq) ∧ ¬(false = true ∧
      wTwinCommand3.dev.twinId = true)) ∧
  (wTwinCommand0.dev.role = 1 ∧ wTwinCommand0.dev.atm.running = true ∧ wTwinCommand0.dev.twin.claimAt = none ∧ wTwinCommand0.dev.bit Reg.TWIN_STAT 5 = false) ∧
  (wTwinCommand7.dev.tb.counting = true ∧ wTwinCommand7.dev.nextSeq < wTwinCommand7.dev.twin.blkAt + 200) ∧
  ((wTwinCommand2.dev.role = 4 ∨ wTwinCommand2.dev.role = 3 ∧ wTwinCommand2.dev.bit Reg.TWIN_CTL 5 = true) ∧
      (wTwinCommand2.dev.tb.counting = true → wTwinCommand2.dev.twin.blkAt + 200 ≤ wTwinCommand2.dev.nextSeq)) := by
  repeat' apply And.intro
  all_goals decide +kernel

def wSynthesisers0 : State := st { rg [(Reg.CLK_STAT, 0xF), (Reg.FC_EN 2, 0xFFFFFFFF), (Reg.FC_EN 3, 0xFFFFFFFF), (Reg.SYS_READY, 0xFFFFFFFF), (Reg.CLK_CTL, 0x10), (Reg.CLK_BAND 0, 0xBEAB86A0)] with clk := { refOk := true, chosen := true, busy := 7 }, tb := { counting := true, inPeriod := true } }
def wSynthesisers1 : State := st { rg [(Reg.CLK_STAT, 0), (Reg.CLK_BAND 3, 0xBEAB86A0), (Reg.AMB_STATUS, 0x40), (Reg.CLK_STAT, 0)] with clk := { refLost := true, busy := 7 }, amb := { powered := true, hold := 5 * 2 ^ 47 } }
def wSynthesisers2 : State := st { rg [(Reg.CLK_STAT, 0), (Reg.AMB_STATUS, 0x40), (Reg.ATM_CTL, 1),(Reg.ATM_STAT, 1)] with clk := { chosen := true, band := 34 }, atm := { running := true }, amb := { powered := true, hold := 5 * 2 ^ 47 } }
def wSynthesisers3 : State := st { rg [(Reg.CLK_STAT, 0)] with clk := { chosen := true, busy := 3, band := 34 } }
/-- Hypotheses of `Obligations.Synthesisers`, clause by clause. -/
theorem test_witness_Synthesisers :
  (wSynthesisers0.dev.bit Reg.CLK_STAT 0 = true ∧ wSynthesisers0.dev.vcoNearEdge = true) ∧
  (wSynthesisers0.dev.bit Reg.CLK_CTL 4 = true ∧ wSynthesisers0.dev.bit Reg.CLK_STAT 0 = true ∧ wSynthesisers0.dev.srcEnabled 88 = true) ∧
  (wSynthesisers1.dev.bit Reg.CLK_CTL 4 = false) ∧
  (Dev.BusOpen Master.supv Reg.CLK_TRIM wSynthesisers0.dev ∧ 1000000 < fieldOf (1000001#32) 0 20) ∧
  (Dev.BusOpen Master.supv Reg.CLK_TRIM wSynthesisers0.dev ∧ ¬1000000 < fieldOf (0#32) 0 20) ∧
  (Dev.BusOpen Master.supv Reg.CLK_RELOCK wSynthesisers0.dev ∧ fieldOf (1544290305#32) 16 16 = 23564 ∧ (1544290305#32).getLsbD 0 = true) ∧
  (Dev.BusOpen Master.supv Reg.CLK_RELOCK wSynthesisers0.dev ∧ ¬(fieldOf (0#32) 16 16 = 23564 ∧ (0#32).getLsbD 0 = true)) ∧
  (Dev.BusOpen Master.supv Reg.CLK_RELOCK wSynthesisers2.dev ∧ (fieldOf (1544290305#32) 16 16 = 23564 ∧ (1544290305#32).getLsbD 0 = true) ∧
      wSynthesisers2.dev.atmRuns = true) ∧
  (Dev.BusOpen Master.supv Reg.CLK_RELOCK wSynthesisers0.dev ∧ (fieldOf (1544290305#32) 16 16 = 23564 ∧ (1544290305#32).getLsbD 0 = true) ∧
      ¬wSynthesisers0.dev.atmRuns = true ∧ wSynthesisers0.dev.bit Reg.CLK_STAT 0 = true ∧ wSynthesisers0.dev.srcEnabled 88 = true) ∧
  (wSynthesisers0.dev.clk.busy.getLsbD 0 = true ∧ wSynthesisers0.dev.bit Reg.CLK_STAT 0 = true) ∧
  (wSynthesisers0.dev.clk.chosen = true ∧ (wSynthesisers0.dev.clk.noBand = true ∨ wSynthesisers0.dev.vcoTunes = false)) ∧
  (wSynthesisers2.dev.pwr.safeOn = true ∧ wSynthesisers2.dev.clk.refLost = false ∧ wSynthesisers2.dev.bit Reg.CLK_STAT 1 = false ∧
      (1 = 0 → wSynthesisers2.dev.clk.chosen = true ∧ wSynthesisers2.dev.clk.noBand = false ∧ wSynthesisers2.dev.vcoTunes = true) ∧ 1 = 1 ∧
      wSynthesisers2.dev.bit Reg.AMB_STATUS 6 = true) ∧
  (wSynthesisers3.dev.pwr.safeOn = true ∧ wSynthesisers3.dev.clk.refLost = false ∧ wSynthesisers3.dev.bit Reg.CLK_STAT 1 = false ∧
      (1 = 0 → wSynthesisers3.dev.clk.chosen = true ∧ wSynthesisers3.dev.clk.noBand = false ∧ wSynthesisers3.dev.vcoTunes = true) ∧ 1 = 1 ∧
      ¬wSynthesisers3.dev.bit Reg.AMB_STATUS 6 = true) ∧
  (wSynthesisers2.dev.pwr.safeOn = true ∧ wSynthesisers2.dev.clk.refLost = false ∧ wSynthesisers2.dev.bit Reg.CLK_STAT 1 = false ∧
      (1 = 0 → wSynthesisers2.dev.clk.chosen = true ∧ wSynthesisers2.dev.clk.noBand = false ∧ wSynthesisers2.dev.vcoTunes = true) ∧ 1 ≠ 0) ∧
  (wSynthesisers2.dev.pwr.safeOn = true ∧ wSynthesisers2.dev.clk.refLost = false ∧ wSynthesisers2.dev.bit Reg.CLK_STAT 0 = false ∧
      (0 = 0 → wSynthesisers2.dev.clk.chosen = true ∧ wSynthesisers2.dev.clk.noBand = false ∧ wSynthesisers2.dev.vcoTunes = true) ∧ 0 = 0 ∧
      wSynthesisers2.dev.clk.busy.getLsbD 0 = false) ∧
  (wSynthesisers3.dev.clk.busy.getLsbD 0 = true ∧ 0 = 0 ∧
      ∀ (i : Nat), i < 32 → bandFits (wSynthesisers3.dev.rd (Reg.CLK_BAND i)) (wSynthesisers3.dev.fld Reg.CLK_SYN0 0 3) (wSynthesisers3.dev.fld Reg.CLK_TRIM 0 20) = false) ∧
  (wSynthesisers0.dev.clk.busy.getLsbD 0 = true ∧ 0 = 0 ∧ 0 < 32 ∧
      bandFits (wSynthesisers0.dev.rd (Reg.CLK_BAND 0)) (wSynthesisers0.dev.fld Reg.CLK_SYN0 0 3) (wSynthesisers0.dev.fld Reg.CLK_TRIM 0 20) = true ∧
      ∀ (j : Nat), j < 0 → bandFits (wSynthesisers0.dev.rd (Reg.CLK_BAND j)) (wSynthesisers0.dev.fld Reg.CLK_SYN0 0 3) (wSynthesisers0.dev.fld Reg.CLK_TRIM 0 20) = false) ∧
  (wSynthesisers0.dev.bit Reg.CLK_STAT 1 = true ∧ 1 = 1 ∧ wSynthesisers0.dev.bit Reg.SYS_READY 9 = true ∧ wSynthesisers0.dev.srcEnabled 95 = true) ∧
  (wSynthesisers0.dev.bit Reg.CLK_STAT 0 = true ∧ 0 = 0) ∧
  (wSynthesisers0.dev.bit Reg.CLK_STAT 0 = true ∧ wSynthesisers0.dev.synInUse 0 = true ∧ wSynthesisers0.dev.srcEnabled 88 = true) ∧
  (wSynthesisers1.dev.pwr.safeOn = true ∧ wSynthesisers1.dev.clk.refOk = false) ∧
  (wSynthesisers0.dev.pwr.safeOn = true ∧ wSynthesisers0.dev.clk.refLost = false ∧ 0 < 3 ∧ wSynthesisers0.dev.bit Reg.CLK_STAT 0 = true ∧
      wSynthesisers0.dev.synInUse 0 = true ∧ wSynthesisers0.dev.srcEnabled 88 = true) := by
  repeat' apply And.intro
  all_goals decide +kernel

def wDeviceTime0 : State := st { rg [(Reg.SYS_READY, 0x200), (Reg.TIME_PPS_CTL, 0x103), (Reg.TIME_PPS_OFS, 5)] with tb := { tbF with oldTP := some 20000 } }
def wDeviceTime1 : State := st { rg [(Reg.TIME_CTL, 1), (Reg.TIME_STEP_LO, 0x10000), (Reg.TIME_PPS_CTL, 3), (Reg.SYS_READY, 0x200), (Reg.TIME_PPS_INOFS, 0xFFFFFFFF), (Reg.TIME_PHASES, 0x06400190)] with tsrv := { ppsLast := some 3 }, tb := { counting := true, dt := 2 ^ 80 } }
def wDeviceTime2 : State := st { rg [(Reg.TIME_STEP_LO, 70000), (Reg.TIME_PPS_CTL, 2),(Reg.TIME_PERIOD, 20000), (Reg.TIME_PHASES, 0x06400190)] with tb := { counting := true } }
def wDeviceTime3 : State := st (rg [(Reg.TIME_PPS_CTL, 2), (laneReg 0 4, 4), (Reg.TIME_CTL, 1), (Reg.TIME_STEP_LO, 0xFFFFFFFF), (Reg.TIME_STEP_HI, 0xFFFFFFFF)])
/-- Hypotheses of `Obligations.DeviceTime`, clause by clause. -/
theorem test_witness_DeviceTime :
  (wDeviceTime0.dev.bit Reg.TIME_PPS_CTL 1 = true ∧ Dev.Due (wDeviceTime0.dev.tsrv.ppsWait + 2000000000) wDeviceTime0.dev) ∧
  (wDeviceTime0.dev.bit Reg.TIME_PPS_CTL 1 = true ∧ (∀ (k : Nat), wDeviceTime0.dev.tsrv.ppsLast = some k → k + 500000000 ≤ 0) ∧
      wDeviceTime0.dev.bit Reg.TIME_PPS_CTL 2 = false) ∧
  (wDeviceTime1.dev.bit Reg.TIME_PPS_CTL 1 = true ∧ ∃ k, wDeviceTime1.dev.tsrv.ppsLast = some k ∧ 0 < k + 500000000) ∧
  (wDeviceTime0.dev.bit Reg.TIME_PPS_CTL 0 = true ∧ wDeviceTime0.dev.bit Reg.SYS_READY 9 = true ∧
      Dev.Due (gridFrom (max wDeviceTime0.dev.now wDeviceTime0.dev.tsrv.ppsNext) (wDeviceTime0.dev.fld Reg.TIME_PPS_OFS 0 30) 1000000000) wDeviceTime0.dev) ∧
  (Dev.BusOpen Master.supv Reg.TIME_ANCHOR wDeviceTime0.dev ∧ wDeviceTime0.dev.atmRuns = false ∧ wDeviceTime0.dev.anyRun = false ∧
      fieldOf (0#32) 0 18 < wDeviceTime0.dev.fld Reg.TIME_PERIOD 0 18) ∧
  (Dev.BusOpen Master.supv Reg.TIME_ANCHOR wDeviceTime3.dev ∧ ¬(wDeviceTime3.dev.atmRuns = false ∧ wDeviceTime3.dev.anyRun = false ∧
      fieldOf (0#32) 0 18 < wDeviceTime3.dev.fld Reg.TIME_PERIOD 0 18)) ∧
  (Dev.BusOpen Master.supv Reg.TIME_PERIOD wDeviceTime0.dev ∧ wDeviceTime0.dev.atmRuns = false ∧ wDeviceTime0.dev.anyRun = false ∧ 10000 ≤ fieldOf (1901264898#32) 0 18 ∧
      fieldOf (1901264898#32) 0 18 ≤ 200000 ∧ fieldOf (1901264898#32) 0 18 % 10 = 0 ∧ wDeviceTime0.dev.fld Reg.TIME_ANCHOR 0 18 < fieldOf (1901264898#32) 0 18 ∧
      phasesOk (wDeviceTime0.dev.tb.engStart / 10) (wDeviceTime0.dev.tb.outPhase / 10) (fieldOf (1901264898#32) 0 18) = true ∧
      phasesOk (wDeviceTime0.dev.fld Reg.TIME_PHASES 0 16) (wDeviceTime0.dev.fld Reg.TIME_PHASES 16 16) (fieldOf (1901264898#32) 0 18) = true) ∧
  (Dev.BusOpen Master.supv Reg.TIME_PERIOD wDeviceTime0.dev ∧ ¬(wDeviceTime0.dev.atmRuns = false ∧ wDeviceTime0.dev.anyRun = false ∧ 10000 ≤ fieldOf (0#32) 0 18 ∧
      fieldOf (0#32) 0 18 ≤ 200000 ∧ fieldOf (0#32) 0 18 % 10 = 0 ∧ wDeviceTime0.dev.fld Reg.TIME_ANCHOR 0 18 < fieldOf (0#32) 0 18 ∧
      phasesOk (wDeviceTime0.dev.tb.engStart / 10) (wDeviceTime0.dev.tb.outPhase / 10) (fieldOf (0#32) 0 18) = true ∧
      phasesOk (wDeviceTime0.dev.fld Reg.TIME_PHASES 0 16) (wDeviceTime0.dev.fld Reg.TIME_PHASES 16 16) (fieldOf (0#32) 0 18) = true)) ∧
  (Dev.BusOpen Master.supv Reg.TIME_PHASES wDeviceTime0.dev ∧ wDeviceTime0.dev.tb.oldTP = some 20000) ∧
  (Dev.BusOpen Master.supv Reg.TIME_PHASES wDeviceTime0.dev ∧ phasesOk (fieldOf (104858000#32) 0 16) (fieldOf (104858000#32) 16 16) wDeviceTime0.dev.tb.tP = true ∧
      (∀ (p : Nat), wDeviceTime0.dev.tb.oldTP = some p → phasesOk (fieldOf (104858000#32) 0 16) (fieldOf (104858000#32) 16 16) p = true) ∧
      (wDeviceTime0.dev.tb.gridPend = false ∨ phasesOk (fieldOf (104858000#32) 0 16) (fieldOf (104858000#32) 16 16) (wDeviceTime0.dev.fld Reg.TIME_PERIOD 0 18) = true)) ∧
  (Dev.BusOpen Master.supv Reg.TIME_PHASES wDeviceTime0.dev ∧ ¬(phasesOk (fieldOf (0#32) 0 16) (fieldOf (0#32) 16 16) wDeviceTime0.dev.tb.tP = true ∧
      (∀ (p : Nat), wDeviceTime0.dev.tb.oldTP = some p → phasesOk (fieldOf (0#32) 0 16) (fieldOf (0#32) 16 16) p = true) ∧
      (wDeviceTime0.dev.tb.gridPend = false ∨ phasesOk (fieldOf (0#32) 0 16) (fieldOf (0#32) 16 16) (wDeviceTime0.dev.fld Reg.TIME_PERIOD 0 18) = true))) ∧
  (Dev.BusOpen Master.supv Reg.TIME_CMD wDeviceTime0.dev ∧ fieldOf (1901264898#32) 16 16 = 29011 ∧ (1901264898#32).getLsbD 0 = false ∧ (1901264898#32).getLsbD 1 = true ∧
      (wDeviceTime0.dev.bit Reg.SYS_READY 9 = true ∨ wDeviceTime0.dev.tb.counting = false)) ∧
  (Dev.BusOpen Master.supv Reg.TIME_CMD wDeviceTime2.dev ∧ fieldOf (1901264898#32) 16 16 = 29011 ∧ (1901264898#32).getLsbD 0 = false ∧ (1901264898#32).getLsbD 1 = true ∧
      ¬(wDeviceTime2.dev.bit Reg.SYS_READY 9 = true ∨ wDeviceTime2.dev.tb.counting = false)) ∧
  (Dev.BusOpen Master.supv Reg.TIME_CMD wDeviceTime1.dev ∧ fieldOf (1901264897#32) 16 16 = 29011 ∧ (1901264897#32).getLsbD 0 = true ∧ (1901264897#32).getLsbD 1 = false ∧
      Dev.stepOk (sext 64 (wDeviceTime1.dev.pair Reg.TIME_STEP_LO Reg.TIME_STEP_HI) * 65536) wDeviceTime1.dev.nextBoundary wDeviceTime1.dev = true) ∧
  (Dev.BusOpen Master.supv Reg.TIME_CMD wDeviceTime0.dev ∧ fieldOf (1901264897#32) 16 16 = 29011 ∧ (1901264897#32).getLsbD 0 = true ∧ (1901264897#32).getLsbD 1 = false ∧
      ¬Dev.stepOk (sext 64 (wDeviceTime0.dev.pair Reg.TIME_STEP_LO Reg.TIME_STEP_HI) * 65536) wDeviceTime0.dev.nextBoundary wDeviceTime0.dev = true) := by
  repeat' apply And.intro
  all_goals decide +kernel

def wServos0 : State := st { rg [(Reg.SRV_CTL 0, 0x50000001), (Reg.SRV_CTL 1, 0x50040001), (Reg.SRV_STAT 0, 2), (Reg.SRV_STAT 1, 1), (Reg.SRV_OUTL 0, 0x200FF), (Reg.SRV_GAIN 0, 0x10004000), (Reg.TIME_SLEW, 200), (Reg.TIME_CTL, 2)] with tsrv := { inUse := 1 }, servos := [(0, { lastX := 5, integ := 77 * 2 ^ 40, smpLo := 9 })] }
def wServos1 : State := st { rg [(Reg.TIME_PPS_CTL, 6), (Reg.SRV_CTL 0, 1), (Reg.SRV_STAT 0, 2), (Reg.SRV_STAT 1, 2), (Reg.SRV_CTL 1, 0xF0090001), (Reg.SRV_OUTL 1, 0x300FF), (Reg.SRV_GAIN 1, 0x00100010)] with tsrv := { inUse := 1, pendSel := some 1 }, servos := [(1, { lastX := -4, integ := -3 })] }
def wServos2 : State := st (rg [(Reg.SRV_CTL 1, 1), (Reg.SRV_STAT 1, 2), (Reg.SRV_OUTL 1, 0x10001)])
/-- Hypotheses of `Obligations.Servos`, clause by clause. -/
theorem test_witness_Servos :
  (Dev.BusOpen Master.supv Reg.TIME_CTL wServos1.dev ∧ fieldOf (2#32) 1 2 < 3 ∧ fieldOf (2#32) 1 2 ≠ wServos1.dev.fld Reg.TIME_CTL 1 2 ∧ fieldOf (2#32) 1 2 ≠ 0) ∧
  (Dev.BusOpen Master.supv Reg.TIME_CTL wServos0.dev ∧ fieldOf (0#32) 1 2 < 3 ∧ fieldOf (0#32) 1 2 ≠ wServos0.dev.fld Reg.TIME_CTL 1 2 ∧ fieldOf (0#32) 1 2 = 0) ∧
  (Dev.BusOpen Master.supv Reg.TIME_CTL wServos1.dev ∧ fieldOf (0#32) 1 2 < 3 ∧ fieldOf (0#32) 1 2 = wServos1.dev.fld Reg.TIME_CTL 1 2) ∧
  (Dev.BusOpen Master.supv Reg.TIME_CTL wServos0.dev ∧ fieldOf (6#32) 1 2 = 3) ∧
  (wServos1.dev.srvState 1 = 2 ∧ Dev.DueOrStill ((wServos1.dev.servo 1).lastAt + wServos1.dev.fld (Reg.SRV_CTL 1) 24 4 * 1000000000 * 2 ^ (wServos1.dev.logint 1 + 7).toNat / 128) wServos1.dev ∧
      wServos1.dev.tsrv.inUse ≠ 1 + 1) ∧
  (wServos0.dev.srvState 0 = 2 ∧ Dev.DueOrStill ((wServos0.dev.servo 0).lastAt + wServos0.dev.fld (Reg.SRV_CTL 0) 24 4 * 1000000000 * 2 ^ (wServos0.dev.logint 0 + 7).toNat / 128) wServos0.dev ∧
      wServos0.dev.tsrv.inUse = 0 + 1) ∧
  (Dev.BusOpen Master.supv (Reg.SRV_SMP_HI 1) wServos0.dev ∧ (1 = 0 → wServos0.dev.bit Reg.TIME_PPS_CTL 1 = false ∨ wServos0.dev.bit Reg.TIME_PPS_CTL 2 = false) ∧
      wServos0.dev.bit (Reg.SRV_CTL 1) 0 = true ∧ wServos0.dev.srvState 1 = 1 ∧ (wServos0.dev.servo 1).agree = 0 ∧ 2 ≤ wServos0.dev.fld (Reg.SRV_CTL 1) 28 4 ∧
      wServos0.dev.tsrv.pendSel ≠ some (1 + 1)) ∧
  (Dev.BusOpen Master.supv (Reg.SRV_SMP_HI 1) wServos1.dev ∧ (1 = 0 → wServos1.dev.bit Reg.TIME_PPS_CTL 1 = false ∨ wServos1.dev.bit Reg.TIME_PPS_CTL 2 = false) ∧
      wServos1.dev.bit (Reg.SRV_CTL 1) 0 = true ∧ wServos1.dev.srvState 1 = 2 ∧
      -(↑(wServos1.dev.fld (Reg.SRV_OUTL 1) 0 16) * 65536) ≤ sext 64 ((0#32).toNat * 2 ^ 32 + BitVec.toNat (wServos1.dev.servo 1).smpLo) - ((wServos1.dev.servo 1).lastX + wServos1.dev.drift (1) ((wServos1.dev.servo 1).rej + 1)) ∧
      sext 64 ((0#32).toNat * 2 ^ 32 + BitVec.toNat (wServos1.dev.servo 1).smpLo) - ((wServos1.dev.servo 1).lastX + wServos1.dev.drift (1) ((wServos1.dev.servo 1).rej + 1)) ≤ ↑(wServos1.dev.fld (Reg.SRV_OUTL 1) 0 16) * 65536 ∧
      wServos1.dev.tsrv.pendSel ≠ some (1 + 1) ∧ (wServos1.dev.servo 1).slew = false) ∧
  (Dev.BusOpen Master.supv (Reg.SRV_SMP_HI 1) wServos2.dev ∧ (1 = 0 → wServos2.dev.bit Reg.TIME_PPS_CTL 1 = false ∨ wServos2.dev.bit Reg.TIME_PPS_CTL 2 = false) ∧
      wServos2.dev.bit (Reg.SRV_CTL 1) 0 = true ∧ wServos2.dev.srvState 1 = 2 ∧
      (↑(wServos2.dev.fld (Reg.SRV_OUTL 1) 0 16) * 65536 < sext 64 ((1#32).toNat * 2 ^ 32 + BitVec.toNat (wServos2.dev.servo 1).smpLo) - ((wServos2.dev.servo 1).lastX + wServos2.dev.drift (1) ((wServos2.dev.servo 1).rej + 1)) ∨ sext 64 ((1#32).toNat * 2 ^ 32 + BitVec.toNat (wServos2.dev.servo 1).smpLo) - ((wServos2.dev.servo 1).lastX + wServos2.dev.drift (1) ((wServos2.dev.servo 1).rej + 1)) < -(↑(wServos2.dev.fld (Reg.SRV_OUTL 1) 0 16) * 65536)) ∧
      wServos2.dev.fld (Reg.SRV_OUTL 1) 16 4 ≤ (wServos2.dev.servo 1).rej + 1) ∧
  (Dev.BusOpen Master.supv (Reg.SRV_SMP_HI 0) wServos0.dev ∧ (0 = 0 → wServos0.dev.bit Reg.TIME_PPS_CTL 1 = false ∨ wServos0.dev.bit Reg.TIME_PPS_CTL 2 = false) ∧
      wServos0.dev.bit (Reg.SRV_CTL 0) 0 = true ∧ wServos0.dev.srvState 0 = 2 ∧
      (↑(wServos0.dev.fld (Reg.SRV_OUTL 0) 0 16) * 65536 < sext 64 ((0#32).toNat * 2 ^ 32 + BitVec.toNat (wServos0.dev.servo 0).smpLo) - ((wServos0.dev.servo 0).lastX + wServos0.dev.drift (0) ((wServos0.dev.servo 0).rej + 1)) ∨ sext 64 ((0#32).toNat * 2 ^ 32 + BitVec.toNat (wServos0.dev.servo 0).smpLo) - ((wServos0.dev.servo 0).lastX + wServos0.dev.drift (0) ((wServos0.dev.servo 0).rej + 1)) < -(↑(wServos0.dev.fld (Reg.SRV_OUTL 0) 0 16) * 65536)) ∧
      ¬wServos0.dev.fld (Reg.SRV_OUTL 0) 16 4 ≤ (wServos0.dev.servo 0).rej + 1) ∧
  (Dev.BusOpen Master.supv (Reg.SRV_SMP_HI 0) wServos1.dev ∧ 0 = 0 ∧ wServos1.dev.bit Reg.TIME_PPS_CTL 1 = true ∧ wServos1.dev.bit Reg.TIME_PPS_CTL 2 = true) := by
  repeat' apply And.intro
  all_goals first | decide +kernel | (unfold Dev.DueOrStill; decide +kernel)

def eg0 : EgFrame := { slots := [0], len := 64, tci := 1, src := 0, stamp := 0, steps := 0 }
def eg0s : List EgFrame := [eg0]
def bEthernetPortsAndSwitch1 : List Byte := [2,0,0,0,0,5, 6,0,0,0,0,7, 0x12,0x34] ++ List.replicate 50 9
def bEthernetPortsAndSwitch2 : List Byte := [2,0,0,0,0,5, 6,0,0,0,0,7, 0x88,0x08] ++ List.replicate 50 9
def wEthernetPortsAndSwitch0 : State := st { rg [(Reg.ETH_CTL 0, 1), (Reg.ETH_CTL 1, 1), (Reg.ETH_STAT 1, 1), (Reg.ETH_MAXLEN 0, 1522), (Reg.ETH_MAXLEN 1, 1522), (Reg.SW_CTL, 1), (Reg.SW_PORT 0, 0x2001), (Reg.SW_VLAN_0, 0x80003001 + 0x20000), (Reg.SW_BUF, 100), (Reg.QM_STAT, 8000), (Reg.QM_CTL, 1), (Reg.QM_Q_CFG 9, 9)] with net := { macs := [(1, 0x020000000005, 1, 0)], egress := [(9, [eg0, eg0])], queues := [(9, [{ slots := [7], len := 60, vis := true, ended := true }])] } }
def wEthernetPortsAndSwitch1 : State := st { rg [(Reg.ETH_CTL 0, 1), (Reg.ETH_STAT 0, 1), (Reg.ETH_MAXLEN 0, 1522), (Reg.SW_CTL, 0x11), (Reg.SW_PORT 0, 0x2001), (Reg.SW_VLAN_0, 0x80003001), (Reg.SW_BUF, 100), (Reg.QM_STAT, 8000), (Reg.SW_MDIO, 0x800)] with net := { egress := [(7, [eg0])], txts := [(0, [(3, 4, 5), (7, 8, 9)])] } }
/-- Hypotheses of `Obligations.EthernetPortsAndSwitch`, clause by clause. -/
theorem test_witness_EthernetPortsAndSwitch :
  (wEthernetPortsAndSwitch0.dev.busCode Master.supv (Reg.ETH_TXTS_INFO 0) AccSize.b32 false = none ∧
      wEthernetPortsAndSwitch0.dev.shadow.getD 0 (shadowKey Master.supv (Reg.ETH_TXTS_INFO 0)) = 0 ∧ List.drop 1 (wEthernetPortsAndSwitch0.dev.net.txts.getD [] 0) = []) ∧
  (wEthernetPortsAndSwitch1.dev.busCode Master.supv (Reg.ETH_TXTS_INFO 0) AccSize.b32 false = none ∧
      wEthernetPortsAndSwitch1.dev.shadow.getD 0 (shadowKey Master.supv (Reg.ETH_TXTS_INFO 0)) = 0 ∧
      List.drop 1 (wEthernetPortsAndSwitch1.dev.net.txts.getD [] 0) = [(7, 8, 9)]) ∧
  (wEthernetPortsAndSwitch1.dev.bit Reg.SW_MDIO 11 = true) ∧
  (Dev.BusOpen Master.supv Reg.SW_MDIO wEthernetPortsAndSwitch1.dev ∧ (2048#32).getLsbD 11 = true ∧ wEthernetPortsAndSwitch1.dev.bit Reg.SW_MDIO 11 = true) ∧
  (Dev.BusOpen Master.supv Reg.SW_MDIO wEthernetPortsAndSwitch0.dev ∧ (2048#32).getLsbD 11 = true ∧ ¬wEthernetPortsAndSwitch0.dev.bit Reg.SW_MDIO 11 = true) ∧
  (∀ (e : Nat × Nat × Nat × Nat), e ∈ wEthernetPortsAndSwitch0.dev.net.macs → e.fst = (0#12).toNat → e.snd.fst = (0#48).toNat → Dev.DueOrStill (e.snd.snd.snd + wEthernetPortsAndSwitch0.dev.fld Reg.SW_AGE 0 16 * 1000000000) wEthernetPortsAndSwitch0.dev) ∧
  (wEthernetPortsAndSwitch0.dev.NetRuns ∧ ∃ q, (fun q => q < 64 ∧ wEthernetPortsAndSwitch0.dev.bit Reg.QM_CTL 0 = true ∧
      wEthernetPortsAndSwitch0.dev.bit (Reg.QM_Q_CFG q) 0 = true ∧ wEthernetPortsAndSwitch0.dev.qCons q = 1 ∧ (wEthernetPortsAndSwitch0.dev.qHead q).isSome = true) q) ∧
  (wEthernetPortsAndSwitch1.dev.NetRuns ∧ 0 < 4 ∧ wEthernetPortsAndSwitch1.dev.bit (Reg.ETH_CTL 0) 0 = true ∧
      wEthernetPortsAndSwitch1.dev.bit (Reg.ETH_STAT 0) 0 = true ∧ wEthernetPortsAndSwitch1.dev.nextEgress 0 = some 7 ∧
      wEthernetPortsAndSwitch1.dev.net.egress.getD [] 7 = [eg0] ∧ Dev.PktClean eg0.slots eg0.len wEthernetPortsAndSwitch1.dev ∧
      ptpAt (wEthernetPortsAndSwitch1.dev.pktBytes eg0.slots eg0.len) = none ∧ eg0.tsreq = false ∧ wEthernetPortsAndSwitch1.dev.vlan (eg0.tci % 4096) = some (3, 0) ∧
      max 60 (eg0.len + if nbit 0 0 = true then 0 else 4) + 4 ≤ wEthernetPortsAndSwitch1.dev.fld (Reg.ETH_MAXLEN 0) 0 14) ∧
  (wEthernetPortsAndSwitch1.dev.NetRuns ∧ wEthernetPortsAndSwitch1.dev.bit (Reg.ETH_CTL 0) 0 = true ∧
      ¬(bEthernetPortsAndSwitch1.length < 60 ∨ wEthernetPortsAndSwitch1.dev.fld (Reg.ETH_MAXLEN 0) 0 14 < bEthernetPortsAndSwitch1.length + 4) ∧ true = true ∧
      fieldAt bEthernetPortsAndSwitch1 12 2 ≠ 34824 ∧ isTagged bEthernetPortsAndSwitch1 = false ∧ wEthernetPortsAndSwitch1.dev.prpEn = false ∧
      wEthernetPortsAndSwitch1.dev.bit Reg.SW_CTL 0 = true ∧ wEthernetPortsAndSwitch1.dev.bit (Reg.SW_PORT 0) 16 = false ∧
      wEthernetPortsAndSwitch1.dev.vlan (wEthernetPortsAndSwitch1.dev.fld (Reg.SW_PORT 0) 0 12) = some (3, 0) ∧ nbit 3 0 = true ∧
      wEthernetPortsAndSwitch1.dev.bit Reg.SW_CTL 4 = true ∧ wEthernetPortsAndSwitch1.dev.net.macs.length < 4) ∧
  (wEthernetPortsAndSwitch0.dev.NetRuns ∧ wEthernetPortsAndSwitch0.dev.bit (Reg.ETH_CTL 0) 0 = true ∧
      ¬(bEthernetPortsAndSwitch1.length < 60 ∨ wEthernetPortsAndSwitch0.dev.fld (Reg.ETH_MAXLEN 0) 0 14 < bEthernetPortsAndSwitch1.length + 4) ∧ true = true ∧
      fieldAt bEthernetPortsAndSwitch1 12 2 ≠ 34824 ∧ isTagged bEthernetPortsAndSwitch1 = false ∧ looksPtp bEthernetPortsAndSwitch1 = false ∧
      wEthernetPortsAndSwitch0.dev.prpEn = false ∧ wEthernetPortsAndSwitch0.dev.tc < 2 ∧ wEthernetPortsAndSwitch0.dev.bit Reg.SW_CTL 0 = true ∧
      wEthernetPortsAndSwitch0.dev.bit (Reg.SW_PORT 0) 16 = false ∧
      wEthernetPortsAndSwitch0.dev.vlan (wEthernetPortsAndSwitch0.dev.fld (Reg.SW_PORT 0) 0 12) = some (3, 1) ∧ nbit 3 0 = true ∧ nbit 3 1 = true ∧ 1 < 4 ∧ 1 ≠ 0 ∧
      fieldAt bEthernetPortsAndSwitch1 0 6 / 2 ^ 40 % 2 = 0 ∧ wEthernetPortsAndSwitch0.dev.bit Reg.SW_CTL 4 = false ∧
      List.find? (fun e => e.fst == wEthernetPortsAndSwitch0.dev.fld (Reg.SW_PORT 0) 0 12 && e.snd.fst == fieldAt bEthernetPortsAndSwitch1 0 6) wEthernetPortsAndSwitch0.dev.net.macs = some (wEthernetPortsAndSwitch0.dev.fld (Reg.SW_PORT 0) 0 12, fieldAt bEthernetPortsAndSwitch1 0 6, 1, 0) ∧
      wEthernetPortsAndSwitch0.dev.egSlots + slotsFor bEthernetPortsAndSwitch1.length ≤ wEthernetPortsAndSwitch0.dev.fld Reg.SW_BUF 0 14 ∧
      slotsFor bEthernetPortsAndSwitch1.length ≤ wEthernetPortsAndSwitch0.dev.freeSlots ∧ 10 = 8 * 1 + wEthernetPortsAndSwitch0.dev.fld (Reg.SW_PORT 0) 12 3) ∧
  (wEthernetPortsAndSwitch0.dev.NetRuns ∧ wEthernetPortsAndSwitch0.dev.bit (Reg.ETH_CTL 0) 0 = true ∧
      ¬(bEthernetPortsAndSwitch2.length < 60 ∨ wEthernetPortsAndSwitch0.dev.fld (Reg.ETH_MAXLEN 0) 0 14 < bEthernetPortsAndSwitch2.length + 4) ∧ true = true ∧
      fieldAt (untag bEthernetPortsAndSwitch2) 12 2 = 34824) ∧
  (wEthernetPortsAndSwitch0.dev.NetRuns ∧ wEthernetPortsAndSwitch0.dev.bit (Reg.ETH_CTL 0) 0 = true ∧
      ¬(bEthernetPortsAndSwitch1.length < 60 ∨ wEthernetPortsAndSwitch0.dev.fld (Reg.ETH_MAXLEN 0) 0 14 < bEthernetPortsAndSwitch1.length + 4) ∧ false = false) ∧
  (wEthernetPortsAndSwitch0.dev.NetRuns ∧ wEthernetPortsAndSwitch0.dev.bit (Reg.ETH_CTL 0) 0 = true ∧
      (([] : List Byte).length < 60 ∨ wEthernetPortsAndSwitch0.dev.fld (Reg.ETH_MAXLEN 0) 0 14 < ([] : List Byte).length + 4)) ∧
  (wEthernetPortsAndSwitch1.dev.domainOn 5 = true ∧ (true = true → wEthernetPortsAndSwitch1.dev.bit (Reg.ETH_CTL 0) 0 = true) ∧
      true = wEthernetPortsAndSwitch1.dev.bit (Reg.ETH_STAT 0) 0) ∧
  (wEthernetPortsAndSwitch0.dev.domainOn 5 = true ∧ (true = true → wEthernetPortsAndSwitch0.dev.bit (Reg.ETH_CTL 0) 0 = true) ∧
      ¬true = wEthernetPortsAndSwitch0.dev.bit (Reg.ETH_STAT 0) 0) := by
  repeat' apply And.intro
  all_goals first | decide +kernel | (unfold Dev.PktClean; decide +kernel) | (unfold Dev.DueOrStill; decide +kernel)

def kPacketQueues1 : Pkt := { slots := [5], len := 0x200, vis := true, written := 3 }
def kPacketQueues2 : Pkt := { slots := [4], len := 7, vis := true, ended := true }
def wPacketQueues0 : State := st { rg [(Reg.QM_CTL, 1), (Reg.QM_Q_CFG 0, 1), (Reg.QM_Q_CFG 63, 1), (Reg.QM_Q_LIM 0, 0x100100), (Reg.QM_STAT, 8191)] with net := { queues := [(63, [{ slots := [4], len := 7, vis := true, ended := true }, { slots := [5], len := 0x200 }])] } }
def wPacketQueues1 : State := st { rg [(Reg.QM_CTL, 1), (Reg.QM_Q_CFG 0, 1), (Reg.QM_Q_LIM 0, 0x000100), (Reg.QM_STAT, 8191)] with net := { queues := [(63, [{ slots := [5], len := 0x200, vis := true, written := 3 }])] } }
/-- Hypotheses of `Obligations.PacketQueues`, clause by clause. -/
theorem test_witness_PacketQueues :
  (Dev.BusOpen Master.supv (Reg.QM_Q_CMD 0) wPacketQueues0.dev ∧ fieldOf (8#32) 0 4 = 8 ∧
      ∀ (p : Pkt) (rest : List Pkt), wPacketQueues0.dev.qpkts 0 = p :: rest → p.vis = false) ∧
  (Dev.BusOpen Master.supv (Reg.QM_Q_CMD 63) wPacketQueues0.dev ∧ fieldOf (8#32) 0 4 = 8 ∧
      wPacketQueues0.dev.qpkts 63 = [kPacketQueues2, { slots := [5], len := 512 : Pkt }] ∧ kPacketQueues2.vis = true ∧ 0 ≠ 63) ∧
  (Dev.BusOpen Master.supv (Reg.QM_Q_CMD 0) wPacketQueues0.dev ∧ fieldOf (4#32) 0 4 = 4 ∧
      ∀ (p : Pkt) (rest : List Pkt), wPacketQueues0.dev.qpkts 0 = p :: rest → p.vis = false) ∧
  (Dev.BusOpen Master.supv (Reg.QM_Q_CMD 63) wPacketQueues0.dev ∧ fieldOf (4#32) 0 4 = 4 ∧
      wPacketQueues0.dev.qpkts 63 = [kPacketQueues2, { slots := [5], len := 512 : Pkt }] ∧ kPacketQueues2.vis = true ∧ 0 ≠ 63) ∧
  (Dev.BusOpen Master.supv (Reg.QM_Q_CMD 63) wPacketQueues1.dev ∧ wPacketQueues1.dev.qProd 63 = 0 ∧ wPacketQueues1.dev.qOpenPkt 63 = some kPacketQueues1 ∧
      kPacketQueues1.drop = false ∧ fieldOf (2#32) 0 4 = 2 ∧ kPacketQueues1.vis = true) ∧
  (Dev.BusOpen Master.supv (Reg.QM_Q_CMD 63) wPacketQueues0.dev ∧ wPacketQueues0.dev.qProd 63 = 0 ∧
      wPacketQueues0.dev.qOpenPkt 63 = some { slots := [5], len := 512 : Pkt } ∧ { slots := [5], len := 512 : Pkt }.drop = false ∧ fieldOf (2#32) 0 4 = 2 ∧
      ¬{ slots := [5], len := 512 : Pkt }.vis = true) ∧
  (Dev.BusOpen Master.supv (Reg.QM_Q_CMD 63) wPacketQueues0.dev ∧ wPacketQueues0.dev.qProd 63 = 0 ∧
      wPacketQueues0.dev.qOpenPkt 63 = some { slots := [5], len := 512 : Pkt } ∧ { slots := [5], len := 512 : Pkt }.drop = false ∧ fieldOf (1#32) 0 4 = 1 ∧
      fieldOf (1#32) 16 16 ≤ { slots := [5], len := 512 : Pkt }.len) ∧
  (Dev.BusOpen Master.supv (Reg.QM_Q_CMD 63) wPacketQueues1.dev ∧ wPacketQueues1.dev.qProd 63 = 0 ∧ wPacketQueues1.dev.qOpenPkt 63 = some kPacketQueues1 ∧
      kPacketQueues1.drop = false ∧ fieldOf (50331649#32) 0 4 = 1 ∧ ¬fieldOf (50331649#32) 16 16 ≤ kPacketQueues1.len ∧ kPacketQueues1.vis = true) ∧
  (Dev.BusOpen Master.supv (Reg.QM_Q_CMD 63) wPacketQueues0.dev ∧ wPacketQueues0.dev.qProd 63 = 0 ∧
      wPacketQueues0.dev.qOpenPkt 63 = some { slots := [5], len := 512 : Pkt } ∧ { slots := [5], len := 512 : Pkt }.drop = false ∧ fieldOf (50331649#32) 0 4 = 1 ∧
      ¬fieldOf (50331649#32) 16 16 ≤ { slots := [5], len := 512 : Pkt }.len ∧ ¬{ slots := [5], len := 512 : Pkt }.vis = true) ∧
  (Dev.BusOpen Master.supv (Reg.QM_Q_CMD 0) wPacketQueues0.dev ∧ wPacketQueues0.dev.qProd 0 = 0 ∧ wPacketQueues0.dev.qOpenPkt 0 = none ∧ fieldOf (2#32) 0 4 = 2) ∧
  (Dev.BusOpen Master.supv (Reg.QM_Q_CMD 0) wPacketQueues0.dev ∧ wPacketQueues0.dev.qProd 0 = 0 ∧ wPacketQueues0.dev.qOpenPkt 0 = none ∧ fieldOf (1#32) 0 4 = 1) ∧
  (Dev.BusOpen Master.supv (Reg.QM_Q_OPEN 0) wPacketQueues0.dev ∧ wPacketQueues0.dev.qFor (0) 0 = true ∧ wPacketQueues0.dev.qOpenPkt 0 = none ∧ 0 < fieldOf (1#32) 0 16 ∧
      fieldOf (1#32) 0 16 < 65535 ∧ fieldOf (1#32) 0 16 ≤ wPacketQueues0.dev.qMaxLen 0 ∧ slotsFor (fieldOf (1#32) 0 16) ≤ wPacketQueues0.dev.qRoom 0 ∧ 1 ≠ 0) ∧
  (Dev.BusOpen Master.supv (Reg.QM_Q_OPEN 0) wPacketQueues1.dev ∧ wPacketQueues1.dev.qFor (0) 0 = true ∧ wPacketQueues1.dev.qOpenPkt 0 = none ∧ 0 < fieldOf (1#32) 0 16 ∧
      fieldOf (1#32) 0 16 < 65535 ∧ fieldOf (1#32) 0 16 ≤ wPacketQueues1.dev.qMaxLen 0 ∧ wPacketQueues1.dev.qRoom 0 < slotsFor (fieldOf (1#32) 0 16)) ∧
  (Dev.BusOpen Master.supv (Reg.QM_Q_OPEN 0) wPacketQueues0.dev ∧ wPacketQueues0.dev.qFor (0) 0 = true ∧ wPacketQueues0.dev.qOpenPkt 0 = none ∧
      (fieldOf (0#32) 0 16 = 0 ∨ fieldOf (0#32) 0 16 = 65535 ∨ wPacketQueues0.dev.qMaxLen 0 < fieldOf (0#32) 0 16)) ∧
  (Dev.BusOpen Master.supv (Reg.QM_Q_OPEN 1) wPacketQueues0.dev ∧ (wPacketQueues0.dev.qFor (1) 0 = false ∨ (wPacketQueues0.dev.qOpenPkt 1).isSome = true)) := by
  repeat' apply And.intro
  all_goals first | decide +kernel | (intro p rest h; cases h)

def wCheckValueUnits0 : State := st (rg [(Reg.CRC_CFG 0, 0x2720), (Reg.CRC_POLY 0, 0x04C11DB7), (Reg.CRC_INIT 0, 0xFFFFFFFF), (Reg.CRC_FOLD 0, 0x12345678), (Reg.CRC_VAL 0, 77), (Reg.CRC_XOR 0, 0xFFFFFFFF), (Reg.CRC_CFG 1, 0x808), (Reg.CRC_POLY 1, 7), (Reg.CRC_VAL 1, 0xFF),(Reg.CRC_FOLD 1, 0xFFFFFFFF), (Reg.CRC_CFG 2, 0x1405), (Reg.CRC_POLY 2, 0x15), (Reg.CRC_FOLD 2, 0x12345678)])
/-- Hypotheses of `Obligations.CheckValueUnits`, clause by clause. -/
theorem test_witness_CheckValueUnits :
  (Dev.BusOpen Master.supv (Reg.CRC_CFG 0) wCheckValueUnits0.dev ∧ (fieldOf (0#32) 0 6 = 0 ∨ 32 < fieldOf (0#32) 0 6 ∨ 4 < fieldOf (0#32) 11 3)) ∧
  (Dev.BusOpen Master.supv (Reg.CRC_CFG 0) wCheckValueUnits0.dev ∧ ¬(fieldOf (1#32) 0 6 = 0 ∨ 32 < fieldOf (1#32) 0 6 ∨ 4 < fieldOf (1#32) 11 3)) ∧
  (wCheckValueUnits0.dev.busCode Master.supv (Reg.CRC_RES 0) AccSize.b32 false = none ∧ wCheckValueUnits0.dev.shadow.getD 0 (shadowKey Master.supv (Reg.CRC_RES 0)) = 0) ∧
  (Dev.BusOpen Master.supv (Reg.CRC_VAL 0) wCheckValueUnits0.dev) ∧
  (Dev.BusOpen Master.supv (dinAddr (0) DinW.d8) wCheckValueUnits0.dev) ∧
  (Dev.BusOpen Master.supv (Reg.CRC_CMD 0) wCheckValueUnits0.dev ∧ (1#32).getLsbD 0 = true) := by
  repeat' apply And.intro
  all_goals decide +kernel

def wSupervisorWatch0 : State := st { rg [(Reg.FC_EN 2, 0xFFFFFFFF), (Reg.SYS_READY_EVT, 1), (Reg.SYS_READY_IEN, 1)] with boot := { runs := true }, sup := { ie := true, sysr := [(0x200, 2), (0x300, 1), (0x302, 0), (0x304, 3), (0x305, 9), (0x310, 1), (0x312, 5), (0x314, 5)] } }
def wSupervisorWatch1 : State := st { rg [(Reg.FC_EN 2, 0xFFFFFFFF), (Reg.SCB_CTL, 1), (Reg.SYS_BOOT, 3), (Reg.SYS_SUPV_CAUSE, 0xFF00)] with boot := { runs := true, policy := 1 }, sup := { sysr := [(0x310, 1)], warned := true } }
/-- Hypotheses of `Obligations.SupervisorWatch`, clause by clause. -/
theorem test_witness_SupervisorWatch :
  (1#5 ≠ 0 ∧ 1#5 ≠ 4 ∧ 1#5 ≠ 5 ∧ wSupervisorWatch0.dev.pwr.mainGood = true ∧ wSupervisorWatch0.dev.pwr.resetHi = true) ∧
  (1#5 ≠ 0 ∧ 1#5 ≠ 4 ∧ 1#5 ≠ 5 ∧ wSupervisorWatch0.dev.pwr.safeOn = true) ∧
  (0#5 = 0 ∨ 0#5 = 4 ∨ 0#5 = 5) ∧
  ((5#5 = 0 ∨ 5#5 = 4 ∨ 5#5 = 5) ∧ 5#5 = 5) ∧
  ((0#5 = 0 ∨ 0#5 = 4 ∨ 0#5 = 5) ∧ wSupervisorWatch0.dev.pwr.safeOn = true) ∧
  (1#5 = 1) ∧
  (Dev.BusOpen Master.supv Reg.SCB_DBG wSupervisorWatch0.dev ∧ (65536#32).getLsbD 16 = true) ∧
  (Dev.BusOpen Master.supv Reg.SCB_DBG wSupervisorWatch0.dev ∧ (0#32).getLsbD 16 = false) ∧
  (wSupervisorWatch0.dev.wdRuns = true ∧ wSupervisorWatch0.dev.sup.warned = false) ∧
  (wSupervisorWatch1.dev.wdRuns = true ∧ wSupervisorWatch1.dev.bit Reg.SCB_CTL 0 = true) ∧
  (wSupervisorWatch0.dev.wdRuns = true ∧ ¬wSupervisorWatch0.dev.bit Reg.SCB_CTL 0 = true ∧ wSupervisorWatch0.dev.pwr.queue = [] ∧
      wSupervisorWatch0.dev.pwr.restart = false) ∧
  (wSupervisorWatch0.dev.wdRuns = true ∧ ¬wSupervisorWatch0.dev.bit Reg.SCB_CTL 0 = true ∧ wSupervisorWatch0.dev.srcEnabled 94 = true) ∧
  (wSupervisorWatch0.dev.domainOn 2 = true ∧ BitVec.getLsbD (wSupervisorWatch0.dev.sysr 784) 0 = true ∧ fieldOf (50010#32) 0 16 = 50010 ∧
      BitVec.toNat (wSupervisorWatch0.dev.sysr 786) ≤ BitVec.toNat (wSupervisorWatch0.dev.sysr 788)) ∧
  (wSupervisorWatch1.dev.domainOn 2 = true ∧ BitVec.getLsbD (wSupervisorWatch1.dev.sysr 784) 0 = true ∧ ¬(fieldOf (0#32) 0 16 = 50010 ∧
      BitVec.toNat (wSupervisorWatch1.dev.sysr 786) ≤ BitVec.toNat (wSupervisorWatch1.dev.sysr 788)) ∧ wSupervisorWatch1.dev.bit Reg.SCB_CTL 0 = true) ∧
  (wSupervisorWatch0.dev.domainOn 2 = true ∧ BitVec.getLsbD (wSupervisorWatch0.dev.sysr 784) 0 = true ∧ ¬(fieldOf (0#32) 0 16 = 50010 ∧
      BitVec.toNat (wSupervisorWatch0.dev.sysr 786) ≤ BitVec.toNat (wSupervisorWatch0.dev.sysr 788)) ∧ ¬wSupervisorWatch0.dev.bit Reg.SCB_CTL 0 = true ∧
      wSupervisorWatch0.dev.pwr.queue = [] ∧ wSupervisorWatch0.dev.pwr.restart = false) ∧
  (wSupervisorWatch0.dev.domainOn 2 = true ∧ BitVec.getLsbD (wSupervisorWatch0.dev.sysr 784) 0 = true ∧ ¬(fieldOf (0#32) 0 16 = 50010 ∧
      BitVec.toNat (wSupervisorWatch0.dev.sysr 786) ≤ BitVec.toNat (wSupervisorWatch0.dev.sysr 788)) ∧ ¬wSupervisorWatch0.dev.bit Reg.SCB_CTL 0 = true ∧
      wSupervisorWatch0.dev.srcEnabled 94 = true) ∧
  (wSupervisorWatch0.dev.domainOn 2 = true ∧ BitVec.getLsbD (wSupervisorWatch0.dev.sysr (768 + 4 * 1)) 0 = true ∧
      BitVec.getLsbD (wSupervisorWatch0.dev.sysr (768 + 4 * 1)) 1 = true) ∧
  (wSupervisorWatch0.dev.domainOn 2 = true ∧ BitVec.getLsbD (wSupervisorWatch0.dev.sysr (768 + 4 * 0)) 0 = true ∧
      ¬BitVec.getLsbD (wSupervisorWatch0.dev.sysr (768 + 4 * 0)) 1 = true) ∧
  (wSupervisorWatch0.dev.supRuns = true ∧ wSupervisorWatch0.dev.sup.ie = true ∧ 1 < 64 ∧ wSupervisorWatch0.dev.irqEn 1 = true ∧ wSupervisorWatch0.dev.irqLine 1 = true ∧
      ∀ (j : Nat), j < 1 → wSupervisorWatch0.dev.irqEn j = false ∨ wSupervisorWatch0.dev.irqLine j = false) ∧
  (wSupervisorWatch0.dev.domainOn 2 = true ∧ wSupervisorWatch0.dev.pwr.queue = [] ∧ wSupervisorWatch0.dev.pwr.restart = false) ∧
  (wSupervisorWatch0.dev.domainOn 2 = true ∧ wSupervisorWatch0.dev.srcEnabled 94 = true) := by
  repeat' apply And.intro
  all_goals decide +kernel

def xBootAndFuses0 : Image := { bytes := beBytes 64 0x535056490102030009000000080000000001000004010000000000000000000066840dda154e8a113c31dd0ad32f7f3a366a80e8136979d8f5a101d3d29d6f72 ++ beBytes 64 0x14b8a2c95626f164e38703bd976b200e0650503e4b701ecbf29f96abf786d31f9b978f67b1ea482736e63b98c445745a521135bf468d6d0c168ef66a4163f46f ++ beBytes 64 0x8dd0cb91f783328c76cbdbdc3106e4435e34cd7635a747f135f4457e8ecf1a6ccc88cc3d924c0e7d4f1e2233d34e8bbe27f55bd2d72c8aaf293e4598a9327cc2 ++ List.replicate 64 0 ++ beBytes 8 0x0102030405060708 }
def xBootAndFuses2 : Image := { bytes := beBytes 64 0x535056490102030000000000080000000001000004010000000000000000000066840dda154e8a113c31dd0ad32f7f3a366a80e8136979d8f5a101d3d29d6f72 ++ beBytes 64 0x14b8a2c95626f164e38703bd976b200e0650503e4b701ecbf29f96abf786d31f9b978f67b1ea482736e63b98c445745a521135bf468d6d0c168ef66a4163f46f ++ beBytes 64 0x34bd6e33388c49e6c136f6d1c5b98933c7e728e58e8bff31849e444b4efe3ed85ee811f15f75beac57b050dddcbaf5ad6f1317350416b731c972c36bcebcdeaf ++ List.replicate 64 0 ++ beBytes 8 0x0102030405060708 }
def oxBootAndFuses1 : Option Image := some { bytes := beBytes 64 0x535056490102030009000000080000000001000004010000000000000000000066840dda154e8a113c31dd0ad32f7f3a366a80e8136979d8f5a101d3d29d6f72 ++ beBytes 64 0x14b8a2c95626f164e38703bd976b200e0650503e4b701ecbf29f96abf786d31f9b978f67b1ea482736e63b98c445745a521135bf468d6d0c168ef66a4163f46f ++ beBytes 64 0x8dd0cb91f783328c76cbdbdc3106e4435e34cd7635a747f135f4457e8ecf1a6ccc88cc3d924c0e7d4f1e2233d34e8bbe27f55bd2d72c8aaf293e4598a9327cc2 ++ List.replicate 64 0 ++ beBytes 8 0x0102030405060708 }
def wBootAndFuses0 : State := st { rg [(Reg.SYS_SUPV_CAUSE, 1)] with boot := { prog := 0xF, svn := 3, keyIdx := 2, hashes := [(16, 0xf0a1a330), (17, 0x7a233d8a), (18, 0xb1c1e3f8), (19, 0x66a98b7c), (20, 0xce96f463), (21, 0x169f1bd5), (22, 0xcbfcb29f), (23, 0xfb40ab92)] } }
def wBootAndFuses1 : State := st { rg [(Reg.SYS_SUPV_CAUSE, 1), (Reg.SYS_BOOT, 0x71)] with boot := { prog := 0xF, serving := true, hashes := [(16, 0xf0a1a330), (17, 0x7a233d8a), (18, 0xb1c1e3f8), (19, 0x66a98b7c), (20, 0xce96f463), (21, 0x169f1bd5), (22, 0xcbfcb29f), (23, 0xfb40ab92)] } }
def wBootAndFuses2 : State := st { dv with boot := { fuseOp := some (1, 5), svnMin := 2 } }
def wBootAndFuses3 : State := st { dv with boot := { fuseOp := some (2, 1) }, sup := { sys := false } }
/-- Hypotheses of `Obligations.BootAndFuses`, clause by clause. -/
theorem test_witness_BootAndFuses :
  (wBootAndFuses3.dev.boot.fuseOp = some (2, 1) ∧ 2 = 2) ∧
  (wBootAndFuses2.dev.boot.fuseOp = some (1, 5) ∧ 1 = 1) ∧
  (Dev.BusOpen Master.supv Reg.BOOT_FUSE_CMD wBootAndFuses0.dev ∧ fieldOf (4032692738#32) 16 16 = 61534 ∧ fieldOf (4032692738#32) 0 2 = 2 ∧ Master.supv = Master.supv ∧
      wBootAndFuses0.dev.sup.sys = true ∧ wBootAndFuses0.dev.boot.fuseOp = none) ∧
  (Dev.BusOpen Master.supv Reg.BOOT_FUSE_CMD wBootAndFuses1.dev ∧ fieldOf (4032692738#32) 16 16 = 61534 ∧ fieldOf (4032692738#32) 0 2 = 2 ∧ Master.supv = Master.supv ∧
      wBootAndFuses1.dev.sup.sys = true ∧ wBootAndFuses1.dev.boot.fuseOp = none ∧
      ¬(3 < fieldOf (4032692738#32) 8 8 ∨ fieldOf (4032692738#32) 8 8 = wBootAndFuses1.dev.boot.keyIdx ∨ ∀ (k : Nat), k < 4 → (wBootAndFuses1.dev.boot.revoked.getLsbD k = false ↔ k = fieldOf (4032692738#32) 8 8))) ∧
  (Dev.BusOpen Master.supv Reg.BOOT_FUSE_CMD wBootAndFuses0.dev ∧ fieldOf (4032692738#32) 16 16 = 61534 ∧ fieldOf (4032692738#32) 0 2 = 2 ∧
      (Master.supv ≠ Master.supv ∨ wBootAndFuses0.dev.sup.sys = false ∨ wBootAndFuses0.dev.boot.fuseOp.isSome = true ∨ 3 < fieldOf (4032692738#32) 8 8 ∨ fieldOf (4032692738#32) 8 8 = wBootAndFuses0.dev.boot.keyIdx ∨ ∀ (k : Nat), k < 4 → (wBootAndFuses0.dev.boot.revoked.getLsbD k = false ↔ k = fieldOf (4032692738#32) 8 8))) ∧
  (Dev.BusOpen Master.supv Reg.BOOT_FUSE_CMD wBootAndFuses0.dev ∧ fieldOf (4032692993#32) 16 16 = 61534 ∧ fieldOf (4032692993#32) 0 2 = 1 ∧ Master.supv = Master.supv ∧
      wBootAndFuses0.dev.sup.sys = true ∧ wBootAndFuses0.dev.boot.fuseOp = none ∧
      ¬(wBootAndFuses0.dev.boot.svn < fieldOf (4032692993#32) 8 8 ∨ 64 < fieldOf (4032692993#32) 8 8)) ∧
  (Dev.BusOpen Master.supv Reg.BOOT_FUSE_CMD wBootAndFuses1.dev ∧ fieldOf (4032692993#32) 16 16 = 61534 ∧ fieldOf (4032692993#32) 0 2 = 1 ∧
      (Master.supv ≠ Master.supv ∨ wBootAndFuses1.dev.sup.sys = false ∨ wBootAndFuses1.dev.boot.fuseOp.isSome = true ∨ wBootAndFuses1.dev.boot.svn < fieldOf (4032692993#32) 8 8 ∨ 64 < fieldOf (4032692993#32) 8 8)) ∧
  (Dev.BusOpen Master.supv Reg.SYS_BOOT wBootAndFuses0.dev) ∧
  (wBootAndFuses1.dev.domainOn 2 = true ∧ wBootAndFuses1.dev.boot.serving = true ∧ wBootAndFuses1.dev.imageOk xBootAndFuses0 true = true) ∧
  (wBootAndFuses1.dev.domainOn 2 = true ∧ wBootAndFuses1.dev.boot.serving = true ∧ ¬wBootAndFuses1.dev.imageOk xBootAndFuses2 true = true) ∧
  (wBootAndFuses0.dev.domainOn 2 = true ∧ wBootAndFuses0.dev.boot.runs = false ∧ wBootAndFuses0.dev.boot.serving = false ∧ wBootAndFuses0.dev.boot.halted = false ∧
      (wBootAndFuses0.dev.fld Reg.SYS_SUPV_CAUSE 0 3 = 0 → wBootAndFuses0.dev.fld Reg.SYS_READY 5 3 = 7) ∧
      (none = some xBootAndFuses0 ∨ oxBootAndFuses1 = some xBootAndFuses0)) ∧
  (wBootAndFuses0.dev.domainOn 2 = true ∧ wBootAndFuses0.dev.boot.runs = false ∧ wBootAndFuses0.dev.boot.serving = false ∧ wBootAndFuses0.dev.boot.halted = false ∧
      (wBootAndFuses0.dev.fld Reg.SYS_SUPV_CAUSE 0 3 = 0 → wBootAndFuses0.dev.fld Reg.SYS_READY 5 3 = 7) ∧
      ∀ (x : Image), none = some x ∨ none = some x → wBootAndFuses0.dev.imageOk x true = false) ∧
  (wBootAndFuses0.dev.domainOn 2 = true ∧ wBootAndFuses0.dev.boot.runs = false ∧ wBootAndFuses0.dev.boot.serving = false ∧ wBootAndFuses0.dev.boot.halted = false ∧
      (wBootAndFuses0.dev.fld Reg.SYS_SUPV_CAUSE 0 3 = 0 → wBootAndFuses0.dev.fld Reg.SYS_READY 5 3 = 7) ∧ oxBootAndFuses1 = some xBootAndFuses0 ∧
      oxBootAndFuses1 = some xBootAndFuses0 ∧ true = true ∧ wBootAndFuses0.dev.imageOk xBootAndFuses0 true = true ∧
      wBootAndFuses0.dev.imageOk xBootAndFuses0 true = true ∧ wBootAndFuses0.dev.bit Reg.SYS_BOOT 0 = false ∧ wBootAndFuses0.dev.fld Reg.SYS_SUPV_CAUSE 0 3 = 1) ∧
  (wBootAndFuses0.dev.domainOn 2 = true ∧ wBootAndFuses0.dev.boot.runs = false ∧ wBootAndFuses0.dev.boot.serving = false ∧ wBootAndFuses0.dev.boot.halted = false ∧
      (wBootAndFuses0.dev.fld Reg.SYS_SUPV_CAUSE 0 3 = 0 → wBootAndFuses0.dev.fld Reg.SYS_READY 5 3 = 7) ∧ oxBootAndFuses1 = some xBootAndFuses0 ∧
      (true = false ∨ (none : Option Image) = none) ∧ wBootAndFuses0.dev.imageOk xBootAndFuses0 true = true) := by
  repeat' apply And.intro
  all_goals first | decide +kernel | (intro x h; rcases h with h | h <;> cases h)

def wUartAndGpio0 : State := st { rg [(Reg.UART_CTL, 7), (Reg.GPIO_DIR, 0x00FF), (Reg.GPIO_OD, 0x000F), (Reg.GPIO_OUT, 0x55), (Reg.GPIO_IN, 0x8001)] with per := { rxq := List.replicate 16 3, txq := [0x5A, 1, 2] } }
def wUartAndGpio1 : State := st { rg [(Reg.UART_CTL, 7)] with per := { txq := [0] } }
/-- Hypotheses of `Obligations.UartAndGpio`, clause by clause. -/
theorem test_witness_UartAndGpio :
  (Dev.BusOpen Master.supv Reg.GPIO_CLR wUartAndGpio0.dev) ∧
  (Dev.BusOpen Master.supv Reg.GPIO_SET wUartAndGpio0.dev) ∧
  (wUartAndGpio1.dev.domainOn 2 = true ∧ wUartAndGpio1.dev.gpioDrives 0 = false ∧ wUartAndGpio1.dev.bit Reg.GPIO_IN 0 ≠ true) ∧
  (wUartAndGpio0.dev.domainOn 2 = true ∧ ¬(wUartAndGpio0.dev.gpioDrives 0 = false ∧ wUartAndGpio0.dev.bit Reg.GPIO_IN 0 ≠ true)) ∧
  (wUartAndGpio1.dev.domainOn 2 = true ∧ wUartAndGpio1.dev.bit Reg.UART_CTL 0 = true ∧ wUartAndGpio1.dev.bit Reg.UART_CTL 2 = true ∧ wUartAndGpio1.dev.per.txq = [0#8] ∧
      ([] : List Byte) = []) ∧
  (wUartAndGpio0.dev.busCode Master.supv Reg.UART_DATA AccSize.b32 false = none ∧ wUartAndGpio0.dev.shadow.getD 0 (shadowKey Master.supv Reg.UART_DATA) = 0) ∧
  (Dev.BusOpen Master.supv Reg.UART_DATA wUartAndGpio0.dev) ∧
  (wUartAndGpio0.dev.domainOn 2 = true ∧ wUartAndGpio0.dev.bit Reg.UART_CTL 0 = true ∧ wUartAndGpio0.dev.bit Reg.UART_CTL 1 = true ∧ false = false ∧
      16 ≤ wUartAndGpio0.dev.per.rxq.length) ∧
  (wUartAndGpio1.dev.domainOn 2 = true ∧ wUartAndGpio1.dev.bit Reg.UART_CTL 0 = true ∧ wUartAndGpio1.dev.bit Reg.UART_CTL 1 = true ∧ false = false ∧
      wUartAndGpio1.dev.per.rxq.length < 16) ∧
  (wUartAndGpio0.dev.domainOn 2 = true ∧ wUartAndGpio0.dev.bit Reg.UART_CTL 0 = true ∧ wUartAndGpio0.dev.bit Reg.UART_CTL 1 = true ∧ true = true) := by
  repeat' apply And.intro
  all_goals decide +kernel

def wRailsPmbusAndFlash0 : State := st { rg [(Reg.FC_EN 2, 0xFFFFFFFF)] with pwr := { mainGood := true, safeOn := true, pg := 1 }, per := { rails := [(0, false, 0)] } }
def wRailsPmbusAndFlash1 : State := st { rg [(Reg.PMIC_CTL, 0x21), (Reg.PMIC_STAT, 0x2121), (Reg.PMB_CTL, 1), (Reg.PMB_DATA 0, 0x04030201)] with per := {} }
def wRailsPmbusAndFlash2 : State := st { rg [(Reg.PMIC_RAIL 0, 5), (Reg.PMIC_RAIL 1, 9),(Reg.PMIC_RAIL 5, 1)] with per := { pmbOp := some 0x30000, qspi := some 0x401FF } }
def wRailsPmbusAndFlash3 : State := st { rg [] with per := { rails := [(5, true, 0), (0, false, 3)], pmbOp := some 0x20060000, qspi := some 0x600 } }
/-- Hypotheses of `Obligations.RailsPmbusAndFlash`, clause by clause. -/
theorem test_witness_RailsPmbusAndFlash :
  (wRailsPmbusAndFlash2.dev.per.qspi = some 262655#32 ∧ fieldOf (262655#32) 10 9 ≤ 256 ∧ (262655#32).getLsbD 9 = false) ∧
  (wRailsPmbusAndFlash3.dev.per.qspi = some 1536#32 ∧ fieldOf (1536#32) 10 9 ≤ 256 ∧ (1536#32).getLsbD 9 = true) ∧
  (Dev.BusOpen Master.supv Reg.QSPI_CMD wRailsPmbusAndFlash2.dev ∧ (wRailsPmbusAndFlash2.dev.per.qspi.isSome = true ∨ 256 < fieldOf (0#32) 10 9)) ∧
  (Dev.BusOpen Master.supv Reg.QSPI_CMD wRailsPmbusAndFlash0.dev ∧ ¬(wRailsPmbusAndFlash0.dev.per.qspi.isSome = true ∨ 256 < fieldOf (0#32) 10 9)) ∧
  (wRailsPmbusAndFlash2.dev.per.pmbOp = some 196608#32 ∧ (PmbEnd.nack = PmbEnd.nack ∨ PmbEnd.nack = PmbEnd.pecErr ∨ PmbEnd.nack = PmbEnd.timeout)) ∧
  (Dev.BusOpen Master.supv Reg.PMB_CMD wRailsPmbusAndFlash0.dev ∧ fieldOf (268828757#32) 16 3 = 6 ∧ wRailsPmbusAndFlash0.dev.per.pmbOp = none ∧
      5 ≤ fieldOf (268828757#32) 16 3) ∧
  (Dev.BusOpen Master.supv Reg.PMB_CMD wRailsPmbusAndFlash0.dev ∧ fieldOf (268828757#32) 16 3 = 6 ∧ wRailsPmbusAndFlash0.dev.per.pmbOp = none ∧
      (5 ≤ fieldOf (268828757#32) 16 3 → fieldOf (268828757#32) 24 6 ≤ 32)) ∧
  (Dev.BusOpen Master.supv Reg.PMB_CMD wRailsPmbusAndFlash1.dev ∧ fieldOf (268828757#32) 16 3 = 6 ∧ wRailsPmbusAndFlash1.dev.per.pmbOp = none ∧
      (5 ≤ fieldOf (268828757#32) 16 3 → fieldOf (268828757#32) 24 6 ≤ 32) ∧ wRailsPmbusAndFlash1.dev.bit Reg.PMB_CTL 0 = true) ∧
  (Dev.BusOpen Master.supv Reg.PMB_CMD wRailsPmbusAndFlash2.dev ∧ fieldOf (268828757#32) 16 3 = 6 ∧
      (wRailsPmbusAndFlash2.dev.per.pmbOp.isSome = true ∨ 5 ≤ fieldOf (268828757#32) 16 3 ∧ 32 < fieldOf (268828757#32) 24 6)) ∧
  (Dev.BusOpen Master.supv Reg.PMB_CMD wRailsPmbusAndFlash0.dev ∧ fieldOf (553975893#32) 16 3 = 5 ∧ wRailsPmbusAndFlash0.dev.per.pmbOp = none ∧
      5 ≤ fieldOf (553975893#32) 16 3) ∧
  (Dev.BusOpen Master.supv Reg.PMB_CMD wRailsPmbusAndFlash0.dev ∧ fieldOf (328192#32) 16 3 = 5 ∧ wRailsPmbusAndFlash0.dev.per.pmbOp = none ∧
      (5 ≤ fieldOf (328192#32) 16 3 → fieldOf (328192#32) 24 6 ≤ 32)) ∧
  (Dev.BusOpen Master.supv Reg.PMB_CMD wRailsPmbusAndFlash1.dev ∧ fieldOf (328192#32) 16 3 = 5 ∧ wRailsPmbusAndFlash1.dev.per.pmbOp = none ∧
      (5 ≤ fieldOf (328192#32) 16 3 → fieldOf (328192#32) 24 6 ≤ 32) ∧ wRailsPmbusAndFlash1.dev.bit Reg.PMB_CTL 0 = true) ∧
  (Dev.BusOpen Master.supv Reg.PMB_CMD wRailsPmbusAndFlash0.dev ∧ fieldOf (553975893#32) 16 3 = 5 ∧
      (wRailsPmbusAndFlash0.dev.per.pmbOp.isSome = true ∨ 5 ≤ fieldOf (553975893#32) 16 3 ∧ 32 < fieldOf (553975893#32) 24 6)) ∧
  (Dev.BusOpen Master.supv Reg.PMB_CMD wRailsPmbusAndFlash0.dev ∧ fieldOf (262144#32) 16 3 = 4 ∧ wRailsPmbusAndFlash0.dev.per.pmbOp = none ∧
      (5 ≤ fieldOf (262144#32) 16 3 → fieldOf (262144#32) 24 6 ≤ 32)) ∧
  (Dev.BusOpen Master.supv Reg.PMB_CMD wRailsPmbusAndFlash1.dev ∧ fieldOf (262144#32) 16 3 = 4 ∧ wRailsPmbusAndFlash1.dev.per.pmbOp = none ∧
      (5 ≤ fieldOf (262144#32) 16 3 → fieldOf (262144#32) 24 6 ≤ 32) ∧ wRailsPmbusAndFlash1.dev.bit Reg.PMB_CTL 0 = true) ∧
  (Dev.BusOpen Master.supv Reg.PMB_CMD wRailsPmbusAndFlash2.dev ∧ fieldOf (262144#32) 16 3 = 4 ∧
      (wRailsPmbusAndFlash2.dev.per.pmbOp.isSome = true ∨ 5 ≤ fieldOf (262144#32) 16 3 ∧ 32 < fieldOf (262144#32) 24 6)) ∧
  (Dev.BusOpen Master.supv Reg.PMB_CMD wRailsPmbusAndFlash0.dev ∧ fieldOf (1510146064#32) 16 3 = 3 ∧ wRailsPmbusAndFlash0.dev.per.pmbOp = none ∧
      (5 ≤ fieldOf (1510146064#32) 16 3 → fieldOf (1510146064#32) 24 6 ≤ 32)) ∧
  (Dev.BusOpen Master.supv Reg.PMB_CMD wRailsPmbusAndFlash1.dev ∧ fieldOf (1510146064#32) 16 3 = 3 ∧ wRailsPmbusAndFlash1.dev.per.pmbOp = none ∧
      (5 ≤ fieldOf (1510146064#32) 16 3 → fieldOf (1510146064#32) 24 6 ≤ 32) ∧ wRailsPmbusAndFlash1.dev.bit Reg.PMB_CTL 0 = true) ∧
  (Dev.BusOpen Master.supv Reg.PMB_CMD wRailsPmbusAndFlash2.dev ∧ fieldOf (1510146064#32) 16 3 = 3 ∧
      (wRailsPmbusAndFlash2.dev.per.pmbOp.isSome = true ∨ 5 ≤ fieldOf (1510146064#32) 16 3 ∧ 32 < fieldOf (1510146064#32) 24 6)) ∧
  (Dev.BusOpen Master.supv Reg.PMB_CMD wRailsPmbusAndFlash0.dev ∧ fieldOf (67239936#32) 16 3 = 2 ∧ wRailsPmbusAndFlash0.dev.per.pmbOp = none ∧
      (5 ≤ fieldOf (67239936#32) 16 3 → fieldOf (67239936#32) 24 6 ≤ 32)) ∧
  (Dev.BusOpen Master.supv Reg.PMB_CMD wRailsPmbusAndFlash1.dev ∧ fieldOf (67239936#32) 16 3 = 2 ∧ wRailsPmbusAndFlash1.dev.per.pmbOp = none ∧
      (5 ≤ fieldOf (67239936#32) 16 3 → fieldOf (67239936#32) 24 6 ≤ 32) ∧ wRailsPmbusAndFlash1.dev.bit Reg.PMB_CTL 0 = true) ∧
  (Dev.BusOpen Master.supv Reg.PMB_CMD wRailsPmbusAndFlash2.dev ∧ fieldOf (67239936#32) 16 3 = 2 ∧
      (wRailsPmbusAndFlash2.dev.per.pmbOp.isSome = true ∨ 5 ≤ fieldOf (67239936#32) 16 3 ∧ 32 < fieldOf (67239936#32) 24 6)) ∧
  (Dev.BusOpen Master.supv Reg.PMB_CMD wRailsPmbusAndFlash0.dev ∧ fieldOf (67174400#32) 16 3 = 1 ∧ wRailsPmbusAndFlash0.dev.per.pmbOp = none ∧
      (5 ≤ fieldOf (67174400#32) 16 3 → fieldOf (67174400#32) 24 6 ≤ 32)) ∧
  (Dev.BusOpen Master.supv Reg.PMB_CMD wRailsPmbusAndFlash1.dev ∧ fieldOf (67174400#32) 16 3 = 1 ∧ wRailsPmbusAndFlash1.dev.per.pmbOp = none ∧
      (5 ≤ fieldOf (67174400#32) 16 3 → fieldOf (67174400#32) 24 6 ≤ 32) ∧ wRailsPmbusAndFlash1.dev.bit Reg.PMB_CTL 0 = true) ∧
  (Dev.BusOpen Master.supv Reg.PMB_CMD wRailsPmbusAndFlash2.dev ∧ fieldOf (67174400#32) 16 3 = 1 ∧
      (wRailsPmbusAndFlash2.dev.per.pmbOp.isSome = true ∨ 5 ≤ fieldOf (67174400#32) 16 3 ∧ 32 < fieldOf (67174400#32) 24 6)) ∧
  (Dev.BusOpen Master.supv Reg.PMB_CMD wRailsPmbusAndFlash0.dev ∧ fieldOf (0#32) 16 3 = 0 ∧ wRailsPmbusAndFlash0.dev.per.pmbOp = none ∧
      (5 ≤ fieldOf (0#32) 16 3 → fieldOf (0#32) 24 6 ≤ 32)) ∧
  (Dev.BusOpen Master.supv Reg.PMB_CMD wRailsPmbusAndFlash1.dev ∧ fieldOf (0#32) 16 3 = 0 ∧ wRailsPmbusAndFlash1.dev.per.pmbOp = none ∧
      (5 ≤ fieldOf (0#32) 16 3 → fieldOf (0#32) 24 6 ≤ 32) ∧ wRailsPmbusAndFlash1.dev.bit Reg.PMB_CTL 0 = true) ∧
  (Dev.BusOpen Master.supv Reg.PMB_CMD wRailsPmbusAndFlash2.dev ∧ fieldOf (0#32) 16 3 = 0 ∧ (wRailsPmbusAndFlash2.dev.per.pmbOp.isSome = true ∨ 5 ≤ fieldOf (0#32) 16 3 ∧
      32 < fieldOf (0#32) 24 6)) ∧
  (0 < 6 ∧ wRailsPmbusAndFlash0.dev.per.rails = [(0, false, 0)] ∧ ∀ (e : Nat × Bool × Nat), e ∈ [] → e.snd.snd ≠ 0) ∧
  (0 < 6 ∧ wRailsPmbusAndFlash0.dev.per.rails = [(0, false, 0)] ∧ (∀ (e : Nat × Bool × Nat), e ∈ [] → e.snd.snd ≠ 0) ∧ false = false ∧
      wRailsPmbusAndFlash0.dev.pwr.pg.getLsbD 0 = true ∧ wRailsPmbusAndFlash0.dev.railNeeded 0 = true) ∧
  (5 < 6 ∧ wRailsPmbusAndFlash3.dev.per.rails = [(5, true, 0), (0, false, 3)] ∧ (∀ (e : Nat × Bool × Nat), e ∈ [(0, false, 3)] → e.snd.snd ≠ 0) ∧ ¬(true = false ∧
      wRailsPmbusAndFlash3.dev.pwr.pg.getLsbD 5 = true ∧ wRailsPmbusAndFlash3.dev.railNeeded 5 = true)) ∧
  (0 < 6 ∧ wRailsPmbusAndFlash0.dev.per.rails = [(0, false, 0)] ∧ (∀ (e : Nat × Bool × Nat), e ∈ [] → e.snd.snd ≠ 0) ∧ (false = false ∧
      wRailsPmbusAndFlash0.dev.pwr.pg.getLsbD 0 = true ∧ wRailsPmbusAndFlash0.dev.railNeeded 0 = true) ∧ wRailsPmbusAndFlash0.dev.srcEnabled 87 = true) ∧
  (Dev.BusOpen Master.supv Reg.PMIC_CTL wRailsPmbusAndFlash2.dev ∧ wRailsPmbusAndFlash2.dev.per.rails = [] ∧ wRailsPmbusAndFlash2.dev.fld Reg.PMIC_CTL 0 6 = 0 ∧ 0 < 6 ∧
      (1#32).getLsbD 0 = true) ∧
  (Dev.BusOpen Master.supv Reg.PMIC_CTL wRailsPmbusAndFlash2.dev ∧ wRailsPmbusAndFlash2.dev.per.rails = [] ∧ wRailsPmbusAndFlash2.dev.fld Reg.PMIC_CTL 0 6 = 0 ∧
      ∀ (i : Nat), i < 6 → (0#32).getLsbD i = true → 0 < wRailsPmbusAndFlash2.dev.fld (Reg.PMIC_RAIL i) 0 10) ∧
  (Dev.BusOpen Master.supv Reg.PMIC_CTL wRailsPmbusAndFlash1.dev ∧ wRailsPmbusAndFlash1.dev.per.rails = [] ∧ 0 < 6 ∧ wRailsPmbusAndFlash1.dev.bit Reg.PMIC_CTL 0 = true ∧
      0#32 &&& 63#32 = 0 ∧ 1 < 6 ∧ 0 < 1) ∧
  (Dev.BusOpen Master.supv Reg.PMIC_CTL wRailsPmbusAndFlash1.dev ∧ wRailsPmbusAndFlash1.dev.per.rails = [] ∧ 5 < 6 ∧ wRailsPmbusAndFlash1.dev.bit Reg.PMIC_CTL 5 = true ∧
      0#32 &&& 63#32 = 0 ∧ ∀ (j : Nat), j < 6 → 5 < j → wRailsPmbusAndFlash1.dev.bit Reg.PMIC_CTL j = false) ∧
  (Dev.BusOpen Master.supv Reg.PMIC_CTL wRailsPmbusAndFlash0.dev ∧ wRailsPmbusAndFlash0.dev.per.rails ≠ []) := by
  repeat' apply And.intro
  all_goals decide +kernel

end Sys2Proof.Tests
end

section
/-! PROOFS. Reads and writes of registers through the bus (spec/02_address_space.md, R42 and R45): what an access that meets no error
does at a register block, where the 64-bit values stand, and how a high word passes through the shadow of its master. -/

namespace Sys2Proof.Machine

/-! ### Bus accesses at a register block -/

theorem exec_memoryAccess (m : Master) (a : Word) (size : AccSize) (op : BusOp) (s : State) :
    exec (.memoryAccess m a size op) s = .next (s.upd (busAccess m a.toNat size op)) := rfl

theorem exec_lowWordRead (m : Master) (a : Word) (s : State) :
    exec (.lowWordRead m a) s = .next (s.upd (busAccess m a.toNat .b32 .read)) := rfl

/-- A read of a register that meets no error is the register's own read. -/
theorem busAccess_read_register (m : Master) (a : Nat) (d : Dev) (hr : regionOf a = some .register)
    (hc : d.busCode m a .b32 false = none) : busAccess m a .b32 .read d = regRead m a d := by
  have hc' : d.busCode m a .b32 (BusOp.read != .read) = none := hc
  simp only [busAccess, hc', hr]

/-- A write of a register that meets no error is the register's own write, answered without an error. -/
theorem busAccess_write_register (m : Master) (a : Nat) (v : Word) (d : Dev) (hr : regionOf a = some .register)
    (hc : d.busCode m a .b32 true = none) : busAccess m a .b32 (.write v) d = (regWrite m a v d).putBusResp ⟨0, 0⟩ := by
  have hw : (BusOp.write v != .read) = true := bne_iff_ne.mpr (by simp)
  simp only [busAccess, hw, hc, hr]

/-- A 32-bit access that meets no error stands at a word address (R41, R47). -/
theorem Dev.busCode_none_aligned (d : Dev) (m : Master) (a : Nat) (wr : Bool) (h : d.busCode m a .b32 wr = none) : a % 4 = 0 := by
  unfold Dev.busCode at h
  split at h
  case h_1 => cases h
  case h_2 =>
    split at h
    · cases h
    split at h
    · cases h
    split at h
    · cases h
    next hsize =>
      simp only [Bool.or_eq_true, bne_iff_ne, not_or, ne_eq, Decidable.not_not, sizeBytes] at hsize
      exact hsize.2

/-! ### Register reads and writes -/

theorem regRead_noReg (m : Master) (a : Nat) (d : Dev) (h : noReg a = true) : regRead m a d = d.putBusResp ⟨0, 0⟩ := by
  simp [regRead, h]

theorem regWrite_noReg (m : Master) (a : Nat) (v : Word) (d : Dev) (h : noReg a = true) : regWrite m a v d = d := by
  simp [regWrite, h]

/-- A high word that the master's shadow holds is answered from it, and the shadow is then empty (R45). -/
theorem regRead_shadow (m : Master) (a x : Nat) (d : Dev) (hn : noReg a = false) (hs : d.isSealed a = false)
    (hk : SMap.getD d.shadow 0 (shadowKey m a) = x + 1) :
    regRead m a d = (d.putShadow (SMap.put d.shadow 0 (shadowKey m a) 0)).putBusResp ⟨wordN x, 0⟩ := by
  simp [regRead, hn, hs, hk]

/-- Without a shadow the live value is answered, and the read has its side effect. -/
theorem regRead_live (m : Master) (a : Nat) (d : Dev) (hn : noReg a = false) (hs : d.isSealed a = false)
    (hk : SMap.getD d.shadow 0 (shadowKey m a) = 0) :
    regRead m a d = (regReadSide m a d).putBusResp ⟨regVal a d, 0⟩ := by
  simp [regRead, hn, hs, hk]

/-! ### What a read does to the shadows -/

@[simp] theorem Dev.showTxts_shadow (n : Nat) (d : Dev) : (d.showTxts n).shadow = d.shadow := by
  unfold Dev.showTxts; split <;> rw [Dev.wr_shadow, Dev.wr_shadow, Dev.wr_shadow]

@[simp] theorem ethTxtsRead_shadow (n : Nat) (d : Dev) : (ethTxtsRead n d).shadow = d.shadow :=
  Dev.showTxts_shadow n (d.putNet _)

@[simp] theorem Dev.uartPop_shadow (d : Dev) : d.uartPop.2.shadow = d.shadow := by
  unfold Dev.uartPop; split <;> rfl

/-- A live read of a low word latches the high word, as it then reads, in the shadow of its master (R45). -/
theorem regReadSide_shadow (m : Master) (a h : Nat) (d : Dev) (hh : hiOf a = some h) :
    (regReadSide m a d).shadow = SMap.put d.shadow 0 (shadowKey m h) ((regVal h d).toNat + 1) := by
  simp only [regReadSide, hh]
  split
  · rw [Dev.putTb_shadow, Dev.putShadow_shadow]
  split
  · rw [Dev.uartPop_shadow, Dev.putShadow_shadow]
  split
  · rw [Dev.putBusResp_shadow, ethTxtsRead_shadow, Dev.putShadow_shadow]
  split
  · split
    · rw [Dev.putShadow_shadow]
    · rw [Dev.wr_shadow, Dev.putShadow_shadow]
  · rw [Dev.putShadow_shadow]

/-! ### Where the 64-bit values stand -/

/-- The low words of the 64-bit values that stand alone. -/
def singleLows : List Nat :=
  [Reg.TIME_NOW_LO, Reg.TIME_STEP_LO, Reg.TIME_PPSIN_LO, Reg.AMB_HOLD_LO, Reg.AMB_OFF_LO, Reg.AMB_RSTK_LO, Reg.MET_LATCH_AT_LO,
    Reg.BOOT_SERIAL_LO, Reg.ETH_TXTS_LO 0, Reg.ETH_TXTS_LO 1, Reg.ETH_TXTS_LO 2, Reg.ETH_TXTS_LO 3]

/-- At a word address, a low word is one of those that stand alone, an energy register, an interval energy, the time of a fault
record, or the sum of a sequence entry. -/
theorem hiOf_cases (a h : Nat) (hh : hiOf a = some h) (ha : a % 4 = 0) :
    (a ∈ singleLows ∧ h = a + 4) ∨ (∃ q < 130, a = Reg.MET_E_LO q ∧ h = Reg.MET_E_LO q + 4) ∨
      (∃ q < 130, a = Reg.MET_I q ∧ h = Reg.MET_IW q) ∨ (∃ i < 64, a = Reg.FC_LOG i 2 ∧ h = Reg.FC_LOG i 3) ∨
      (∃ g < 2, ∃ e < 32, a = Reg.ADC_ACC_LO g e ∧ h = Reg.ADC_ACC_LO g e + 4) := by
  unfold hiOf at hh
  simp only [Bool.and_eq_true, decide_eq_true_eq, beq_iff_eq, Reg.MET_E_LO, Reg.MET_I, Reg.FC_LOG] at hh
  simp only [Reg.MET_E_LO, Reg.MET_I, Reg.MET_IW, Reg.FC_LOG, Reg.ADC_ACC_LO]
  split at hh
  next hsingle => cases hh; exact .inl ⟨List.contains_iff_mem.mp hsingle, rfl⟩
  split at hh
  next hrange => cases hh; exact .inr (.inl ⟨(a - 0x40381000) / 8, by omega, by omega, by omega⟩)
  split at hh
  next hrange => cases hh; exact .inr (.inr (.inl ⟨(a - 0x40381800) / 4, by omega, by omega, by omega⟩))
  split at hh
  next hrange => cases hh; exact .inr (.inr (.inr (.inl ⟨(a - 0x40041008) / 32, by omega, by omega, by omega⟩)))
  split at hh
  next hrange =>
    cases hh
    exact .inr (.inr (.inr (.inr ⟨(a - 0x40300000) / 0x10000, by omega, ((a - 0x40300000) % 0x10000 - 0x400) / 16, by omega,
      by omega, by omega⟩)))
  · cases hh

/-- A high word stands one word or 256 words above its low word. -/
theorem hiOf_distance (a h : Nat) (hh : hiOf a = some h) : h = a + 4 ∨ h = a + 0x400 := by
  unfold hiOf at hh
  simp only at hh
  split at hh
  · exact .inl (Option.some.inj hh).symm
  split at hh
  · exact .inl (Option.some.inj hh).symm
  split at hh
  · exact .inr (Option.some.inj hh).symm
  split at hh
  · exact .inl (Option.some.inj hh).symm
  split at hh
  · exact .inl (Option.some.inj hh).symm
  · cases hh

theorem hiOf_mod_four (a h : Nat) (hh : hiOf a = some h) : h % 4 = a % 4 := by
  rcases hiOf_distance a h hh with rfl | rfl <;> omega

/-- A 32-bit address that holds a register, and not a conversion result, which a seal could cover (R46). -/
def isPlainReg (a : Nat) : Bool :=
  regionOf a == some .register && !noReg a && decide (a < 2 ^ 32) &&
    (List.range 2).all fun g => decide (a < Reg.ADC_RES g 0) || decide (Reg.ADC_RES g 31 < a)

theorem isPlainReg_register {a : Nat} (h : isPlainReg a = true) :
    regionOf a = some .register ∧ noReg a = false ∧ (BitVec.ofNat 32 a).toNat = a := by
  simp only [isPlainReg, Bool.and_eq_true, beq_iff_eq, Bool.not_eq_true', decide_eq_true_eq] at h
  obtain ⟨⟨⟨hr, hn⟩, hlt⟩, -⟩ := h
  exact ⟨hr, hn, by simpa using Nat.mod_eq_of_lt hlt⟩

theorem isPlainReg_not_sealed {a : Nat} (h : isPlainReg a = true) (d : Dev) : d.isSealed a = false := by
  simp only [isPlainReg, Bool.and_eq_true, List.all_eq_true, Bool.or_eq_true, decide_eq_true_eq] at h
  obtain ⟨-, hout⟩ := h
  simp only [Dev.isSealed, Bool.and_eq_false_iff, List.any_eq_false, Bool.and_eq_true, decide_eq_true_eq]
  refine .inr fun g hg hin => ?_
  obtain ⟨⟨⟨hlo, hhi⟩, -⟩, -⟩ := hin
  rcases hout g hg with h | h <;> omega

theorem singleLows_plain : ∀ a ∈ singleLows, isPlainReg a = true ∧ isPlainReg (a + 4) = true := by decide +kernel

theorem metE_plain : ∀ q < 130, isPlainReg (Reg.MET_E_LO q) = true ∧ isPlainReg (Reg.MET_E_LO q + 4) = true := by decide +kernel

theorem metI_plain : ∀ q < 130, isPlainReg (Reg.MET_I q) = true ∧ isPlainReg (Reg.MET_IW q) = true := by decide +kernel

theorem fcLog_plain : ∀ i < 64, isPlainReg (Reg.FC_LOG i 2) = true ∧ isPlainReg (Reg.FC_LOG i 3) = true := by decide +kernel

theorem adcAcc_plain : ∀ g < 2, ∀ e < 32, isPlainReg (Reg.ADC_ACC_LO g e) = true ∧ isPlainReg (Reg.ADC_ACC_LO g e + 4) = true := by
  decide +kernel

/-- Both words of every 64-bit value are registers that no seal covers. -/
theorem hiOf_plain (a h : Nat) (hh : hiOf a = some h) (ha : a % 4 = 0) : isPlainReg a = true ∧ isPlainReg h = true := by
  rcases hiOf_cases a h hh ha with ⟨ha, rfl⟩ | ⟨q, hq, rfl, rfl⟩ | ⟨q, hq, rfl, rfl⟩ | ⟨i, hi, rfl, rfl⟩ | ⟨g, hg, e, he, rfl, rfl⟩
  · exact singleLows_plain a ha
  · exact metE_plain q hq
  · exact metI_plain q hq
  · exact fcLog_plain i hi
  · exact adcAcc_plain g hg e he

/-- The energy registers are pairs of a low and a high word. -/
theorem hiOf_metE : ∀ q < 130, hiOf (Reg.MET_E_LO q) = some (Reg.MET_E_LO q + 4) := by decide +kernel

/-- A low word that a bus read reaches is a register that no seal covers. -/
theorem lowWord_plain (m : Master) (a h : Nat) (d : Dev) (hh : hiOf a = some h) (hc : d.busCode m a .b32 false = none) :
    isPlainReg a = true :=
  (hiOf_plain a h hh (d.busCode_none_aligned m a false hc)).1

/-- A high word that a bus read reaches is a register that no seal covers. -/
theorem highWord_plain (m : Master) (a h : Nat) (d : Dev) (hh : hiOf a = some h) (hc : d.busCode m h .b32 false = none) :
    isPlainReg h = true :=
  (hiOf_plain a h hh ((hiOf_mod_four a h hh).symm.trans (d.busCode_none_aligned m h false hc))).2

/-! ### Reads of the two words through the bus -/

section PlainRead

variable (m : Master) (a : Nat) (d : Dev) (hp : isPlainReg a = true) (hc : d.busCode m a .b32 false = none)
include hp hc

/-- A bus read of a register that its master has latched answers the latched word and empties the shadow (R45). -/
theorem busAccess_read_latched (x : Nat) (hk : SMap.getD d.shadow 0 (shadowKey m a) = x + 1) :
    busAccess m (BitVec.ofNat 32 a).toNat .b32 .read d =
      (d.putShadow (SMap.put d.shadow 0 (shadowKey m a) 0)).putBusResp ⟨wordN x, 0⟩ := by
  obtain ⟨hr, hn, hw⟩ := isPlainReg_register hp
  rw [hw, busAccess_read_register m a d hr hc, regRead_shadow m a x d hn (isPlainReg_not_sealed hp d) hk]

/-- A bus read of a register that its master has not latched answers the live word. -/
theorem busAccess_read_live (hk : SMap.getD d.shadow 0 (shadowKey m a) = 0) :
    busAccess m (BitVec.ofNat 32 a).toNat .b32 .read d = (regReadSide m a d).putBusResp ⟨regVal a d, 0⟩ := by
  obtain ⟨hr, hn, hw⟩ := isPlainReg_register hp
  rw [hw, busAccess_read_register m a d hr hc, regRead_live m a d hn (isPlainReg_not_sealed hp d) hk]

end PlainRead

/-! ### The statements -/

/-- Settles O25: where no register stands, the read answers zero and the write leaves the device as it was (R42). -/
theorem noRegisterReadsZero : Obligations.NoRegisterReadsZero := by
  intro m a v s hr hn
  refine ⟨fun hc => ⟨_, exec_memoryAccess m a .b32 .read s, ?_⟩, fun hc => ⟨_, exec_memoryAccess m a .b32 (.write v) s, ?_⟩⟩
  · rw [State.upd_dev, busAccess_read_register m _ _ hr hc, regRead_noReg m _ _ hn]
  · rw [State.upd_dev, busAccess_write_register m _ v _ hr hc, regWrite_noReg m _ v _ hn]

/-- Settles O26: both words of every pair are plain registers; the read of the low one latches the high one, and the read of
the high one takes the shadow where there is one (R45; shadows per master and per value, notes/assumptions/22). -/
theorem lowWordThenHighWord : Obligations.LowWordThenHighWord := by
  refine ⟨by decide, hiOf_metE, ?lowRead, ?highLatched, ?highLive⟩
  case lowRead =>
    intro m a h s hh hc hk
    refine ⟨_, exec_lowWordRead m _ s, ?_⟩
    rw [State.upd_dev, busAccess_read_live m a s.dev (lowWord_plain m a h s.dev hh hc) hc hk]
    simp [regReadSide_shadow m a h s.dev hh]
  case highLatched =>
    intro m a h x s hh hc hk
    refine ⟨_, exec_memoryAccess m _ .b32 .read s, ?_⟩
    rw [State.upd_dev, busAccess_read_latched m h s.dev (highWord_plain m a h s.dev hh hc) hc x hk]
    simp [wordN]
  case highLive =>
    intro m a h s hh hc hk
    refine ⟨_, exec_memoryAccess m _ .b32 .read s, ?_⟩
    rw [State.upd_dev, busAccess_read_live m h s.dev (highWord_plain m a h s.dev hh hc) hc hk, Dev.putBusResp_busResp]

end Sys2Proof.Machine
end

section
/-! PROOFS. The check-value units (spec/14_ports_queues_crc.md, R477, R478, R482): what the commands of a unit do to its registers, and what a
bus read of CRC_RES answers. -/

namespace Sys2Proof.Machine

/-! ### What stays -/

theorem Dev.keptBut_refl (l : List Nat) (d : Dev) : d.KeptBut l d := ⟨fun _ _ => rfl, rfl⟩

/-- A listed register may be stored. -/
theorem Dev.KeptBut.wr {l : List Nat} {d e : Dev} (h : d.KeptBut l e) (a : Nat) (v : Word) (ha : a ∈ l) : d.KeptBut l (e.wr a v) := by
  obtain ⟨hrd, hmem⟩ := h
  refine ⟨fun b hb => ?_, hmem⟩
  rw [Dev.rd_wr_other a b v e fun hba => hb (hba ▸ ha), hrd b hb]

theorem Dev.KeptBut.putBusResp {l : List Nat} {d e : Dev} (h : d.KeptBut l e) (r : BusResp) : d.KeptBut l (e.putBusResp r) := h

/-- A write command that reaches its register completes with the write's own effect and an answer without an error. -/
theorem run_viaBus_open (m : Master) (a : Nat) (f : Dev → Dev) (s : State) (h : s.dev.BusOpen m a) :
    ∃ t, run (Dev.viaBus m a f) s = .next t ∧ t.dev = (f s.dev).putBusResp ⟨0, 0⟩ :=
  ⟨_, rfl, s.dev.viaBus_open m a f h⟩

/-! ### Bytes into a unit -/

/-- The value that unit `n` holds after bytes, from a start value, under the width, polynomial and REFIN in force (R477). -/
def Dev.crcFed (d : Dev) (n : Nat) (bytes : List Nat) (r : Nat) : Word :=
  BitVec.ofNat 32 (bytes.foldl (fun r b => crcByte (d.crcW n) ((d.rd (Reg.CRC_POLY n)).toNat % 2 ^ d.crcW n) r
    (if d.bit (Reg.CRC_CFG n) 8 then reflect 8 b else b)) r)

/-- The bytes that START feeds: the low FLEN bytes of FOLD, cut to the width, the most significant first (R477). -/
def Dev.crcFoldBytes (d : Dev) (n : Nat) : List Nat :=
  (List.range (d.fld (Reg.CRC_CFG n) 11 3)).reverse.map fun i => (d.rd (Reg.CRC_FOLD n)).toNat % 2 ^ d.crcW n / 256 ^ i % 256

/-- The bytes of `k` that a data register feeds: the least significant first, or with BSWAP the most significant first (R477). -/
def dinFed (bswap : Bool) (k : Nat) (v : Word) : List Nat :=
  (List.range k).map fun i => v.toNat / 256 ^ (if bswap then k - 1 - i else i) % 256

theorem Dev.crcFeed_eq (n : Nat) (bytes : List Nat) (d : Dev) :
    d.crcFeed n bytes = d.wr (Reg.CRC_VAL n) (d.crcFed n bytes ((d.rd (Reg.CRC_VAL n)).toNat % 2 ^ d.crcW n)) := rfl

/-- A store behind the configuration, the polynomial and the fold changes none of what a feed goes by. -/
theorem Dev.crc_params_wr (n o : Nat) (v : Word) (d : Dev) (ho : Reg.CRC_FOLD n < o) :
    (d.wr o v).crcW n = d.crcW n ∧ (d.wr o v).crcFed n = d.crcFed n ∧ (d.wr o v).crcFoldBytes n = d.crcFoldBytes n := by
  have hkept (a : Nat) (ha : a ≤ Reg.CRC_FOLD n) : (d.wr o v).rd a = d.rd a :=
    Dev.rd_wr_other _ _ _ _ (Nat.ne_of_lt (Nat.lt_of_le_of_lt ha ho))
  have hcfg := hkept (Reg.CRC_CFG n) (by simp)
  have hpoly := hkept (Reg.CRC_POLY n) (by simp)
  have hfold := hkept (Reg.CRC_FOLD n) (Nat.le_refl _)
  have hw : (d.wr o v).crcW n = d.crcW n := by simp only [Dev.crcW, Dev.fld, hcfg]
  refine ⟨hw, ?_, ?_⟩
  · have hbit : (d.wr o v).bit (Reg.CRC_CFG n) 8 = d.bit (Reg.CRC_CFG n) 8 := by rw [Dev.bit, hcfg, Dev.bit]
    funext bytes r
    rw [Dev.crcFed, hw, hpoly, hbit, Dev.crcFed]
  · simp only [Dev.crcFoldBytes, Dev.fld, hw, hcfg, hfold]

/-- The low `w` bits of a word, stored and read back, are the same `w` bits. -/
theorem toNat_ofNat_mod_width (w : Nat) (x : Word) :
    (BitVec.ofNat 32 (x.toNat % 2 ^ w)).toNat % 2 ^ w = x.toNat % 2 ^ w := by
  have hlt : x.toNat % 2 ^ w < 2 ^ 32 := Nat.lt_of_le_of_lt (Nat.mod_le _ _) x.isLt
  rw [BitVec.toNat_ofNat, Nat.mod_eq_of_lt hlt, Nat.mod_mod]

/-- The word that START loads: the low W bits of INIT (R477). -/
def Dev.crcInit (d : Dev) (n : Nat) : Word := BitVec.ofNat 32 ((d.rd (Reg.CRC_INIT n)).toNat % 2 ^ d.crcW n)

/-- START: the initial value in the register, the count cleared, then the fold (R477). -/
theorem crcStart_eq (n : Nat) (v : Word) (d : Dev) (h : v.getLsbD 0 = true) :
    crcStart n v d =
      ((d.wr (Reg.CRC_VAL n) (d.crcInit n)).wr (Reg.CRC_CNT n) 0).wr (Reg.CRC_VAL n)
        (d.crcFed n (d.crcFoldBytes n) ((d.rd (Reg.CRC_INIT n)).toNat % 2 ^ d.crcW n)) := by
  have hval : Reg.CRC_FOLD n < Reg.CRC_VAL n := by simp
  have hcnt : Reg.CRC_FOLD n < Reg.CRC_CNT n := by simp
  obtain ⟨hw, hfed, hfold⟩ := d.crc_params_wr n _ (d.crcInit n) hval
  obtain ⟨hw', hfed', hfold'⟩ := (d.wr (Reg.CRC_VAL n) (d.crcInit n)).crc_params_wr n _ 0 hcnt
  have hread : (((d.wr (Reg.CRC_VAL n) (d.crcInit n)).wr (Reg.CRC_CNT n) 0).rd (Reg.CRC_VAL n)).toNat % 2 ^ d.crcW n =
      (d.rd (Reg.CRC_INIT n)).toNat % 2 ^ d.crcW n := by
    rw [Dev.rd_wr_other _ _ _ _ (by simp), Dev.rd_wr_same, Dev.crcInit, toNat_ofNat_mod_width]
  have hrun : crcStart n v d = ((d.wr (Reg.CRC_VAL n) (d.crcInit n)).wr (Reg.CRC_CNT n) 0).crcFeed n
      (((d.wr (Reg.CRC_VAL n) (d.crcInit n)).wr (Reg.CRC_CNT n) 0).crcFoldBytes n) := by simp only [crcStart, h]; rfl
  rw [hrun, Dev.crcFeed_eq, hw', hw, hfed', hfed, hfold', hfold, hread]

/-- The bytes of a data register in either order, as the model lists them. -/
theorem dinFed_eq (bswap : Bool) (x : DinW) (v : Word) :
    (if bswap then ((List.range (dinBytes x)).map fun i => v.toNat / 256 ^ i % 256).reverse
      else (List.range (dinBytes x)).map fun i => v.toNat / 256 ^ i % 256) = dinFed bswap (dinBytes x) v := by
  cases bswap
  case false => rfl
  case true => cases x <;> rfl

/-- Data: the register takes the bytes, the count moves on by their number (R477). -/
theorem crcDin_eq (n : Nat) (x : DinW) (v : Word) (d : Dev) :
    crcDin n x v d =
      (d.wr (Reg.CRC_VAL n)
        (d.crcFed n (dinFed (d.bit (Reg.CRC_CFG n) 10) (dinBytes x) v) ((d.rd (Reg.CRC_VAL n)).toNat % 2 ^ d.crcW n))).wr
        (Reg.CRC_CNT n) (d.rd (Reg.CRC_CNT n) + BitVec.ofNat 32 (dinBytes x)) := by
  simp only [crcDin, dinFed_eq, Dev.crcFeed_eq]
  rw [Dev.rd_wr_other (Reg.CRC_VAL n) (Reg.CRC_CNT n) _ _ (by simp)]

/-! ### The configuration -/

/-- CRC_CFG holds WIDTH and the four fields from bit 8 on, all of them RW (R482). -/
theorem findReg_crcCfg : ∀ n : Fin 4, findReg (Reg.CRC_CFG n) = some ⟨0, [], 0x320#32, 0x3F3F#32, 0#32, 0#32, 0#32⟩ := by decide

/-- A width of 0 or above 32, or a fold of more than four bytes, sets CFG_ERR (R478). -/
theorem crcCfgWrite_refused (n : Nat) (v : Word) (d : Dev) (h : fieldOf v 0 6 = 0 ∨ 32 < fieldOf v 0 6 ∨ 4 < fieldOf v 11 3) :
    crcCfgWrite n v d = d.setB (Reg.CRC_STAT n) 1 true := by
  simp only [crcCfgWrite, Bool.or_eq_true, beq_iff_eq, decide_eq_true_eq, or_assoc, if_pos h]

/-- A legal configuration is stored; reserved bits stay as they are. -/
theorem crcCfgWrite_stored (n : Fin 4) (v : Word) (d : Dev) (h : ¬ (fieldOf v 0 6 = 0 ∨ 32 < fieldOf v 0 6 ∨ 4 < fieldOf v 11 3)) :
    crcCfgWrite n v d = d.wr (Reg.CRC_CFG n) ((d.rd (Reg.CRC_CFG n) &&& ~~~0x3F3F#32) ||| (v &&& 0x3F3F#32)) := by
  simp only [crcCfgWrite, Bool.or_eq_true, beq_iff_eq, decide_eq_true_eq, or_assoc, if_neg h, Dev.genWrite, findReg_crcCfg,
    BitVec.and_zero, BitVec.or_zero, BitVec.not_zero, BitVec.and_allOnes]

/-- A field of a word written under a mask is the datum's where the mask covers it. -/
theorem fieldOf_masked (o v k : Word) (lo w : Nat) (hk : ∀ i < w, k.getLsbD (lo + i) = true) :
    fieldOf ((o &&& ~~~k) ||| (v &&& k)) lo w = fieldOf v lo w := by
  apply Nat.eq_of_testBit_eq
  intro i
  rw [testBit_fieldOf, testBit_fieldOf]
  by_cases hi : i < w
  · simp [hk i hi]
  · simp [hi]

/-! ### The result -/

/-- CRC_RES stands in its unit's block; no seal covers it, it is no low word of a pair, and no bit of it is cleared by a read. -/
theorem crcRes_register : ∀ n : Fin 4, isPlainReg (Reg.CRC_RES n) = true ∧ hiOf (Reg.CRC_RES n) = none ∧
    findReg (Reg.CRC_RES n) = some ⟨0x1C, [], 0#32, 0#32, 0#32, 0#32, 0#32⟩ ∧
    findBlock (Reg.CRC_RES n) = some ⟨0x40480000, 4, 0x10000, 0x10000, 2, RegMap.crc⟩ := by
  decide

/-- A read of CRC_RES does nothing beside answering. -/
theorem regReadSide_crcRes (m : Master) (n : Fin 4) (d : Dev) : regReadSide m (Reg.CRC_RES n) d = d := by
  obtain ⟨-, hhi, hreg, -⟩ := crcRes_register n
  have htime : Reg.CRC_RES n ≠ Reg.TIME_NOW_LO := by simp only [Reg.CRC_RES, Reg.TIME_NOW_LO]; omega
  have huart : Reg.CRC_RES n ≠ Reg.UART_DATA := by simp only [Reg.CRC_RES, Reg.UART_DATA]; omega
  have heth : ¬ Reg.CRC_RES n ≤ Reg.ETH_TXTS_INFO 3 := by simp only [Reg.CRC_RES, Reg.ETH_TXTS_INFO]; omega
  simp only [regReadSide, hhi, hreg, htime, huart, heth, beq_iff_eq, decide_false, Bool.and_false, Bool.false_and, if_false,
    Bool.false_eq_true, BitVec.ofNat_eq_ofNat, if_true]

/-- The fuses show in BOOT, from BOOT_SVN_MIN on. -/
theorem Dev.fuseRead_below (d : Dev) (a : Nat) (h : a < Reg.BOOT_SVN_MIN) : d.fuseRead a = none := by
  have hne (b : Nat) (hb : Reg.BOOT_SVN_MIN ≤ b) : (a == b) = false := beq_false_of_ne (by omega)
  have hhash : ¬ Reg.BOOT_KHASH 0 0 ≤ a := by simp only [Reg.BOOT_KHASH, Reg.BOOT_SVN_MIN] at h ⊢; omega
  simp only [Dev.fuseRead, hne Reg.BOOT_SVN_MIN (by decide), hne Reg.BOOT_KEYS (by decide), hne Reg.BOOT_DBG (by decide),
    hne Reg.BOOT_SERIAL_LO (by decide), hne Reg.BOOT_SERIAL_HI (by decide), hhash, Bool.false_eq_true, if_false, decide_false,
    Bool.false_and]

/-- The one register of a check-value unit that shows no stored value is CRC_RES. -/
theorem readHook_crcRes (i : Nat) (d : Dev) : readHook (readHooks 0x40480000 i) 0x1C d = some (d.crcRes i) := by
  simp [readHooks, readHook, hookIdx]

/-- CRC_RES reads the result of its unit (R477). -/
theorem regVal_crcRes (n : Fin 4) (d : Dev) : regVal (Reg.CRC_RES n) d = d.crcRes n := by
  obtain ⟨hp, -, -, hblock⟩ := crcRes_register n
  obtain ⟨-, hn, -⟩ := isPlainReg_register hp
  have hfuse : d.fuseRead (Reg.CRC_RES n) = none := d.fuseRead_below _ (by simp only [Reg.CRC_RES, Reg.BOOT_SVN_MIN]; omega)
  have hunit : (Reg.CRC_RES n - 0x40480000) / 0x10000 = n := by simp only [Reg.CRC_RES]; omega
  have hoff : (Reg.CRC_RES n - 0x40480000) % 0x10000 = 0x1C := by simp only [Reg.CRC_RES]; omega
  simp only [regVal, hblock, hn, hfuse, hunit, hoff, readHook_crcRes, Option.getD_some, Bool.false_eq_true, if_false]

/-! ### The statement -/

/-- Settles O56: each command's device is given by its equation, and CRC_RES answers live. The refusal of a configuration and the
write of CRC_VAL are R478, the masks R482; a unit takes its writes at once (notes/assumptions/71). -/
theorem checkValueUnits : Obligations.CheckValueUnits := by
  intro m n v s
  refine ⟨?start, ?data, ?value, ?result, ?config⟩
  case start =>
    intro hopen hgo
    obtain ⟨t, ht, hdev⟩ := run_viaBus_open m (Reg.CRC_CMD n) (crcStart n v) s hopen
    rw [crcStart_eq n v s.dev hgo] at hdev
    refine ⟨t, ht, ?_, ?_, ?_⟩
    · rw [hdev, Dev.putBusResp_rd, Dev.rd_wr_other _ _ _ _ (by simp), Dev.rd_wr_same]
    · rw [hdev, Dev.putBusResp_rd, Dev.rd_wr_same]; rfl
    · rw [hdev]
      exact ((((s.dev.keptBut_refl _).wr _ _ (by simp)).wr _ _ (by simp)).wr _ _ (by simp)).putBusResp _
  case data =>
    intro x hopen
    obtain ⟨t, ht, hdev⟩ := run_viaBus_open m (dinAddr n x) (crcDin n x v) s hopen
    rw [crcDin_eq n x v s.dev] at hdev
    refine ⟨t, ht, ?_, ?_, ?_⟩
    · rw [hdev, Dev.putBusResp_rd, Dev.rd_wr_same]; cases x <;> rfl
    · rw [hdev, Dev.putBusResp_rd, Dev.rd_wr_other _ _ _ _ (by simp), Dev.rd_wr_same]; cases x <;> rfl
    · rw [hdev]
      exact (((s.dev.keptBut_refl _).wr _ _ (by simp)).wr _ _ (by simp)).putBusResp _
  case value =>
    intro hopen
    obtain ⟨t, ht, hdev⟩ := run_viaBus_open m (Reg.CRC_VAL n) (crcValWrite n v) s hopen
    refine ⟨t, ht, ?_, ?_⟩
    · rw [hdev, Dev.putBusResp_rd, crcValWrite, Dev.rd_wr_same]; rfl
    · rw [hdev]
      exact ((s.dev.keptBut_refl _).wr _ _ (by simp)).putBusResp _
  case result =>
    intro hc hk
    obtain ⟨hplain, -⟩ := crcRes_register n
    refine ⟨_, exec_memoryAccess m _ .b32 .read s, ?_⟩
    rw [State.upd_dev, busAccess_read_live m (Reg.CRC_RES n) s.dev hplain hc hk, regReadSide_crcRes, regVal_crcRes]
    exact ⟨(s.dev.keptBut_refl []).putBusResp _, rfl⟩
  case config =>
    intro hopen
    obtain ⟨t, ht, hdev⟩ := run_viaBus_open m (Reg.CRC_CFG n) (crcCfgWrite n v) s hopen
    refine ⟨t, ht, ?_⟩
    split
    next hbad =>
      rw [hdev, crcCfgWrite_refused n v s.dev hbad]
      refine ⟨?_, ((s.dev.keptBut_refl _).wr _ _ (by simp)).putBusResp _⟩
      rw [Dev.putBusResp_bit, Dev.bit_setB_same _ _ _ _ (by decide)]
    next hgood =>
      rw [hdev, crcCfgWrite_stored n v s.dev hgood]
      refine ⟨?_, ?_, ((s.dev.keptBut_refl _).wr _ _ (by simp)).putBusResp _⟩
      · rw [Dev.putBusResp_fld, Dev.fld, Dev.rd_wr_same, fieldOf_masked _ _ _ _ _ (by decide)]
      · rw [Dev.putBusResp_fld, Dev.fld, Dev.rd_wr_same, fieldOf_masked _ _ _ _ _ (by decide)]

end Sys2Proof.Machine
end
